-- ==== Sys2Proof/Word.lean ====
section
/-! DEFINITION. The word types of the device (R8): bytes, 32-bit and 64-bit words. -/

namespace Sys2Proof

/-- A byte. -/
abbrev Byte := BitVec 8

/-- A 32-bit word: a register that no table marks 64 (R8). -/
abbrev Word32 := BitVec 32

/-- A 64-bit word: a register marked 64 (R8), a command parameter (Table 10.1). -/
abbrev Word := BitVec 64

end Sys2Proof
end

