-- ==== Sys2Proof/Syntax.lean ====
section
/-! DEFINITION. The commands of the block: one constructor of `Instr` for each row of the opcode table, and the operand
types they carry. A host command carries its 64-byte packet (Table 10.1); a unit instruction carries the unit and the
instruction's fields; an event of the outside world carries what the outside brings. -/

namespace Sys2Proof

/-- Who waits on a synchronisation object, or signals one. -/
inductive Agent where
  | seq (pa : Fin 96)
  | ve (n : Fin 24)
  | ae (n : Fin 8)
  | egu (n : Fin 4)
  | stream (s : Fin 128)
  /-- a SYNC_WAIT in flight: port, queue, tag -/
  | host (port queue tag : Nat)
  /-- the stand-in of a fenced array's logical array (R339) -/
  | standIn (la : Nat)
  deriving DecidableEq, Repr

/-- A host command packet (Table 10.1) with the queue it was fetched from. The constructor of `Instr` gives the opcode. -/
structure Pkt where
  /-- host port 0 or 1 -/
  port : Fin 2
  /-- queue of the port (R252) -/
  queue : Fin 32
  /-- ring index it was fetched from -/
  index : Fin 4096
  /-- byte 0x01 bit 0 -/
  fence : Bool
  /-- byte 0x01 bit 1 -/
  irq : Bool
  /-- byte 0x01 bits 7:2 and bytes 0x05 to 0x07: reserved, 0 in a valid packet (R259) -/
  rsv : BitVec 30
  tag : BitVec 16
  /-- job handle, 0 where the command names none -/
  job : BitVec 8
  p0 : Word
  p1 : Word
  p2 : Word
  p3 : Word
  p4 : Word
  p5 : Word
  p6 : Word
  deriving DecidableEq, Repr

/-- A carrier's line of a job image's slot table: ring, reply queue of the owning port, slot objects with the number of
waiters of each (R202, R261, R274). -/
structure SlotBind where
  carrier : Fin 8
  ringBase : Nat
  log2n : Nat
  queue : Fin 32
  objs : List (Nat × Nat)
  /-- the last synchronisation points of a slot on the learned path: sequencer program or engine program, logical unit,
  address of the SIG or WAIT (R204, R265) -/
  last : List (Bool × Nat × Nat)
  deriving DecidableEq, Repr

/-- An entry of a draw table (R488): rows of a PASS of a logical array, and the code blocks they feed. -/
structure Draw where
  la : Nat
  pc : Nat
  rowLo : Nat
  rowHi : Nat
  carrier : Nat
  layers : Nat
  cbLo : Nat
  cbHi : Nat
  deriving DecidableEq, Repr

/-- A preemption point a job image records (R88, R124, R326): the unit's program and address, its live bytes, its marks,
and for a slot point its release list (object, count, wait). -/
structure PrePoint where
  /-- true: a sequencer program, false: a vector-engine program -/
  seq : Bool
  unit : Nat
  pc : Nat
  record : Nat
  /-- the live ranges: memory (0 LSP, 1 SSP, 2 engine memory, 3 OAB entries, 4 the clusters' memories), offset, length in bytes or entries -/
  live : List (Nat × Nat × Nat)
  gap : Bool
  slot : Bool
  release : List (Nat × Nat × Bool)
  deriving DecidableEq, Repr

/-- A synchronisation object a job image declares (R273). -/
structure JobObj where
  obj : Nat
  type : Nat
  init : Nat
  deadline : Nat
  deriving DecidableEq, Repr

/-- What a job image lays in a memory: its place, and bytes. -/
structure JobData where
  /-- 0: LSP of logical array `unit`; 1: SSP; 2: memory of logical engine `unit`; 3: memory of DSC `unit`; 4: LPDDR5X -/
  space : Nat
  unit : Nat
  off : Nat
  bytes : List Byte
  deriving DecidableEq, Repr

/-- A layer a job image declares (R48, R52, R92): whole-K or grouped, its pairing as MODE codes it (R84), its weight loads and spill
interval, its G and H, and whether it reads a tensor with dynamic scales. -/
structure LayerDecl where
  wholeK : Bool
  pairing : Nat
  loads : Nat
  interval : Nat
  g : Word32
  h : Word32
  readsDynamic : Bool
  deriving DecidableEq, Repr

/-- A calibrated tensor (R199): the operand scales of its producer layer and where its records and the DQ records that a
season sets lie. -/
structure CalTensor where
  /-- format limit L: 7 or 6 -/
  limit : Nat
  /-- second-level value G of the producer, number u of FP4 operands, scale product of each output index as FP32 (R46) -/
  gProd : Word32
  u : Nat
  prods : List Word32
  /-- logical arrays whose statistics records are combined (R109) -/
  arrays : List Nat
  /-- the producer's DQ records: logical array, offset in its season window in 16-byte units -/
  producer : List (Nat × Nat)
  /-- the consumers: weight second-level value, DQ records -/
  consumers : List (Word32 × List (Nat × Nat))
  deriving DecidableEq, Repr

/-- The retention table (R205): ring of buffers in job memory and the retention object. -/
structure Retention where
  base : Nat
  stride : Nat
  count : Nat
  obj : Nat
  deriving DecidableEq, Repr

/-- An adapted tensor (R213, R214): its number, the format of its weights, and its place in a season window. -/
structure AdaptTensor where
  num : Nat
  la : Nat
  off : Nat
  len : Nat
  /-- vector-engine type of its elements (Table 5.1), and complex INT4 limit (CW) -/
  fmt : Nat
  cw : Bool
  /-- existing weight scale of each group of elements, UE5M3, and elements per group -/
  scales : List Byte
  group : Nat
  /-- logical engine that updates it and its XC, which key the generator (R132) -/
  engine : Nat
  xc : Nat
  deriving DecidableEq, Repr

/-- A job image (R267), as JOB_LOAD reads it. The manual gives no byte layout of an image, so the command carries its
content (DESIGN CHOICE, log entry 5). -/
structure JobImage where
  /-- the signed bytes, hashed by ATTEST and verified under R442 -/
  signedBytes : List Byte
  signature : List Byte
  /-- deterministic mode (R281) -/
  det : Bool
  /-- the image names a physical array (R14), claims VC1 slots (R23), leaves background work no cycle (R343) -/
  namesPhysical : Bool
  claimsVc1 : Bool
  starvesBackground : Bool
  /-- sequencer programs of the logical arrays, in order -/
  seqProgs : List (List Word32)
  /-- vector-engine programs of the logical engines, in order -/
  veProgs : List (List Word)
  layers : List LayerDecl
  data : List JobData
  /-- address of the L3 table, and pinned translations: virtual page number, size 0 to 2 (4 KiB, 64 KiB, 2 MiB), entry (R232,
  R234) -/
  ttb : Nat
  pinned : List (Nat × Fin 3 × Word)
  /-- season windows: base in the LSP in 64-byte units and length, per logical array; per DSC (R201) -/
  lspWindows : List (Nat × Nat)
  dscWindows : List (Nat × Nat)
  /-- the contents of each window at the load, arrays then clusters -/
  season : List (List Byte)
  /-- the initial season record (R208, Table 8.2) -/
  seasonRecord : List Byte
  /-- the calibration table, the retention table (R199, R205) -/
  cal : List CalTensor
  retention : Option Retention
  objects : List JobObj
  slotTable : List SlotBind
  /-- the shadow slot object of the slot table, with its waiters (R202, R206) -/
  shadowObj : Option (Nat × Nat)
  draws : List Draw
  points : List PrePoint
  /-- declared time between preemption points in units of 1 µs (R267, R268) -/
  spacing : Nat
  /-- banks marked unused (R225): logical array and mask; SSP mask; DSC and mask -/
  lspUnused : List (Nat × Nat)
  sspUnused : Nat
  dscUnused : List (Nat × Nat)
  /-- firewall regions over its page tables, its tables of KV ranges, sequences and free frames: base page, limit page (R166, R233) -/
  tables : List (Nat × Nat)
  /-- firewall regions 64 to 255 it declares: base page, limit page, read mask, write mask (R309) -/
  regions : List (Nat × Nat × Nat × Nat)
  /-- LPDDR5X frames of the job: first and last granule + 1 (R445), and its save area base (R269) -/
  frames : List (Nat × Nat)
  saveArea : Nat
  /-- step rings of the attention engines, batch rings of the EGUs: base, size code, semaphore (R147, R245) -/
  aeRings : List (Nat × Nat × Nat)
  eguRings : List (Nat × Nat × Nat)
  /-- key-value tables: base and sequence base (R141) -/
  kvBase : Nat
  kvSeqBase : Nat
  /-- DSP cores of DSC0 to DSC11 that the job runs: cluster, core; their programs are in `data` (R173) -/
  cores : List (Nat × Nat)
  /-- MAX_ITER of LDPC0 to LDPC11 (R184) -/
  ldpcIter : Nat
  /-- the adaptation table (R214) -/
  adaptTensors : List AdaptTensor
  deriving DecidableEq, Repr

/-- Sequencer instruction of format A (Table 3.6). -/
structure FmtA where
  d : BitVec 4
  a : BitVec 4
  b : BitVec 4
  c : BitVec 4
  flags : BitVec 10
  deriving DecidableEq, Repr

/-- Sequencer instruction of format I. -/
structure FmtI where
  d : BitVec 4
  a : BitVec 4
  imm : BitVec 18
  deriving DecidableEq, Repr

/-- Sequencer instruction of format S; `rsv` is its reserved field. -/
structure FmtS where
  a : BitVec 4
  rsv : BitVec 7
  reg : Bool
  index : BitVec 14
  deriving DecidableEq, Repr

/-- An error of the grid during a drain: sub-pass, lane, column (128 the checksum column) and the error of its sum. -/
structure GridError where
  sub : Fin 4
  lane : Fin 4
  column : Fin 129
  delta : Int
  deriving DecidableEq, Repr

/-- Cycles that an array lost while an M row entered and drained (R64 to R66): bubbles, padding, freezes of the weight
feeder, freezes of the drain. -/
structure Stalls where
  bubbles : BitVec 16
  padding : BitVec 16
  freezeWf : BitVec 16
  freezeDr : BitVec 16
  deriving DecidableEq, Repr

/-- Fields of a vector-engine instruction (Table 5.2) beside its opcode. -/
structure VFields where
  dt : BitVec 4
  st : BitVec 4
  xd : BitVec 5
  xa : BitVec 5
  xb : BitVec 5
  xc : BitVec 5
  rnd : BitVec 4
  mod : BitVec 8
  imm : BitVec 16
  deriving DecidableEq, Repr

/-- What a slice of known-answer work came to (R327 to R336). -/
inductive SliceResult where
  /-- stopped; its result is discarded and it is retried (R312, R330) -/
  | aborted
  /-- a slice of a set, not its last -/
  | part
  /-- the last slice of set m; `onDemand`: for a KAT_RUN command -/
  | set (m : Fin 12) (passed onDemand : Bool)
  /-- step 1 of Table 13.2: some T′ ≠ C′ -/
  | repeated (reproduced : Bool)
  /-- step 2: the adjudicator's own T_r ≠ C_r; O_r ≠ O anywhere -/
  | adjudicated (own differs : Bool)
  /-- the known-answer route of R334: August, and the set of the captured pairing, failed -/
  | routed (august pairing : Bool)
  deriving DecidableEq, Repr

/-- What a part of a PRB group carries (R186, R192): coded bits of an encoder from a position on, scrambled; a PDCCH payload with
its RNTI, or a PBCH payload, and coded length, scrambled; PSS; SSS; the reference sequence of an initial value from a position on, its signs
multiplied by a cover. -/
inductive DlSource where
  | coded (enc : Fin 8) (first : Nat) (cinit : BitVec 31)
  | polar (payload : List Bool) (rnti : Option (BitVec 16)) (coded : Nat) (first : Nat) (cinit : BitVec 31)
  | pss (nid2 : Fin 3)
  | sss (nid : Fin 1008)
  | reference (cinit : BitVec 31) (first : Nat) (cover : List Bool)
  deriving DecidableEq, Repr

/-- A part of a PRB group: its resource elements `start`, `start` + `step` …, `count` of them, and the layers it lies on. -/
structure DlPart where
  source : DlSource
  start : Nat
  step : Nat
  count : Nat
  layers : BitVec 16
  deriving DecidableEq, Repr

/-- A downlink PRB group of one symbol (R192): its carrier, absolute slot, symbol and PRBs, the index of its allocation in the slot's
entry, its parts. -/
structure PrbGroup where
  carrier : Fin 8
  abs : Nat
  sym : Fin 14
  prb0 : Nat
  nprb : Nat
  alloc : Nat
  parts : List DlPart
  deriving DecidableEq, Repr

/-- A DSP core: its cluster and its number in it (R173). -/
structure CoreId where
  cluster : Fin 16
  core : Fin 4
  deriving DecidableEq, Repr

/-- Where a core meets an instruction: the instruction's address, and the taken branches of the ordinary instructions that the core has run
since the last distinctive one, each with its address and target (R176). -/
structure CoreAt where
  pc : Fin 4096
  path : List (Fin 4096 × Fin 4096)
  deriving DecidableEq, Repr

/-- TAPM's fields (Table 7.4) and the samples that the stream unit has brought to its port since the last one (R173). -/
structure TapmOp where
  ad : Fin 8
  vx : Fin 32
  vc : Fin 32
  rot : Bool
  conj : Bool
  sub : Bool
  sp : Fin 4
  rsv : BitVec 6
  arrived : List (BitVec 16 × BitVec 16)
  deriving DecidableEq, Repr

/-- A DMRS resource element of an allocation (R173, R191): its subcarrier, its port, whether its symbol is the second of a double symbol, the
reference value of a transform-precoded allocation, and the channel estimate in aligned sample units scaled by 2^hexp of its front-end
run. -/
structure DmrsRe where
  alloc : Nat
  sc : Nat
  port : Fin 12
  second : Bool
  d : BitVec 16 × BitVec 16
  h : BitVec 16 × BitVec 16
  deriving DecidableEq, Repr

/-- What a front-end run brings beside the sections (R173): where its result goes in the SSP, and the DMRS resource elements. -/
structure FrontOp where
  ssp : Nat
  hexp : Fin 32
  dmrs : List DmrsRe
  deriving DecidableEq, Repr

/-- Values of a UE's sequence and cover on a symbol, from a subcarrier on (R172). -/
structure SeqRow where
  sym : Fin 14
  sc : Nat
  vals : List (BitVec 16 × BitVec 16)
  deriving DecidableEq, Repr

/-- What a PUCCH occasion is detected with (R172, Table 7.3): format 0, the sequences of its hypotheses; format 1, those of data and DMRS, and whether it
carries two bits; formats 2 and 3 and UCI on PUSCH, the payload length; format 4, the payload length and, by symbol, the sequences of its data,
and those of its DMRS. -/
inductive PucchOp where
  | shifts (hyps : List (List SeqRow))
  | psk (data dmrs : List SeqRow) (two : Bool)
  | soft (bits : Nat)
  | spread (bits : Nat) (data : List (List SeqRow)) (dmrs : List SeqRow)
  deriving DecidableEq, Repr

/-- The LLRs of a code block before scaling (R180, R188): its number, their block exponent and 16-bit parts. -/
structure RawLlrs where
  num : Nat
  exp : BitVec 8
  parts : List (BitVec 16)
  deriving DecidableEq, Repr

/-- What the fallback receiver's run on an allocation brings: the objects that the task signals (R306). -/
structure FallbackOp where
  signals : List Nat
  deriving DecidableEq, Repr

/-- A code block to decode (R182 to R184): N_cb, and on the learned path its scale code and LLRs. -/
structure DecodeOp where
  ncb : Nat
  scale : BitVec 8
  llrs : List (BitVec 8)
  deriving DecidableEq, Repr

/-- A transport block to encode (R186): its address, size, base graph less 1, redundancy version, modulation order, layers, coded
bits and N_cb. -/
structure EncodeOp where
  dataVa : Nat
  tbs : Nat
  bg : Bool
  rv : Fin 4
  qm : Nat
  layers : Nat
  coded : Nat
  ncb : Nat
  deriving DecidableEq, Repr

/-- How a request comes back: with its data; from a host with data that are poisoned (R409); ended by a port reset, a closed window, a completion timeout; with an
uncorrectable error; recovered by the credit resynchronisation (R241, R371). -/
inductive ReqEnd where
  | ok
  | poisonedData
  | portReset
  | windowClosed
  | timeout
  | uncorrectable
  | recovered
  deriving DecidableEq, Repr


/-- A memory that scrub visits in its own order (R231): a channel of LPDDR5X, an LSP or a DSP cluster's memory, in
64 KiB banks that the command's other operand numbers, an SSP bank, the memory of a vector engine, the OAB of an array, a bank of the control
memories. -/
inductive ScrubUnit where
  | channel (c : Fin 32)
  | lsp (pa : Fin 96)
  | ssp (bank : Fin 48)
  | ve (n : Fin 24)
  | dsc (n : Fin 16)
  | oab (pa : Fin 96)
  | control (bank : Fin 8)
  deriving DecidableEq, Repr

/-- An entry offered at a crossing (R18, R19): producer island (Table 11.4), its cycle count since the beat origin when it offered, the
relative beat the job scheduled, and whether a full FIFO stalled the producer past its schedule. -/
structure CrossEntry where
  producer : Fin 160
  offer : Nat
  scheduled : Nat
  full : Bool
  deriving DecidableEq, Repr

/-- A move of K ranges by the load balancer (R107): the participants of a split reduction in order, whether the layer is in grouped
mode, whether its partial sums are compact, and whether their grouping changes. -/
structure BalanceMove where
  participants : List (Fin 96)
  grouped : Bool
  compact : Bool
  regroups : Bool
  deriving DecidableEq, Repr

/-- What an array's built-in self-test found (R75 to R77): rows bypassed, failing paths, and whether it did not complete. -/
structure BistFacts where
  rows : List (Fin 256)
  paths : BitVec 8
  incomplete : Bool
  deriving DecidableEq, Repr

/-- The sections of the birth record (Table 17.1) as they stand in the NOR, each with its CRC-32 in its last four bytes. -/
structure BirthRecord where
  header : List Byte
  trims : List Byte
  hints : List Byte
  helper : List Byte
  cert : List Byte
  deriving DecidableEq, Repr

/-- What a cold boot meets (R429 to R431, R437, R438, R75): whether the NOR responds; the birth record of a device that has not booted before (it
never changes after that); whether each evaluation of the PUF yields the secret; what the self-test finds in each array (those without an
entry pass); and the address straps as a power-on reset samples them. -/
structure BootFacts where
  norResponds : Bool
  birth : BirthRecord
  evaluations : List Bool
  arrays : List (Fin 96 × BistFacts)
  smbAddr : Fin 4
  deriving DecidableEq, Repr

/-- What the firmware sets up at its start (R309, R433 step 5, R304): firewall regions 0 to 63 as base, limit, read and write masks,
the default masks, and the base of the FFD history. -/
structure FwFacts where
  regions : List (Nat × Nat × Nat × Nat)
  defaultR : Word
  defaultW : Word
  /-- who reads the fallback partition's memories (R26): a read mask -/
  fallbackR : Word
  histBase : Nat
  /-- where the known-answer content lies, as an offset in the firmware range (R329, R444) -/
  katBase : Nat
  /-- the range of the fallback's soft buffers, from its offset in the firmware range (R182, R444) -/
  softBase : Nat
  softLen : Nat
  deriving DecidableEq, Repr

/-- What the passes of an adaptation step gave (R214): per adapted tensor, in ascending number, the FP32 weight gradients of each
participating logical array, in logical order. -/
structure GradOp where
  tensors : List (List (List Word32))
  deriving DecidableEq, Repr

/-- An Iferik header as it arrives at a port, addressed to this device (Table 14.4): source device, epoch, channel, PSN, NAK, CRQ, the
acknowledgement where ACK_V is 1, and the credits returned: CRVC, CRED. `fcs`: its FCS is good. -/
structure IlpHdr where
  port : Fin 4
  fcs : Bool
  src : BitVec 12
  epoch : BitVec 8
  vc : Fin 4
  psn : BitVec 24
  nak : Bool
  crq : Bool
  ack : Option (BitVec 24)
  crvc : Fin 4
  cred : BitVec 14
  deriving DecidableEq, Repr

/-- A REDUCE packet's own fields (Table 14.4): group slot, lane format, reduction number, chunk, tree node, RESULT; and, for a reduction that this
device has not begun, the partial sums of its own participants in logical order and the participants on each member, by device ID (R104, R382).
A row whose source is this device brings no packet: its participants present their sums. -/
structure ReduceOp where
  slot : Fin 4
  lane : Fin 4
  number : Word32
  chunk : BitVec 16
  node : BitVec 12
  result : Bool
  payload : List Byte
  own : List (List Word)
  counts : List (BitVec 12)
  deriving DecidableEq, Repr

/-- What CTRL JOIN brings (R213, R380): group ID, the joiner's job image digest, job seed, digest of the adapted tensors in force. -/
structure JoinOp where
  group : BitVec 16
  image : List Byte
  seed : Word
  tensors : List Byte
  deriving DecidableEq, Repr

/-- What the root of a group announces (R381): a membership, or that a join is refused with CHECK_MISMATCH (R213). -/
inductive GroupNews where
  | members (root : BitVec 12) (epoch : Word32) (l : List (BitVec 12))
  | refused
  deriving DecidableEq, Repr

/-- Status of a response packet (Table 14.4). -/
inductive RspStatus where
  | ok | badParam | windowClosed
  deriving DecidableEq, Repr

/-- What an ILP_CTRL_TIMEOUT ends (R375, R376, R380): the announcement of a window, the join of a group slot, the close of a path. -/
inductive CtrlWait where
  | announce (window : BitVec 12)
  | join (slot : Fin 4)
  | closePath (port : Fin 4) (peer : BitVec 12)
  deriving DecidableEq, Repr

/-- What resets a host port (R417). -/
inductive PortCause where
  | perst | linkDown | hotReset | flr
  deriving DecidableEq, Repr

/-- A link as it has come up: speed 1 to 5, lanes (Table 16.8); width 0: it is down. -/
structure LinkFound where
  speed : BitVec 3
  width : BitVec 5
  deriving DecidableEq, Repr

/-- An access through BAR2 (R408): an offset in the window, and a read of a length, or a write of bytes that may have arrived
poisoned. -/
inductive Bar2Op where
  | read (off : BitVec 37) (len : BitVec 13)
  | write (off : BitVec 37) (bytes : List Byte) (poisoned : Bool)
  deriving DecidableEq, Repr

/-- Pending or enable bits of ICN: the private bank of a target, or a word of shared sources (R420, R421). -/
inductive IcnWord where
  | priv (t : Fin 7)
  | shared (w : Fin 64)
  deriving DecidableEq, Repr

/-- A configuration-space write (R405, R406): the D-state, the completion timeout range, the BAR2 size as a power of two GiB, the MSI-X
function mask, the payload and read-request sizes of Device Control (128 bytes times 2 to the power), the AER bits to clear. -/
inductive CfgWrite where
  | dState (d3hot : Bool)
  | cplRange (value : BitVec 4)
  | bar2Size (log2GiB : Fin 8)
  | functionMask (on : Bool)
  | deviceControl (payload : Fin 3) (request : Fin 6)
  | aerClear (mask : Word32)
  deriving DecidableEq, Repr

/-- An SMBus access (R478, R479). -/
inductive SmbOp where
  | readWord (code : BitVec 8)
  | blockRead (code : BitVec 8)
  | write (code : BitVec 8)
  | alertResponse
  deriving DecidableEq, Repr

/-- The commands: the rows with operands in the order of the opcode table, then those without (the compiler of Lean bounds the
number of a constructor with fields). -/
inductive Instr where
  /-- SQ_TAIL_DOORBELL (R253): A host write of SQ_TAIL makes new entries available for fetch, or is ignored with BAD_DB when the index is beyond the ring. -/
  | sqTailDoorbell (port : Fin 2) (queue : Fin 32) (origin : Fin 64) (value : Word32)
  /-- QUEUE_CFG_WRITE (R253): A write of Q[p][q].CFG enables or disables a queue, resetting ring indices and phase on enable and keeping LOG2N while enabled. -/
  | queueCfgWrite (port : Fin 2) (queue : Fin 32) (origin : Fin 64) (value : Word32)
  /-- RQ_HEAD_WRITE (R254): The host advances RQ_HEAD, freeing places in which held reply records and held slot replies are then written. -/
  | rqHeadWrite (port : Fin 2) (queue : Fin 32) (origin : Fin 64) (value : Word32)
  /-- NOP (R259): Does nothing and is answered OK. -/
  | nop (p : Pkt)
  /-- QUERY_CAPS (R464): Returns a range of the capability block, taken from one instant, as a chain of 24-byte data records and a reply. -/
  | queryCaps (p : Pkt)
  /-- JOB_LOAD (R267): Verifies and checks a job image, installs programs, mappings, translations, season windows and objects, grants a reserve pool and returns a handle. -/
  | jobLoad (p : Pkt) (img : JobImage)
  /-- JOB_START (R267): Installs the initial season and starts every unit of a LOADED job, at once in throughput mode or at the reference beat in deterministic mode. -/
  | jobStart (p : Pkt)
  /-- JOB_PAUSE (R268): Stops every unit of a running job at its next preemption point and replies when all have stopped. -/
  | jobPause (p : Pkt)
  /-- JOB_RESUME (R270): Returns a PAUSED job to RUNNING, at once in throughput mode or at the next tick beat of its reference carrier in deterministic mode. -/
  | jobResume (p : Pkt)
  /-- JOB_KILL (R487): Ends a job at once in any state, ending its commands and streams with JOB_LOST, freeing its objects and zeroing its memories. -/
  | jobKill (p : Pkt)
  /-- JOB_SAVE (R269): Writes a paused job's live state, bindings, counts, registers, streams and season banks to its save area, zeroes SRAM and frees the compute. -/
  | jobSave (p : Pkt)
  /-- JOB_RESTORE (R269): Maps a saved job afresh onto free units, restores its saved state and makes it PAUSED and the owner of the compute. -/
  | jobRestore (p : Pkt)
  /-- STREAM_ARM (R244): Gives a stream a program and completion ring, starting a new generation at once or pending it behind the running one. -/
  | streamArm (p : Pkt)
  /-- STREAM_CANCEL (R244): Ends the descriptor in progress with a FINAL SUPERSEDED record and answers any pending arm with STALE_GENERATION. -/
  | streamCancel (p : Pkt)
  /-- MAP_PAGES (R235): The edit engine writes table entries mapping pages of the job's virtual space, refusing already mapped or out-of-range frames. -/
  | mapPages (p : Pkt)
  /-- UNMAP_PAGES (R236): Clears entries, removes their translations, records and increments the epoch, and retires the frames until the epochs clear. -/
  | unmapPages (p : Pkt)
  /-- SEQ_PAGE_EDIT_RESET (R164): Unmaps every block of a sequence, moves its frames to KV_RETIRING and clears its descriptor. -/
  | seqPageEditReset (p : Pkt)
  /-- SEQ_PAGE_EDIT_CONFIG (R164): Writes a sequence's CFG, BUDGET and DECAY and sets its per-head state to initial values, refused if any block is mapped. -/
  | seqPageEditConfig (p : Pkt)
  /-- SEQ_PAGE_EDIT_TRIM (R164): Unmaps the blocks of a head below a named block, retires their frames and advances FIRST. -/
  | seqPageEditTrim (p : Pkt)
  /-- SEQ_PAGE_EDIT_MOVE (R164): Copies a block to a free frame of the named class, remaps it and retires the old frame. -/
  | seqPageEditMove (p : Pkt)
  /-- POOL_ADD (R164): Adds a local physical range or a remote window range to the KV free list and the pool total. -/
  | poolAdd (p : Pkt)
  /-- POOL_REMOVE (R164): Unmaps any mapped frames of a range and removes the range's frames from the KV pool. -/
  | poolRemove (p : Pkt)
  /-- SEASON_STAGE (R204): Copies every season window into the staged bank, applies the candidate or record entries and sets STAGED_V. -/
  | seasonStage (p : Pkt)
  /-- SEASON_COMMIT (R207): Accepts a commit of the staged season, to take effect at the next slot tick of the reference carrier, after any digest verdict. -/
  | seasonCommit (p : Pkt)
  /-- ADAPT_STEP (R214): Runs one adaptation step: loss, backward pass, local and group gradient sums, update and install into the staged bank. -/
  | adaptStep (p : Pkt) (g : GradOp)
  /-- DIGEST_REPORT (R216): Returns the member's latest digest, season and verdict as data records. -/
  | digestReport (p : Pkt)
  /-- DIGEST_VERDICT (R217): The root forms the verdict once it holds every digest or TIMEOUT has passed, and sends it to every member. -/
  | digestVerdict (ds : List (BitVec 12 × List Byte))
  /-- DIGEST_VERDICT_RECEIVE (R218): A member receiving a verdict, or none within TIMEOUT, commits, or is expelled and leaves the group. -/
  | digestVerdictReceive (v : Option (Option (List Byte) × Bool))
  /-- WINDOW_OPEN (R376): Checks a window request, sends CTRL ANNOUNCE and opens the window on the importer's acceptance. -/
  | windowOpen (p : Pkt)
  /-- WINDOW_CLOSE (R377): Makes a window closing, sends REVOKE, discards later packets and replies when earlier packets commit and the revoke is acknowledged. -/
  | windowClose (p : Pkt)
  /-- FABRIC_JOIN (R380): Joins a reduction or adaptation group through the root, which admits members after the R213 checks. -/
  | fabricJoin (p : Pkt)
  /-- FABRIC_LEAVE (R381): Sends CTRL LEAVE to the root and replies when the root acknowledges. -/
  | fabricLeave (p : Pkt)
  /-- SYNC_INIT (R273): Sets an object's type, owner, initial value and deadline, retiring any previous semaphore count. -/
  | syncInit (p : Pkt)
  /-- SYNC_SIGNAL (R274): Signals an object from a host, satisfying waiters in arrival order, or refuses a count overflow. -/
  | syncSignal (p : Pkt)
  /-- SYNC_WAIT (R275): Waits on an object from a host up to a timeout, with a single test when the timeout is 0. -/
  | syncWait (p : Pkt)
  /-- SYNC_WAIT_TIMEOUT (R275): At its timeout a host wait is withdrawn without consuming, a barrier arrival is taken back, and the reply is DEADLINE_MISSED. -/
  | syncWaitTimeout (port : Fin 2) (queue : Fin 32) (tag : BitVec 16)
  /-- SYNC_QUERY (R259): Returns the four words of an object's SYN registers. -/
  | syncQuery (p : Pkt)
  /-- SYNC_DEADLINE (R275): A unit still waiting at its object's deadline keeps waiting while SYN.DL_MISS, LOG and in deterministic mode DET.TDC record it. -/
  | syncDeadline (a : Agent) (obj : Fin 16384)
  /-- KAT_RUN (R331): Runs the named known-answer sets on a unit and replies with a failure bit per set. -/
  | katRun (p : Pkt)
  /-- FENCE_UNIT (R338): Fences an array, checksum path or other unit as Table 13.3 allows, logging it and incrementing CAP.EPOCH for arrays. -/
  | fenceUnit (p : Pkt)
  /-- UNFENCE_UNIT (R341): Unfences a unit whose year has passed since the fence, returning it to its job's reserve pool or making it free. -/
  | unfenceUnit (p : Pkt)
  /-- LOG_READ (R347): Copies main-log or sticky-log records in SEQ order to a buffer. -/
  | logRead (p : Pkt)
  /-- SAFETY_CONFIG (R314): Reads, checks and applies the safety configuration block per carrier at the next tick, optionally locking it. -/
  | safetyConfig (p : Pkt)
  /-- FALLBACK_FORCE (R300): Sets or stops setting the FORCED bit in code blocks of the named carriers' later slots. -/
  | fallbackForce (p : Pkt)
  /-- TIME_SET (R394): Sets device time when the servo does not hold a source. -/
  | timeSet (p : Pkt)
  /-- TIME_ADJUST (R394): Steps device time by an offset and sets RATE when the servo does not hold a source. -/
  | timeAdjust (p : Pkt)
  /-- FW_LOAD (R433): Copies, checks and verifies a signed firmware image, installs Shaeth and starts the firmware. -/
  | fwLoad (p : Pkt) (f : FwFacts)
  /-- FIRMWARE_READY (R434): When Rilxitu is initialised, every array has passed a year and the fallback its self-test, BOOT.STATE becomes 4 and FW_LOAD replies OK. -/
  | firmwareReady (ok : Bool)
  /-- ATTEST (R439): Writes a signed attestation report of device state with the nonce and identity certificate. -/
  | attest (p : Pkt)
  /-- POWER_STATE_RUN (R449): Returns the device from Idle to Run, after which a full known-answer year runs on every array. -/
  | powerStateRun (p : Pkt)
  /-- POWER_STATE_IDLE (R450): Clock-gates domains 0–143 with state kept when no job runs and no carrier ticks. -/
  | powerStateIdle (p : Pkt)
  /-- POWER_STATE_RETAIN (R451): Stops fetching, puts LPDDR5X in self-refresh, switches off domains and puts the control complex into retention. -/
  | powerStateRetain (p : Pkt)
  /-- WARM_RESET (R454): POWER_STATE target 8 ends commands and jobs, stops the fallback, clears memories and returns the device to the ROM. -/
  | warmReset (p : Pkt)
  /-- SLOT_TAIL_WRITE (R261): The owning host writes SLOT[c].TAIL to publish slot configuration entries, ignored if beyond the ring. -/
  | slotTailWrite (carrier : Fin 8) (origin : Fin 64) (value : Word32)
  /-- SLOT_TICK (R390): The TSU raises a carrier's slot tick on the first REFCLK edge at or after its slot boundary. -/
  | slotTick (carrier : Fin 8)
  /-- CODE_BLOCK_RELEASE (R31): SAF releases a code block once, at the later of learned decode completion and doubt-word settling, selecting learned, fallback or not decoded. -/
  | codeBlockRelease (carrier : Fin 8) (tick : BitVec 32) (cb : Fin 2048)
  /-- SLOT_REPLY (R262): When a slot's last code block is released and its data written, its slot reply is written to the bound queue in slot order. -/
  | slotReply (carrier : Fin 8)
  /-- SUPERVISOR_WINDOW_CLOSE (R306): A supervisor's START or FINISH window closes without the expected signal and records a violation. -/
  | supervisorWindowClose (carrier : Fin 8) (tick : BitVec 32) (sup : Fin 256) (finish : Bool)
  /-- FALLBACK_SELF_TEST (R301): Shaeth runs the fallback partition's periodic self-test in its idle time each slot. -/
  | fallbackSelfTest (passed : Bool) (unit : Fin 256)
  /-- SEQ_NOP (R83): Sequencer instruction that does nothing. -/
  | seqNop (n : Fin 96) (i : FmtA)
  /-- SEQ_HALT (R83): Waits for an empty pass queue and complete drains, then sets STATUS.DONE and stops. -/
  | seqHalt (n : Fin 96) (i : FmtA)
  /-- SEQ_LDI (R83): Loads a zero-extended 16-bit immediate into a sequencer register. -/
  | seqLdi (n : Fin 96) (i : FmtI)
  /-- SEQ_LUI (R83): Loads an immediate into the upper half of a sequencer register. -/
  | seqLui (n : Fin 96) (i : FmtI)
  /-- SEQ_ADDI (R83): Adds a sign-extended immediate to a register modulo 2^32. -/
  | seqAddi (n : Fin 96) (i : FmtI)
  /-- SEQ_ADD (R83): Adds two sequencer registers modulo 2^32. -/
  | seqAdd (n : Fin 96) (i : FmtA)
  /-- SEQ_SUB (R83): Subtracts two sequencer registers modulo 2^32. -/
  | seqSub (n : Fin 96) (i : FmtA)
  /-- SEQ_JMP (R83): Branches relative to the program counter. -/
  | seqJmp (n : Fin 96) (i : FmtI)
  /-- SEQ_LOOP (R83): Decrements a register and branches while it is not zero. -/
  | seqLoop (n : Fin 96) (i : FmtI)
  /-- SEQ_BEQZ (R83): Branches when a register is zero. -/
  | seqBeqz (n : Fin 96) (i : FmtI)
  /-- SEQ_MODE (R84): Sets PMODE for later passes, zeroing the statistics record area when STATS becomes set. -/
  | seqMode (n : Fin 96) (i : FmtI)
  /-- SEQ_SCALES (R45): Points later passes at the activation and weight scales of the current K-group. -/
  | seqScales (n : Fin 96) (i : FmtA)
  /-- SEQ_WLOAD (R62): Stages a weight tile from the LSP, computes checksum slots and pushes it into the transit chain. -/
  | seqWload (n : Fin 96) (i : FmtA)
  /-- SEQ_PASS (R85): Queues a pass over activation rows into an OAB base with NEWW, ACC and DQ flags. -/
  | seqPass (n : Fin 96) (i : FmtA)
  /-- SEQ_DQCFG (R83): Loads DQ_MODE, DQ_G, DQ_H and DQ_SOUT from a 16-byte LSP record. -/
  | seqDqcfg (n : Fin 96) (i : FmtA)
  /-- SEQ_DQOUT (R83): Sets the dequant output address, stride and output-scale placement. -/
  | seqDqout (n : Fin 96) (i : FmtA)
  /-- SEQ_SPILL (R96): Spills OAB entries into a WAB range, initialising, adding or writing out and binding or releasing the region. -/
  | seqSpill (n : Fin 96) (i : FmtA)
  /-- SEQ_FENCE (R83): Waits until the pass queue is empty and all drains are complete. -/
  | seqFence (n : Fin 96) (i : FmtA)
  /-- SEQ_SIG (R87): Signals a synchronisation object through the crossing to SYN. -/
  | seqSig (n : Fin 96) (i : FmtS)
  /-- SEQ_WAIT (R87): Waits until a synchronisation object is satisfied, latching the season bank on a slot object. -/
  | seqWait (n : Fin 96) (i : FmtS)
  /-- SEQ_PPOINT (R88): Preemption point at which the sequencer stops for a pending pause or a test slice can run. -/
  | seqPpoint (n : Fin 96) (i : FmtI)
  /-- PASS_DRAIN (R61): The drain forms an M row's recombined sums, compares checksums and writes or adds them to the OAB or dequant output. -/
  | passDrain (n : Fin 96) (errors : List GridError) (stalls : Stalls)
  /-- VE_NOP (R121): Vector-engine instruction that does nothing. -/
  | veNop (n : Fin 24) (i : VFields)
  /-- VE_HALT (R121): Waits for every vector instruction and transfer, sets STATUS.DONE and stops. -/
  | veHalt (n : Fin 24) (i : VFields)
  /-- SETVL (R114): Sets VLEN to the smaller of a register and 4,096 and returns it. -/
  | setvl (n : Fin 24) (i : VFields)
  /-- LI (R121): Loads a sign-extended immediate into a scalar register. -/
  | li (n : Fin 24) (i : VFields)
  /-- VE_LUI (R121): Loads an immediate into the upper half of a scalar register. -/
  | veLui (n : Fin 24) (i : VFields)
  /-- VE_ADDI (R121): Adds a sign-extended immediate to a scalar register. -/
  | veAddi (n : Fin 24) (i : VFields)
  /-- VE_ADD (R121): Adds two scalar registers. -/
  | veAdd (n : Fin 24) (i : VFields)
  /-- VE_SUB (R121): Subtracts two scalar registers. -/
  | veSub (n : Fin 24) (i : VFields)
  /-- SHLI (R121): Shifts a scalar register left by an immediate. -/
  | shli (n : Fin 24) (i : VFields)
  /-- SHRI (R121): Shifts a scalar register logically right by an immediate. -/
  | shri (n : Fin 24) (i : VFields)
  /-- VE_JMP (R121): Branches relative to the program counter. -/
  | veJmp (n : Fin 24) (i : VFields)
  /-- VE_LOOP (R121): Decrements a scalar register and branches while not zero. -/
  | veLoop (n : Fin 24) (i : VFields)
  /-- VE_BEQZ (R121): Branches when a scalar register is zero. -/
  | veBeqz (n : Fin 24) (i : VFields)
  /-- BNEZ (R121): Branches when a scalar register is not zero. -/
  | bnez (n : Fin 24) (i : VFields)
  /-- VGET (R122): Copies bytes from a translated virtual address into the engine's memory. -/
  | vget (n : Fin 24) (i : VFields)
  /-- VPUT (R122): Copies bytes from the engine's memory to a translated virtual address. -/
  | vput (n : Fin 24) (i : VFields)
  /-- VE_TRANSFER_COMPLETE (R122): A pending VGET or VPUT completes in issue order, releasing waiting instructions. -/
  | veTransferComplete (n : Fin 24)
  /-- VWAITX (R121): Waits until every VGET and VPUT is complete. -/
  | vwaitx (n : Fin 24) (i : VFields)
  /-- VE_SIG (R123): Signals a synchronisation object from a vector engine. -/
  | veSig (n : Fin 24) (i : VFields)
  /-- VE_WAIT (R123): Waits on a synchronisation object from a vector engine. -/
  | veWait (n : Fin 24) (i : VFields)
  /-- VE_PPOINT (R124): Vector-engine preemption point. -/
  | vePpoint (n : Fin 24) (i : VFields)
  /-- VADD (R133): Elementwise addition without exceptions. -/
  | vadd (n : Fin 24) (i : VFields) (residue : Option (Fin 256))
  /-- VSUB (R133): Elementwise subtraction. -/
  | vsub (n : Fin 24) (i : VFields) (residue : Option (Fin 256))
  /-- VMUL (R133): Elementwise multiplication. -/
  | vmul (n : Fin 24) (i : VFields) (residue : Option (Fin 256))
  /-- VFMA (R133): Elementwise fused multiply-add with one rounding. -/
  | vfma (n : Fin 24) (i : VFields) (residue : Option (Fin 256))
  /-- VDIV (R133): Elementwise division with defined results for division by zero. -/
  | vdiv (n : Fin 24) (i : VFields)
  /-- VMIN (R133): Elementwise minimum. -/
  | vmin (n : Fin 24) (i : VFields)
  /-- VMAX (R133): Elementwise maximum. -/
  | vmax (n : Fin 24) (i : VFields)
  /-- VABS (R133): Elementwise absolute value, saturating. -/
  | vabs (n : Fin 24) (i : VFields)
  /-- VNEG (R133): Elementwise negation, saturating. -/
  | vneg (n : Fin 24) (i : VFields)
  /-- VSHL (R133): Elementwise saturating left shift. -/
  | vshl (n : Fin 24) (i : VFields)
  /-- VSHRA (R133): Elementwise arithmetic right shift. -/
  | vshra (n : Fin 24) (i : VFields)
  /-- VAND (R125): Elementwise bitwise AND. -/
  | vand (n : Fin 24) (i : VFields)
  /-- VOR (R125): Elementwise bitwise OR. -/
  | vor (n : Fin 24) (i : VFields)
  /-- VXOR (R125): Elementwise bitwise XOR. -/
  | vxor (n : Fin 24) (i : VFields)
  /-- VCMP (R125): Elementwise comparison producing INT8 flags. -/
  | vcmp (n : Fin 24) (i : VFields)
  /-- VSEL (R125): Elementwise selection by a flag operand. -/
  | vsel (n : Fin 24) (i : VFields)
  /-- VEXP2 (R128): Fixed-function exp2. -/
  | vexp2 (n : Fin 24) (i : VFields)
  /-- VLOG2 (R128): Fixed-function log2. -/
  | vlog2 (n : Fin 24) (i : VFields)
  /-- VRCP (R128): Fixed-function reciprocal. -/
  | vrcp (n : Fin 24) (i : VFields)
  /-- VRSQ (R128): Fixed-function reciprocal square root. -/
  | vrsq (n : Fin 24) (i : VFields)
  /-- VMOV (R125): Copies elements of any type. -/
  | vmov (n : Fin 24) (i : VFields)
  /-- VSCAN (R126): Prefix sum, min or max, optionally exclusive or segmented, each sum rounded once. -/
  | vscan (n : Fin 24) (i : VFields) (residue : Option (Fin 256))
  /-- VRED (R126): Reduces a vector to one element. -/
  | vred (n : Fin 24) (i : VFields) (residue : Option (Fin 256))
  /-- VTOPK (R127): Selects the k largest or smallest elements with their indices. -/
  | vtopk (n : Fin 24) (i : VFields)
  /-- VSOFTMAX (R128): Computes a softmax row with fixed exp2 and defined roundings. -/
  | vsoftmax (n : Fin 24) (i : VFields) (residue : Option (Fin 256))
  /-- VSTATS (R130): Turns statistics records into FP32 means and variances. -/
  | vstats (n : Fin 24) (i : VFields) (residue : Option (Fin 256))
  /-- VACCX (R129): Adds exact WAB words as 64-bit integers with 48-bit saturation. -/
  | vaccx (n : Fin 24) (i : VFields) (residue : Option (Fin 256))
  /-- VACCC (R129): Adds compact WAB words under comb. -/
  | vaccc (n : Fin 24) (i : VFields) (residue : Option (Fin 256))
  /-- VDQ (R129): De-quantises or re-quantises rows of partial sums with a record, matching the drain's bits. -/
  | vdq (n : Fin 24) (i : VFields) (residue : Option (Fin 256))
  /-- VCVT (R131): Converts between element types with optional group scales, dynamic scaling and stochastic rounding. -/
  | vcvt (n : Fin 24) (i : VFields)
  /-- TAPM (R175): One filter tap with a data move, accumulating exactly with 40-bit saturation. -/
  | tapm (n : Fin 16) (c : Fin 4) (pc : CoreAt) (i : TapmOp)
  /-- BLKRPT (R176): Repeats the following block of instructions a counted number of times. -/
  | blkrpt (n : Fin 16) (c : Fin 4) (pc : CoreAt) (cr : Bool) (cnt : BitVec 11) (len : BitVec 12)
  /-- BEXP (R177): Finds the minimum redundant sign bits of a register range into BX. -/
  | bexp (n : Fin 16) (c : Fin 4) (pc : CoreAt) (vf : Fin 32) (nm1 : Fin 16) (acc : Bool) (rsv : BitVec 14)
  /-- BNORM (R177): Shifts a register range by BX minus GUARD and adjusts the exponent register. -/
  | bnorm (n : Fin 16) (c : Fin 4) (pc : CoreAt) (vf : Fin 32) (nm1 : Fin 16) (guard : Fin 4) (ge : Fin 32) (rsv : BitVec 8)
  /-- TRANSFORM (R179): The transform accelerator computes a block-exponent FFT or DFT bit-exactly. -/
  | transform (n : CoreId) (size : Nat) (src dst : BitVec 20) (inverse : Bool) (exp : BitVec 8)
  /-- FRONT_END (R173): DSC0–DSC11 align exponents, compensate, extract allocations, estimate DMRS and write the learned input for a symbol and antenna. -/
  | frontEnd (n : Fin 12) (carrier : Fin 8) (tick : BitVec 32) (ant : Fin 64) (sym : Fin 14) (o : FrontOp)
  /-- PUCCH_DETECT (R172): Detects a PUCCH occasion by despreading and decoding, reporting DTX below the threshold. -/
  | pucchDetect (n : Fin 16) (carrier : Fin 8) (tick : BitVec 32) (alloc : Fin 255) (o : PucchOp)
  /-- FALLBACK_RECEIVE (R188): The fallback partition runs its front end and MMSE-IRC receiver on an allocation and produces LLRs. -/
  | fallbackReceive (n : Fin 4) (carrier : Fin 8) (tick : BitVec 32) (alloc : Fin 255) (o : FallbackOp)
  /-- LDPC_DECODE (R184): An LDPC decoder combines HARQ soft values and decodes a code block by layered min-sum, checking CRC. -/
  | ldpcDecode (n : Fin 16) (carrier : Fin 8) (tick : BitVec 32) (cb : Fin 2048) (o : DecodeOp)
  /-- POLAR_DECODE (R185): A polar decoder decodes UCI by CRC-aided list decoding. -/
  | polarDecode (n : Fin 4) (carrier : Fin 8) (tick : BitVec 32) (alloc : Fin 255) (bits : Nat) (llrs : List (BitVec 8))
  /-- LDPC_ENCODE (R186): An encoder attaches CRCs, segments, encodes, rate-matches and interleaves a transport block. -/
  | ldpcEncode (n : Fin 8) (o : EncodeOp)
  /-- PRECODING (R192): DSC0–DSC11 modulate and precode a downlink PRB group and FHP compresses the result. -/
  | precoding (n : Fin 12) (g : PrbGroup)
  /-- ATTENTION_STEP (R147): An attention engine takes a step descriptor, appends positions, walks the pages and writes outputs and a completion record. -/
  | attentionStep (n : Fin 8)
  /-- STREAM_COPY (R240): A COPY descriptor issues 256-byte requests in plane, row and byte order. -/
  | streamCopy (n : Fin 128)
  /-- STREAM_WAIT (R240): A WAIT descriptor holds the stream until its object is satisfied. -/
  | streamWait (n : Fin 128)
  /-- STREAM_SIG (R240): A SIG descriptor waits for earlier requests and signals its object. -/
  | streamSig (n : Fin 128)
  /-- STREAM_LOOP (R240): A LOOP descriptor jumps to TARGET COUNT times. -/
  | streamLoop (n : Fin 128)
  /-- STREAM_END (R240): An END descriptor ends the generation with a FINAL record. -/
  | streamEnd (n : Fin 128)
  /-- STREAM_FENCE (R240): A FENCE descriptor waits until every earlier request has completed. -/
  | streamFence (n : Fin 128)
  /-- SDE_REQUEST_COMPLETE (R241): A stream request's completion returns its tag, successful or failed. -/
  | sdeRequestComplete (n : Fin 128) (k : Fin 256) (e : ReqEnd)
  /-- STREAM_DEADLINE (R242): A descriptor not ended by its deadline writes a DEADLINE_MISSED record and continues or is skipped. -/
  | streamDeadline (n : Fin 128)
  /-- CR_TAIL_WRITE (R243): The consumer advances a completion ring's CR_TAIL, letting a stalled stream write its records. -/
  | crTailWrite (n : Fin 128) (origin : Fin 64) (value : Word32)
  /-- GATHER_BATCH (R245): An EGU takes a batch descriptor and gathers indexed rows into its output. -/
  | gatherBatch (n : Fin 4)
  /-- CROSSING_RELEASE (R18): A crossing releases entries to the consumer at its beat in deterministic mode or on handshake in throughput mode. -/
  | crossingRelease (consumer : Fin 160) (entries : List CrossEntry)
  /-- SCRUB (R231): Background scrub reads a line or word, corrects single errors and treats poisoned data. -/
  | scrub (unit : ScrubUnit) (bank : Fin 16)
  /-- LEDGER_CHECK (R278): Once per millisecond the device evaluates every ledger relation and forces a compute reset if one is false. -/
  | ledgerCheck (storage : Option (Fin 7))
  /-- KAT_SLICE (R330): KAT runs one slice of test work on an array or engine at a gap point or on an idle unit. -/
  | katSlice (kind : Fin 10) (inst : Fin 96) (r : SliceResult)
  /-- KAT_OVERDUE (R313): An array whose year is not done within KAT_INTERVAL raises KAT_OVERDUE and becomes doubtful. -/
  | katOverdue (pa : Fin 96)
  /-- OVERDUE_OTHER (R329): A non-array unit whose year is not done within a second is counted and logged. -/
  | overdueOther (kind : Fin 10) (inst : Fin 32)
  /-- ETH_FRAME_RECEIVE (R351): A fronthaul MAC receives an Ethernet frame and classifies it. -/
  | ethFrameReceive (fhp mac : Fin 4) (bytes : List Byte)
  /-- RX_WINDOW_CLOSE (R362): A symbol's receive window closes and FFD gives MISSING for announced sections not arrived. -/
  | rxWindowClose (carrier : Fin 8) (tick : BitVec 32) (sym : Fin 14)
  /-- FRAME_LAUNCH (R399): A queued frame is released at its launch time, or discarded when late. -/
  | frameLaunch (mac : Fin 16)
  /-- TXON_EVENT (R401): A TX_ON or PAENV edge is executed at its time, or at once when passed. -/
  | txonEvent (n : Fin 8)
  /-- ETH_LINK_CHANGE (R350): A fronthaul MAC link goes up or down. -/
  | ethLinkChange (fhp mac : Fin 4) (linkUp : Bool)
  /-- IFERIK_WRITE (R372): An accepted WRITE packet commits whole to its window or is refused. -/
  | iferikWrite (h : IlpHdr) (w : BitVec 12) (off : BitVec 40) (tag : BitVec 12) (payload : List Byte)
  /-- IFERIK_READ_REQ (R377): A READ_REQ packet is served from its window or refused. -/
  | iferikReadReq (h : IlpHdr) (w : BitVec 12) (off : BitVec 40) (tag : BitVec 12) (len : BitVec 13)
  /-- IFERIK_READ_RSP (R369): A READ_RSP completes a read request and returns its tags. -/
  | iferikReadRsp (h : IlpHdr) (tag : BitVec 12) (st : RspStatus) (payload : List Byte)
  /-- IFERIK_WRITE_RSP (R369): A WRITE_RSP completes a write and returns its tags. -/
  | iferikWriteRsp (h : IlpHdr) (tag : BitVec 12) (st : RspStatus)
  /-- IFERIK_REDUCE (R382): A REDUCE packet delivers a right operand or the tree's result for a fabric reduction. -/
  | iferikReduce (h : IlpHdr) (r : ReduceOp)
  /-- IFERIK_NOP (R368): A NOP packet carries acknowledgements and credits only. -/
  | iferikNop (h : IlpHdr)
  /-- CTRL_OPEN (R373): A path opens with a new epoch, PSNs at 0 and fresh grants. -/
  | ctrlOpen (h : IlpHdr) (grants : List (BitVec 14))
  /-- CTRL_CLOSE (R375): A path closes normally after all packets are acknowledged and committed. -/
  | ctrlClose (h : IlpHdr)
  /-- CTRL_ANNOUNCE (R376): The importer records a window announced by its owner and accepts it. -/
  | ctrlAnnounce (h : IlpHdr) (w : BitVec 12) (len : BitVec 40) (read write : Bool)
  /-- ANNOUNCE_ACCEPT (R376): The owner receives the importer's acceptance, opens the window and replies OK. -/
  | announceAccept (h : IlpHdr) (w : BitVec 12) (ok : Bool)
  /-- CTRL_REVOKE (R378): The importer marks an import closed and acknowledges. -/
  | ctrlRevoke (h : IlpHdr) (w : BitVec 12)
  /-- CTRL_JOIN (R380): The root admits a joiner, announcing the new group epoch. -/
  | ctrlJoin (h : IlpHdr) (o : JoinOp)
  /-- CTRL_LEAVE (R381): The root removes a member and announces the new group epoch. -/
  | ctrlLeave (h : IlpHdr) (group : BitVec 16)
  /-- RTO_EXPIRY (R368): No acknowledgement within RTO triggers go-back-N retransmission or, after RETRIES, a path failure. -/
  | rtoExpiry (port : Fin 4) (peer : BitVec 12)
  /-- ACK_TIMER (R368): A cumulative acknowledgement is sent at least every 2 µs. -/
  | ackTimer (port : Fin 4) (peer : BitVec 12)
  /-- CTRL_TIMEOUT (R376): An announce, join or close without an answer within ILP_CTRL_TIMEOUT fails or completes with what it has. -/
  | ctrlTimeout (wait : CtrlWait)
  /-- ILP_LINK_DOWN (R373): An Iferik Link port's link goes down and its paths fail. -/
  | ilpLinkDown (port : Fin 4)
  /-- TSU_OFFSET_WRITE (R393): A write of TSU.OFFSET drives one servo update, stepping or slewing device time. -/
  | tsuOffsetWrite (origin : Fin 64) (value : Word)
  /-- TOD_MESSAGE_RECEIVE (R403): A received time-of-day message labels the preceding PPS_IN edge or is discarded. -/
  | todMessageReceive (msg : List Byte)
  /-- PORT_RESET (R417): A PERST#, link down, hot reset or FLR resets one host port with the effects of Table 16.3. -/
  | portReset (port : Fin 2) (cause : PortCause) (link : LinkFound)
  /-- PERST_RELEASE (R417): Release of PERST# ends a port reset. -/
  | perstRelease (port : Fin 2) (link : LinkFound)
  /-- BAR2_ACCESS (R408): A host access through BAR2 reaches device memory under the firewall. -/
  | bar2Access (port : Fin 2) (op : Bar2Op)
  /-- HOST_COMPLETION (R409): A PCIe completion to a device request arrives, possibly poisoned. -/
  | hostCompletion (n : Fin 128) (k : Fin 256) (poisoned : Bool)
  /-- COMPLETION_TIMEOUT (R409): A request without completion in time counts in CPL_TIMEOUT and ends its stream. -/
  | completionTimeout (n : Fin 128) (k : Fin 256)
  /-- SEM_CLAIM (R412): A read of SEM[i].CLAIM claims a free semaphore for the reading port or sets its WANT bit. -/
  | semClaim (origin : Fin 64) (index : Fin 64) (tie : Bool)
  /-- SEM_RELEASE (R413): A write of SEM[i].CLAIM by the holder releases the semaphore. -/
  | semRelease (origin : Fin 64) (index : Fin 64) (value : Word32)
  /-- INTERRUPT_DELIVERY (R422): A ready level is delivered as MSI-X vector or interrupt input and pushed on the in-service stack. -/
  | interruptDelivery (target : Fin 7)
  /-- COALESCE_TIMEOUT (R423): A level's coalescer timer reaches TIME and makes the level ready. -/
  | coalesceTimeout (target : Fin 7) (level : Fin 16)
  /-- EOI (R424): A write of a level to EOI pops the stack and re-arms the level if bits remain pending. -/
  | eoi (target : Fin 7) (origin : Fin 64) (value : Word32)
  /-- STACK_CLR (R425): A write of STACK_CLR empties the in-service stack and clears FROZEN. -/
  | stackClr (target : Fin 7) (origin : Fin 64) (value : Word32)
  /-- SWSET (R418): A write of ICN.SWSET raises a software source. -/
  | swset (origin : Fin 64) (value : Word32)
  /-- PENDING_CLEAR (R420): A W1C write from the bit's target clears interrupt pending bits. -/
  | pendingClear (word : IcnWord) (origin : Fin 64) (value : Word)
  /-- INTERRUPT_ENABLE (R421): Enabling a source with its pending bit set counts as a latch. -/
  | interruptEnable (word : IcnWord) (origin : Fin 64) (value : Word)
  /-- ROUTE_WRITE (R419): A write of ICN.ROUTE reroutes a shared source, moving its pending bit. -/
  | routeWrite (source : Fin 2048) (origin : Fin 64) (value : Word32)
  /-- STICKY_CLR (R346): A write of 1 to LOG.CTRL.STICKY_CLR from a SEM0 holder empties the sticky log. -/
  | stickyClr (origin : Fin 64) (value : Word32)
  /-- WAKE (R452): A write of PMU.CTRL.WAKE by the SEM0 holder runs the exit from Retain to Idle. -/
  | wake (origin : Fin 64) (value : Word32) (us : BitVec 16)
  /-- FB_OFF_ARM (R316): A W1S write by a SEM0-holding port arms carriers for FB_EN to be cleared by SAFETY_CONFIG. -/
  | fbOffArm (origin : Fin 64) (value : Word32)
  /-- FW_LOCK (R324): A write of FW.LOCK locks regions 0–63 and the default masks. -/
  | fwLock (origin : Fin 64) (value : Word32)
  /-- RC_READ (R9): A read of an RC register returns its value and clears it. -/
  | rcRead (origin : Fin 64) (offset : BitVec 26) (len : BitVec 13)
  /-- LATCHING_READ (R276): A read of a ledger's first register latches the other registers of the row. -/
  | latchingRead (origin : Fin 64) (offset : BitVec 26) (len : BitVec 13)
  /-- REGISTER_WRITE (R9): A write to a register without its own row takes effect by its access type or is ignored and logged. -/
  | registerWrite (origin : Fin 64) (offset : BitVec 26) (len : BitVec 13) (value : Word)
  /-- BROWNOUT_HOLD (R311): A supply below warning freezes every array and marks code blocks BROWNOUT. -/
  | brownoutHold (sram : Bool) (mv : BitVec 10)
  /-- HOLD_END (R311): After 20 µs above warning plus 10 mV the arrays resume in staggered groups. -/
  | holdEnd (core sram : BitVec 10)
  /-- SUPPLY_RESET (R457): A supply below its reset level causes a cold reset held until it recovers. -/
  | supplyReset (sram : Bool) (mv : BitVec 10)
  /-- OVERVOLTAGE (R457): A supply above its overvoltage level for 200 ns increments SUP.OV_COUNT. -/
  | overvoltage (sram : Bool) (mv : BitVec 10)
  /-- AVS_TARGET_STEP (R458): The PMU changes the VDD_CORE target by a 5 mV step at most once per 10 ms. -/
  | avsTargetStep (raise : Bool)
  /-- THERMAL_ALARM (R477): At 115 °C the device drives THERM_N low until power-on reset. -/
  | thermalAlarm (temp : BitVec 16)
  /-- TEMP_ALERT (R478): SMB_ALERT_N goes low at 100 °C and is released below 95 °C. -/
  | tempAlert (temp : BitVec 16)
  /-- SMBUS_READ (R479): An SMBus Read Word or Block Read returns a copied status value; writes are NACKed. -/
  | smbusRead (op : SmbOp)
  /-- POWER_ON_RESET (R457): When supplies are good and REFCLK runs the device leaves power-on reset and the ROM boots. -/
  | powerOnReset (f : BootFacts)
  /-- COLD_RESET (R453): SYS_RST_N low for 1 µs, both PERST#, or a supply reset cold-resets the device. -/
  | coldReset (perst : Bool)
  /-- SAMPLE_PRELOAD (R482): TAP instruction sampling and preloading the boundary register. -/
  | samplePreload (sampled : List Bool) (preload : List Bool)
  /-- BYPASS (R482): TAP instruction selecting the bypass register, and the action of every unlisted code. -/
  | bypass (code : BitVec 8)
  /-- LOAD_BALANCER_MOVE (R107): In throughput mode the load balancer moves K ranges between participants of a split reduction, counting a regrouping of a compact reduction in DET.TDC and DET.TDC_VAL. -/
  | loadBalancerMove (m : BalanceMove)
  /-- COLD_RESET_RELEASE (R457): Release of SYS_RST_N, or recovery of both supplies above reset plus 10 mV after a supply reset, ends a cold reset and starts the ROM boot. -/
  | coldResetRelease (f : BootFacts)
  /-- PCIE_CONFIG_WRITE (R405): A host configuration-space write changes the port's D-state, Device Control 2 completion timeout range or Resizable BAR size, clearing a misaligned B2_BASE after a resize. -/
  | pcieConfigWrite (port : Fin 2) (w : CfgWrite)
  /-- MSIX_TABLE_WRITE (R422): A host write to the MSI-X table in BAR4 masks or unmasks a vector, and an unmask lets a ready level be delivered. -/
  | msixTableWrite (port : Fin 2) (vector : Fin 16) (dword : Fin 4) (value : Word32)
  /-- ILP_LINK_UP (R374): An Iferik Link port's link comes up, setting STATUS.LINK and raising its shared interrupt source without reopening paths. -/
  | ilpLinkUp (port : Fin 4)
  /-- PFC_PAUSE_FRAME (R364): A received IEEE 802.1Qbb priority flow control frame is counted in PFC_RX and pauses sending on its PCP. -/
  | pfcPauseFrame (port : Fin 4) (enable : BitVec 8) (quanta : List (BitVec 16))
  /-- REVOKE_ACKNOWLEDGE (R377): The owner receives the importer's acknowledgement of a REVOKE and, once earlier packets have committed, posts the WINDOW_CLOSE reply. -/
  | revokeAcknowledge (h : IlpHdr) (w : BitVec 12)
  /-- LEAVE_ACKNOWLEDGE (R381): A leaving member receives the root's acknowledgement of its CTRL LEAVE and the FABRIC_LEAVE reply is posted. -/
  | leaveAcknowledge (h : IlpHdr) (group : BitVec 16)
  /-- GROUP_EPOCH_ANNOUNCE (R381): A member receives the root's announcement of a new group epoch, completing a pending join and abandoning any unfinished reduction. -/
  | groupEpochAnnounce (h : IlpHdr) (group : BitVec 16) (news : GroupNews)
  /-- CLK10M_SERVO_UPDATE (R402): With SRC 2 the TSU compares CLK10M_IN cycles with elapsed time and steers RATE so that ten million cycles match one second. -/
  | clk10mServoUpdate (cycles : Word32)
  /-- COMMAND_FETCH (R255): The device fetches one 64-byte command packet from an enabled submission ring, round-robin over queues and alternating between ports, and starts its execution. -/
  | commandFetch
  /-- REFERENCE_BEAT (R283): In deterministic mode the job's units are released at the tick beat of the reference carrier and the JOB_START or JOB_RESUME reply is posted. -/
  | referenceBeat
  /-- PAUSE_DEADLINE (R268): When units have not all stopped within the declared spacing plus 100 µs, the pause is cancelled, units resume and the reply is DEADLINE_MISSED. -/
  | pauseDeadline
  /-- HELD_EDIT_APPLY (R167): An edit held while an attention engine ran a query step on the sequence is applied when that step ends. -/
  | heldEditApply
  /-- FRAME_RETIRE (R236): Once EPOCH_MIN passes the recorded epoch, retiring frames become free and the unmapping edit's reply is posted. -/
  | frameRetire
  /-- SHADOW_CHECK (R206): When the last shadow slot completes, CAL compares shadow activation growth with LIM_ACT and sets SHADOW_OK or SHADOW_FAIL. -/
  | shadowCheck
  /-- COMMIT_WITHDRAWAL (R209): A pending commit whose reference carrier raises no tick within 20 ms is withdrawn with DEADLINE_MISSED. -/
  | commitWithdrawal
  /-- CANDIDATE_BUILD (R200): When the collection window of CAL.WINDOW slots closes, CAL builds a candidate season in FP32 and sets CAND_READY. -/
  | candidateBuild
  /-- GROUP_SUM_TIMEOUT (R215): An adaptation step whose group sum does not arrive within DIGEST_CFG.TIMEOUT is abandoned with DEADLINE_MISSED. -/
  | groupSumTimeout
  /-- SRAM_ZERO_COMPLETE (R443): The zero engine finishes clearing on-chip SRAM and waiting loads and restores proceed. -/
  | sramZeroComplete
  /-- GRANULE_ZERO (R445): The background zero engine clears one pending 64 KiB LPDDR5X granule, releasing waiting writes. -/
  | granuleZero
  /-- HOLDOVER_ENTRY (R397): Without an offset for HOLD_AFTER, or on HOLD, the servo enters holdover at AVG_RATE. -/
  | holdoverEntry
  /-- RATE_SAMPLE (R397): Once per second of elapsed time the TSU records RATE in its averaging ring. -/
  | rateSample
  /-- PPS_IN_EDGE (R396): A PPS_IN rising edge is timestamped into PPS_IN_TS. -/
  | ppsInEdge
  /-- PPS_OUT_EDGE (R402): PPS_OUT rises as the nanoseconds field passes 0. -/
  | ppsOutEdge
  /-- TOD_MESSAGE_SEND (R403): A time-of-day message is sent 10 ms after each PPS_OUT edge. -/
  | todMessageSend
  /-- HOLD_ESCALATION (R311): A hold lasting 5 ms escalates to a compute reset with DETAIL 8. -/
  | holdEscalation
  /-- EXTEST (R483): TAP instruction driving pins from the boundary register while SYS_RST_N is low. -/
  | extest
  /-- IDCODE (R482): TAP instruction selecting the IDCODE register. -/
  | idcode
  /-- CLAMP (R483): TAP instruction clamping pins while SYS_RST_N is low. -/
  | clamp
  /-- HIGHZ (R483): TAP instruction placing pins in high impedance while SYS_RST_N is low. -/
  | highz
  /-- EXTEST_PULSE (R483): IEEE 1149.6 test of SerDes lanes while SYS_RST_N is low. -/
  | extestPulse
  /-- EXTEST_TRAIN (R483): IEEE 1149.6 training test of SerDes lanes while SYS_RST_N is low. -/
  | extestTrain
  /-- REFCLK_STOP (R470): REFCLK stops while the device runs, every island loses its clock, and the device stays undefined until a cold reset. -/
  | refclkStop
  /-- SUPPLY_REMOVAL (R456): The board removes the supplies and the device enters Off, losing the always-on domain with device time, the sticky log and the repair and fence maps. -/
  | supplyRemoval
  /-- TAP_RESET (R482): TRST_N low, or TMS held high on TCK, returns the TAP to Test-Logic-Reset with IDCODE selected. -/
  | tapReset
  deriving DecidableEq, Repr

end Sys2Proof
end

