-- ==== Sys2Proof/Decode.lean ====
section
/-! DEFINITION. Decoding. The device takes commands from outside and the opcode table gives no row a word of bits, so no word spells a
command (DESIGN CHOICE, log entry 1). Its units run programs, though: here the words of their program memories are decoded, a sequencer's
(Tables 3.6 and 3.7), a vector engine's (Tables 5.2 to 5.4), a DSP core's distinctive instructions (Table 7.4). -/

namespace Sys2Proof

/-- The command that a word spells by the opcode table's bits: none, as the table gives bits to no row. -/
def decodeTableWord (_ _ : Nat) : Option Instr := none

/-! ### Sequencer words (R82, R83) -/

/-- Format A of a sequencer word (Table 3.6). -/
def fmtAOf (w : Word32) : FmtA where
  d := w.extractLsb' 22 4
  a := w.extractLsb' 18 4
  b := w.extractLsb' 14 4
  c := w.extractLsb' 10 4
  flags := w.extractLsb' 0 10

/-- Format I of a sequencer word. -/
def fmtIOf (w : Word32) : FmtI where
  d := w.extractLsb' 22 4
  a := w.extractLsb' 18 4
  imm := w.extractLsb' 0 18

/-- Format S of a sequencer word. -/
def fmtSOf (w : Word32) : FmtS where
  a := w.extractLsb' 22 4
  rsv := w.extractLsb' 15 7
  reg := w.getLsbD 14
  index := w.extractLsb' 0 14

/-- The instruction that a word of array n's program memory spells; none for an opcode that Table 3.7 does not list, 0x00 among them. -/
def decodeSeq (n : Fin 96) (w : Word32) : Option Instr :=
  let a := fmtAOf w
  let i := fmtIOf w
  match (w.extractLsb' 26 6).toNat with
  | 0x01 => some (.seqNop n a)
  | 0x02 => some (.seqHalt n a)
  | 0x04 => some (.seqLdi n i)
  | 0x05 => some (.seqLui n i)
  | 0x06 => some (.seqAddi n i)
  | 0x07 => some (.seqAdd n a)
  | 0x08 => some (.seqSub n a)
  | 0x0C => some (.seqJmp n i)
  | 0x0D => some (.seqLoop n i)
  | 0x0E => some (.seqBeqz n i)
  | 0x10 => some (.seqMode n i)
  | 0x11 => some (.seqScales n a)
  | 0x12 => some (.seqWload n a)
  | 0x13 => some (.seqPass n a)
  | 0x14 => some (.seqDqcfg n a)
  | 0x15 => some (.seqDqout n a)
  | 0x16 => some (.seqSpill n a)
  | 0x18 => some (.seqFence n a)
  | 0x1C => some (.seqSig n (fmtSOf w))
  | 0x1D => some (.seqWait n (fmtSOf w))
  | 0x1E => some (.seqPpoint n i)
  | _ => none

/-! ### Vector-engine words (R119 to R125) -/

/-- The fields of a vector-engine word (Table 5.2). -/
def veFields (w : Word) : VFields where
  dt := w.extractLsb' 52 4
  st := w.extractLsb' 48 4
  xd := w.extractLsb' 43 5
  xa := w.extractLsb' 38 5
  xb := w.extractLsb' 33 5
  xc := w.extractLsb' 28 5
  rnd := w.extractLsb' 24 4
  mod := w.extractLsb' 16 8
  imm := w.extractLsb' 0 16

/-- The instruction that a word of engine n's program memory spells, by Tables 5.3 and 5.4; the lanes' residues match. -/
def decodeVe (n : Fin 24) (w : Word) : Option Instr :=
  let i := veFields w
  match (w.extractLsb' 56 8).toNat with
  | 0x01 => some (.veNop n i)
  | 0x02 => some (.veHalt n i)
  | 0x03 => some (.setvl n i)
  | 0x04 => some (.li n i)
  | 0x05 => some (.veLui n i)
  | 0x06 => some (.veAddi n i)
  | 0x07 => some (.veAdd n i)
  | 0x08 => some (.veSub n i)
  | 0x09 => some (.shli n i)
  | 0x0A => some (.shri n i)
  | 0x0C => some (.veJmp n i)
  | 0x0D => some (.veLoop n i)
  | 0x0E => some (.veBeqz n i)
  | 0x0F => some (.bnez n i)
  | 0x10 => some (.vadd n i none)
  | 0x11 => some (.vsub n i none)
  | 0x12 => some (.vmul n i none)
  | 0x13 => some (.vfma n i none)
  | 0x14 => some (.vdiv n i)
  | 0x15 => some (.vmin n i)
  | 0x16 => some (.vmax n i)
  | 0x17 => some (.vabs n i)
  | 0x18 => some (.vneg n i)
  | 0x19 => some (.vshl n i)
  | 0x1A => some (.vshra n i)
  | 0x1B => some (.vand n i)
  | 0x1C => some (.vor n i)
  | 0x1D => some (.vxor n i)
  | 0x1E => some (.vcmp n i)
  | 0x1F => some (.vsel n i)
  | 0x20 => some (.vexp2 n i)
  | 0x21 => some (.vlog2 n i)
  | 0x22 => some (.vrcp n i)
  | 0x23 => some (.vrsq n i)
  | 0x24 => some (.vmov n i)
  | 0x30 => some (.vscan n i none)
  | 0x32 => some (.vred n i none)
  | 0x34 => some (.vtopk n i)
  | 0x36 => some (.vsoftmax n i none)
  | 0x38 => some (.vstats n i none)
  | 0x3A => some (.vaccx n i none)
  | 0x3B => some (.vaccc n i none)
  | 0x3C => some (.vdq n i none)
  | 0x40 => some (.vcvt n i)
  | 0x58 => some (.vget n i)
  | 0x59 => some (.vput n i)
  | 0x5A => some (.vwaitx n i)
  | 0x5C => some (.veSig n i)
  | 0x5D => some (.veWait n i)
  | 0x5E => some (.vePpoint n i)
  | _ => none

/-! ### DSP words (R174, Table 7.4) -/

/-- The distinctive instruction that a word at address pc of core c of cluster n spells. A reserved field stays in it: not zero, it makes
the instruction illegal. No sample arrives with the word. -/
def decodeDsp (n : Fin 16) (c : Fin 4) (pc : Fin 4096) (w : Word32) : Option Instr :=
  match (w.extractLsb' 24 8).toNat with
  | 0x40 => some (.tapm n c ⟨pc, []⟩ {
      ad := (w.extractLsb' 21 3).toFin, vx := (w.extractLsb' 16 5).toFin, vc := (w.extractLsb' 11 5).toFin, rot := w.getLsbD 10,
      conj := w.getLsbD 9, sub := w.getLsbD 8, sp := Fin.ofNat 4 (w.extractLsb' 6 2).toNat, rsv := w.extractLsb' 0 6, arrived := [] })
  | 0x41 => some (.blkrpt n c ⟨pc, []⟩ (w.getLsbD 23) (w.extractLsb' 12 11) (w.extractLsb' 0 12))
  | 0x42 => some (.bexp n c ⟨pc, []⟩ (w.extractLsb' 19 5).toFin (w.extractLsb' 15 4).toFin (w.getLsbD 14) (w.extractLsb' 0 14))
  | 0x43 => some (.bnorm n c ⟨pc, []⟩ (w.extractLsb' 19 5).toFin (w.extractLsb' 15 4).toFin (Fin.ofNat 4 (w.extractLsb' 13 2).toNat)
      (w.extractLsb' 8 5).toFin (w.extractLsb' 0 8))
  | _ => none

end Sys2Proof
end

