-- ==== Sys2Proof/Config.lean ====
section
/-! DEFINITION. What an implementation fixes and the manual does not: the free values. Each is a constant without a
body, so nothing can be proved of its value (DESIGN CHOICE, log entry 2). -/

namespace Sys2Proof

/-- A value the manual leaves undefined, the n-th one taken (DESIGN CHOICE, log entry 2). -/
opaque Config.freeValue : Nat → Word

/-- The choice of the fixed function exp2 on FP32 bits (R128): the manual bounds its error and leaves its bits to Tabem's reference; what
lies outside the bound is not taken (exp2Bits). -/
opaque Config.exp2 : Word32 → Word32

/-- The choice of the fixed function log2 on FP32 bits, within its bound (R128). -/
opaque Config.log2 : Word32 → Word32

/-- The choice of the fixed function reciprocal on FP32 bits, within its bound (R128). -/
opaque Config.rcp : Word32 → Word32

/-- The choice of the fixed function reciprocal square root on FP32 bits, within its bound (R128). -/
opaque Config.rsq : Word32 → Word32

/-- Router and port by which a unit is attached to the NOC, in bits 11:3 as Table 19.2 places them: "Layout" values that the
die fixes and the manual does not give, by the offset of the unit's capability word. -/
opaque Config.layout : Nat → BitVec 9

/-- The SLH-DSA parameter sets in use (Table 17.5): SHA2-128s and SHA2-128f. -/
inductive SlhSet where
  | small
  | fast
  deriving DecidableEq, Repr

/-- SLH-DSA verification under a parameter set (Table 17.5): public key, message, signature (R433, R442). The manual names FIPS 205 and
does not restate it. -/
opaque Config.slhVerify : SlhSet → List Byte → List Byte → List Byte → Bool

/-- PK.root of an SLH-DSA-SHA2-128f key pair by SK.seed and PK.seed (R437, FIPS 205). -/
opaque Config.slhRoot : List Byte → List Byte → List Byte

/-- The 256-bit secret that the die's PUF yields with the helper data of its birth record (R437). -/
opaque Config.pufSecret : List Byte → List Byte

/-- The VDD_CORE target of the birth record's trims (Table 17.1), whose layout the manual does not give. -/
opaque Config.trimTarget : List Byte → BitVec 10

/-- The row numbers that the repair hints of the birth record give an array, at most two (R75, Table 17.1); their layout the manual does
not give. -/
opaque Config.repairHints : List Byte → Nat → List (Fin 256)

/-- The fields DU_port, BandSector and CC_ID of a carrier's eAxC IDs (R354), as one number above RU_port: the manual gives their
widths and not their values. -/
opaque Config.eaxcUpper : Nat → Nat

/-- The radices of the transform accelerator's stages for a size, the stage over the whole transform first (R179): the manual leaves their
order to Tabem's bit-exact model. -/
opaque Config.fftPlan : Nat → List Nat

/-- Whether the stages decimate in time or in frequency (R179), which the manual leaves to the same model. -/
opaque Config.fftInTime : Bool

/-- Polar decoding (R185): list size, information bits without CRC, code length N, LLRs; the bits with their CRC. The manual names the
algorithm and not its arithmetic. -/
opaque Config.polarDecode : Nat → Nat → Nat → List Int → List Bool

/-- The 1,024 positions in ascending reliability (TS 38.212 table 5.3.1.2-1), which polar encoding takes its information positions from
(R186). -/
opaque Config.polarOrder : List Nat

/-- The order of the 32 sub-blocks (TS 38.212 table 5.4.1.1-1). -/
opaque Config.polarBlocks : List Nat

/-- The interleaving of k information bits (TS 38.212 clause 5.3.1.1): where each comes from. -/
opaque Config.polarMix : Nat → List Nat

/-- Reed–Muller decoding of 3 to 11 bits (R172). -/
opaque Config.reedMuller : Nat → List Int → List Bool

/-- A base graph at a lifting size (R184): the rows of TS 38.212 table 5.3.2-2 or 5.3.2-3, each with its columns and shifts. -/
opaque Config.baseGraph : Nat → Nat → List (List (Nat × Nat))

/-- What a receive program reads of a slot (R187, R189): its instruction memories, the layer set of SAFETY_CONFIG, frame and slot number, the
allocation, and by antenna and symbol the samples of the antennas it uses, in units of 2^-8. -/
structure RxInput where
  program : List (Nat × Byte)
  layers : List Nat
  sfn : Nat
  slot : Nat
  alloc : List Nat
  samples : List (Nat × Nat × List (Nat × (Int × Int)))
  deriving DecidableEq, Repr

/-- The classical receiver of R188 on a PUSCH allocation, whose rounding is its program's: the LLRs of its code blocks. -/
opaque Config.receivedLlrs : RxInput → List RawLlrs

/-- Its post-equalisation SINR (R191): sum and number over the data elements. -/
opaque Config.receivedSinr : RxInput → Nat × Nat

/-- Its error vectors (R191): the sums of |z − d|² and of |d|². -/
opaque Config.receivedEvm : RxInput → Nat × Nat

/-- The preambles that the program finds in a PRACH allocation (R187): number, delay, energy. -/
opaque Config.receivedPrach : RxInput → List (Nat × Nat × Nat)

/-- The soft bits that a program makes of PUCCH formats 2 and 3 or of UCI on PUSCH (R172, Table 7.3). -/
opaque Config.softBits : RxInput → Nat → List Int

/-- The soft bits of the despread symbols of PUCCH format 4 (R172). -/
opaque Config.spreadBits : List (Int × Int) → List Int

/-- The Beyvor root hash that the ROM compares SHA-256 of a firmware key with (R433). -/
opaque Config.rootHash : List Byte

/-- The memory word that is disturbed at an edge of REFCLK, and whether two of its bits are bad (R226, R227): what comes from outside. -/
opaque Config.upset : Nat → Option (Nat × Bool)

/-- The identity signature of a message, SLH-DSA-SHA2-128f, under an identity secret key (R437, R439). -/
opaque Config.slhSign : List Byte → List Byte → List Byte

end Sys2Proof
end

