-- ==== Sys2Proof/Machine/RegMap.lean ====
section
/-! DEFINITION. The control-space register tables of the manual (R8, R461), one row per register family: its offset,
its index strides, its width and its fields with bits, access type (R9) and value after power-on and cold reset.
The rows follow Tables 2.7, 3.9, 4.5, 5.10, 6.8, 6.9, 7.12, 7.13, 8.8, 8.9, 9.15 to 9.19, 10.13, 10.14, 11.6, 12.9
to 12.11, 13.8, 13.9, 14.7 to 14.10, 15.1, 16.6 to 16.8, 17.10, 18.9 and 18.10. -/

namespace Sys2Proof.Machine

/-- Access types of a register field (R9, Table 0.6). -/
inductive Acc where
  | ro | rw | w1c | w1s | wo | rc | rwl
  deriving DecidableEq, Repr

/-- One field of a register table: bits hi:lo, access type, value after power-on and cold reset (R8). -/
structure RegField where
  hi : Nat
  lo : Nat
  acc : Acc
  rst : Nat
  deriving DecidableEq, Repr

/-- One register family: its first offset, its (stride, count) index dimensions, outermost first, whether it is 64 bits
wide, and its fields. Bits in no field are reserved (R10). -/
structure RegFam where
  base : Nat
  dims : List (Nat × Nat)
  wide : Bool
  fields : List RegField
  deriving DecidableEq, Repr

/-- A field of one named register: the register's control-space offset and the field's bits. -/
structure Fld where
  off : Nat
  hi : Nat
  lo : Nat
  deriving DecidableEq, Repr

/-- The register families of one block, with the names the manual gives them. -/
def regsSem : List RegFam :=
  [ ⟨0x10000, [(0x4, 64)], false, [⟨31, 31, .ro, 0⟩, ⟨30, 30, .ro, 0⟩, ⟨1, 0, .ro, 0⟩]⟩  -- SEM_CLAIM
  , ⟨0x10100, [], true, [⟨63, 0, .ro, 0⟩]⟩  -- SEM_HELD_HP0
  , ⟨0x10108, [], true, [⟨63, 0, .ro, 0⟩]⟩  -- SEM_HELD_HP1
  , ⟨0x10110, [], true, [⟨63, 0, .ro, 0⟩]⟩  -- SEM_WANT_HP0
  , ⟨0x10118, [], true, [⟨63, 0, .ro, 0⟩]⟩  -- SEM_WANT_HP1
  , ⟨0x10120, [], true, [⟨63, 0, .ro, 0⟩]⟩  -- SEM_TIE
  , ⟨0x10140, [], false, [⟨31, 0, .rc, 0⟩]⟩  -- SEM_CLAIMS
  , ⟨0x10144, [], false, [⟨31, 0, .rc, 0⟩]⟩  -- SEM_TIES
  , ⟨0x10148, [], false, [⟨31, 0, .rc, 0⟩]⟩  -- SEM_RESET_RELEASES
  ]

/-- The register families of one block, with the names the manual gives them. -/
def regsQueue : List RegFam :=
  [ ⟨0x20000, [(0x4000, 2), (0x100, 32)], true, [⟨63, 6, .rw, 0⟩]⟩  -- Q_SQ_BASE
  , ⟨0x20008, [(0x4000, 2), (0x100, 32)], true, [⟨63, 6, .rw, 0⟩]⟩  -- Q_RQ_BASE
  , ⟨0x20010, [(0x4000, 2), (0x100, 32)], false, [⟨31, 31, .rw, 0⟩, ⟨3, 0, .rw, 4⟩]⟩  -- Q_CFG
  , ⟨0x20014, [(0x4000, 2), (0x100, 32)], false, [⟨11, 0, .rw, 0⟩]⟩  -- Q_SQ_TAIL
  , ⟨0x20018, [(0x4000, 2), (0x100, 32)], false, [⟨11, 0, .ro, 0⟩]⟩  -- Q_SQ_HEAD
  , ⟨0x2001c, [(0x4000, 2), (0x100, 32)], false, [⟨11, 0, .rw, 0⟩]⟩  -- Q_RQ_HEAD
  , ⟨0x20020, [(0x4000, 2), (0x100, 32)], false, [⟨31, 31, .ro, 1⟩, ⟨11, 0, .ro, 0⟩]⟩  -- Q_RQ_TAIL
  , ⟨0x20024, [(0x4000, 2), (0x100, 32)], false, [⟨2, 2, .ro, 1⟩, ⟨1, 1, .ro, 0⟩, ⟨0, 0, .w1c, 0⟩]⟩  -- Q_STATUS
  , ⟨0x20028, [(0x4000, 2), (0x100, 32)], false, [⟨10, 0, .ro, 0⟩]⟩  -- Q_IN_FLIGHT
  , ⟨0x2002c, [(0x4000, 2), (0x100, 32)], false, [⟨31, 0, .ro, 0⟩]⟩  -- Q_FETCHED
  , ⟨0x20030, [(0x4000, 2), (0x100, 32)], false, [⟨31, 0, .ro, 0⟩]⟩  -- Q_REPLIED
  , ⟨0x22000, [(0x4000, 2)], false, [⟨26, 16, .ro, 0⟩, ⟨10, 0, .ro, 0x400⟩]⟩  -- PORT_CMD
  , ⟨0x22004, [(0x4000, 2)], false, [⟨31, 0, .rc, 0⟩]⟩  -- PORT_QFULL
  , ⟨0x22008, [(0x4000, 2)], false, [⟨31, 0, .rc, 0⟩]⟩  -- PORT_RESET_ENDED
  , ⟨0x22010, [(0x4000, 2)], true, [⟨39, 30, .rw, 0⟩]⟩  -- PORT_B2_BASE
  , ⟨0x22018, [(0x4000, 2)], false, [⟨31, 31, .ro, 0⟩, ⟨27, 24, .ro, 0⟩, ⟨20, 16, .ro, 0⟩]⟩  -- PORT_LINK
  , ⟨0x2201c, [(0x4000, 2)], false, [⟨31, 0, .rc, 0⟩]⟩  -- PORT_CPL_TIMEOUT
  , ⟨0x22020, [(0x4000, 2)], false, [⟨31, 0, .rc, 0⟩]⟩  -- PORT_RX_POISONED
  , ⟨0x22024, [(0x4000, 2)], false, [⟨31, 0, .rc, 0⟩]⟩  -- PORT_UR_SENT
  , ⟨0x22028, [(0x4000, 2)], false, [⟨31, 0, .rc, 0⟩]⟩  -- PORT_PORT_RESETS
  , ⟨0x2202c, [(0x4000, 2)], false, [⟨2, 0, .ro, 0⟩]⟩  -- PORT_RESET_CAUSE
  , ⟨0x28000, [], false, [⟨31, 31, .ro, 0⟩, ⟨30, 30, .ro, 0⟩, ⟨7, 0, .ro, 0⟩]⟩  -- COMPUTE
  , ⟨0x28004, [], false, [⟨31, 0, .rc, 0⟩]⟩  -- COMPUTE_RESETS
  , ⟨0x28008, [], false, [⟨7, 0, .ro, 0⟩]⟩  -- LAST_CAUSE
  , ⟨0x28100, [(0x4, 9)], false, [⟨31, 31, .ro, 0⟩, ⟨26, 24, .ro, 0⟩, ⟨20, 20, .ro, 0⟩, ⟨7, 0, .ro, 0⟩]⟩  -- JOB
  , ⟨0x28200, [], false, [⟨18, 18, .ro, 0⟩, ⟨17, 17, .ro, 0⟩, ⟨16, 16, .ro, 0⟩, ⟨11, 8, .ro, 0⟩, ⟨2, 0, .ro, 0⟩]⟩  -- BOOT_STATE
  , ⟨0x28204, [], false, [⟨31, 0, .ro, 0⟩]⟩  -- BOOT_FW_SVN
  , ⟨0x28208, [], false, [⟨31, 0, .ro, 0⟩]⟩  -- BOOT_FW_VERSION
  , ⟨0x2820c, [], false, [⟨31, 0, .rc, 0⟩]⟩  -- BOOT_FW_AUTH_FAIL
  , ⟨0x28210, [], false, [⟨31, 0, .rc, 0⟩]⟩  -- BOOT_JOB_AUTH_FAIL
  , ⟨0x28214, [], false, [⟨16, 16, .ro, 0⟩, ⟨4, 0, .ro, 0⟩]⟩  -- BOOT_KEYS
  , ⟨0x28218, [], false, [⟨31, 31, .ro, 0⟩, ⟨20, 0, .ro, 0⟩]⟩  -- BOOT_ZERO
  , ⟨0x2821c, [], false, [⟨31, 0, .rc, 0⟩]⟩  -- BOOT_ZERO_BLOCKED
  , ⟨0x28220, [], true, [⟨63, 0, .ro, 0⟩]⟩  -- BOOT_SERIAL
  , ⟨0x28240, [(0x4, 8)], false, [⟨31, 0, .ro, 0⟩]⟩  -- BOOT_FW_DIGEST
  , ⟨0x2c000, [(0x100, 8)], true, [⟨39, 14, .ro, 0⟩, ⟨3, 0, .ro, 0⟩]⟩  -- SLOT_RING
  , ⟨0x2c008, [(0x100, 8)], false, [⟨5, 0, .rw, 0⟩]⟩  -- SLOT_TAIL
  , ⟨0x2c00c, [(0x100, 8)], false, [⟨5, 0, .ro, 0⟩]⟩  -- SLOT_HEAD
  , ⟨0x2c010, [(0x100, 8)], false, [⟨5, 0, .ro, 0⟩]⟩  -- SLOT_DONE
  , ⟨0x2c014, [(0x100, 8)], false, [⟨8, 2, .ro, 0⟩, ⟨1, 0, .ro, 0⟩]⟩  -- SLOT_STATE
  , ⟨0x2c018, [(0x100, 8)], false, [⟨6, 0, .ro, 0⟩]⟩  -- SLOT_ACTIVE
  , ⟨0x2c01c, [(0x100, 8)], false, [⟨31, 0, .ro, 0⟩]⟩  -- SLOT_CONSUMED
  , ⟨0x2c020, [(0x100, 8)], false, [⟨31, 0, .ro, 0⟩]⟩  -- SLOT_REPLIED
  , ⟨0x2c024, [(0x100, 8)], false, [⟨31, 0, .rc, 0⟩]⟩  -- SLOT_LATE
  , ⟨0x2c028, [(0x100, 8)], false, [⟨31, 0, .rc, 0⟩]⟩  -- SLOT_NOCFG
  , ⟨0x2c02c, [(0x100, 8)], false, [⟨31, 0, .rc, 0⟩]⟩  -- SLOT_STALE
  ]

/-- The register families of one block, with the names the manual gives them. -/
def regsIcn : List RegFam :=
  [ ⟨0x40000, [(0x400, 7)], false, [⟨1, 1, .wo, 0⟩, ⟨0, 0, .rw, 0⟩]⟩  -- TGT_CTRL
  , ⟨0x40004, [(0x400, 7)], false, [⟨16, 16, .ro, 0⟩, ⟨11, 8, .ro, 0⟩, ⟨4, 0, .ro, 0⟩]⟩  -- TGT_STATUS
  , ⟨0x40008, [(0x400, 7)], false, [⟨3, 0, .wo, 0⟩]⟩  -- TGT_EOI
  , ⟨0x40010, [(0x400, 7)], true, [⟨63, 0, .ro, 0⟩]⟩  -- TGT_STACK
  , ⟨0x40018, [(0x400, 7)], true, [⟨63, 0, .w1c, 0⟩]⟩  -- TGT_PRIV_PEND
  , ⟨0x40020, [(0x400, 7)], true, [⟨63, 0, .rw, 0⟩]⟩  -- TGT_PRIV_EN
  , ⟨0x40028, [(0x400, 7)], true, [⟨63, 0, .ro, 0⟩]⟩  -- TGT_SH_SUM
  , ⟨0x40040, [(0x400, 7), (0x4, 8)], false, [⟨31, 0, .rw, 0⟩]⟩  -- TGT_PRIV_LEVEL
  , ⟨0x40080, [(0x400, 7), (0x4, 16)], false, [⟨28, 16, .rw, 1⟩, ⟨15, 0, .rw, 1⟩]⟩  -- TGT_COAL
  , ⟨0x400c0, [(0x400, 7)], false, [⟨31, 0, .rc, 0⟩]⟩  -- TGT_DELIVERED
  , ⟨0x400c4, [(0x400, 7)], false, [⟨31, 0, .rc, 0⟩]⟩  -- TGT_MERGED
  , ⟨0x400c8, [(0x400, 7)], false, [⟨31, 0, .rc, 0⟩]⟩  -- TGT_STACK_ORDER
  , ⟨0x44000, [(0x4, 64)], false, [⟨31, 0, .w1c, 0⟩]⟩  -- ICN_SH_PEND
  , ⟨0x44100, [(0x4, 64)], false, [⟨31, 0, .rw, 0⟩]⟩  -- ICN_SH_EN
  , ⟨0x44200, [], false, [⟨10, 0, .wo, 0⟩]⟩  -- ICN_SWSET
  , ⟨0x48000, [(0x4, 2048)], false, [⟨6, 4, .rw, 3⟩, ⟨3, 0, .rw, 0⟩]⟩  -- ICN_ROUTE
  ]

/-- The register families of one block, with the names the manual gives them. -/
def regsSyn : List RegFam :=
  [ ⟨0x80000, [], true, [⟨63, 0, .ro, 0⟩]⟩  -- SYN_INIT_TOTAL
  , ⟨0x80008, [], true, [⟨63, 0, .ro, 0⟩]⟩  -- SYN_SIG_TOTAL
  , ⟨0x80010, [], true, [⟨63, 0, .ro, 0⟩]⟩  -- SYN_TAKE_TOTAL
  , ⟨0x80018, [], true, [⟨63, 0, .ro, 0⟩]⟩  -- SYN_RETIRED_TOTAL
  , ⟨0x80020, [], true, [⟨63, 0, .ro, 0⟩]⟩  -- SYN_COUNT_SUM
  , ⟨0x80040, [], false, [⟨31, 0, .rc, 0⟩]⟩  -- SYN_DL_MISS
  , ⟨0x80044, [], false, [⟨31, 0, .rc, 0⟩]⟩  -- SYN_SIG_REFUSED
  , ⟨0xc0000, [(0x10, 16384)], false, [⟨31, 30, .ro, 0⟩, ⟨29, 20, .ro, 0⟩]⟩  -- SYN_OBJ_W0
  , ⟨0xc0004, [(0x10, 16384)], false, [⟨23, 0, .ro, 0⟩]⟩  -- SYN_OBJ_W1
  , ⟨0xc0008, [(0x10, 16384)], false, [⟨31, 16, .ro, 0⟩, ⟨12, 0, .ro, 0⟩]⟩  -- SYN_OBJ_W2
  , ⟨0xc000c, [(0x10, 16384)], false, [⟨26, 0, .ro, 0⟩]⟩  -- SYN_OBJ_W3
  ]

/-- The register families of one block, with the names the manual gives them. -/
def regsTsu : List RegFam :=
  [ ⟨0x100000, [], false, [⟨4, 4, .rw, 0⟩, ⟨3, 2, .rw, 0⟩, ⟨1, 1, .rw, 1⟩, ⟨0, 0, .rw, 0⟩]⟩  -- TSU_CTRL
  , ⟨0x100004, [], false, [⟨4, 4, .ro, 0⟩, ⟨3, 3, .ro, 0⟩, ⟨2, 2, .ro, 0⟩, ⟨1, 0, .ro, 0⟩]⟩  -- TSU_STATUS
  , ⟨0x100008, [], true, [⟨47, 0, .ro, 0⟩]⟩  -- TSU_TIME_SEC
  , ⟨0x100010, [], false, [⟨29, 0, .ro, 0⟩]⟩  -- TSU_TIME_NS
  , ⟨0x100014, [], false, [⟨15, 0, .ro, 0⟩]⟩  -- TSU_TIME_FRAC
  , ⟨0x100018, [], true, [⟨63, 0, .ro, 0⟩]⟩  -- TSU_ELAPSED
  , ⟨0x100020, [], false, [⟨31, 0, .ro, 0⟩]⟩  -- TSU_RATE
  , ⟨0x100024, [], false, [⟨31, 0, .ro, 0⟩]⟩  -- TSU_AVG_RATE
  , ⟨0x100028, [], false, [⟨31, 0, .rw, 0x68db9⟩]⟩  -- TSU_RATE_MAX
  , ⟨0x10002c, [], false, [⟨31, 0, .rw, 0x3f000000⟩]⟩  -- TSU_KP
  , ⟨0x100030, [], false, [⟨31, 0, .rw, 0x3ca3d70a⟩]⟩  -- TSU_KI
  , ⟨0x100034, [], false, [⟨31, 0, .rw, 0x3e8⟩]⟩  -- TSU_STEP_THRESH
  , ⟨0x100038, [], false, [⟨31, 0, .rw, 0x32⟩]⟩  -- TSU_LOCK_THRESH
  , ⟨0x10003c, [], false, [⟨15, 0, .rw, 0x7d0⟩]⟩  -- TSU_HOLD_AFTER
  , ⟨0x100040, [], true, [⟨63, 0, .wo, 0⟩]⟩  -- TSU_OFFSET
  , ⟨0x100048, [], true, [⟨63, 0, .ro, 0⟩]⟩  -- TSU_PPS_IN_TS
  , ⟨0x100050, [], false, [⟨16, 16, .rw, 0⟩, ⟨15, 0, .rw, 0x64⟩]⟩  -- TSU_PPS_CFG
  , ⟨0x100054, [], false, [⟨31, 16, .rw, 0x25⟩, ⟨15, 8, .rw, 0xf8⟩, ⟨4, 4, .rw, 0⟩, ⟨3, 3, .rw, 0⟩, ⟨2, 0, .rw, 4⟩]⟩  -- TSU_TOD_CFG
  , ⟨0x100058, [], false, [⟨4, 4, .rw, 0⟩, ⟨3, 0, .rw, 0⟩]⟩  -- TSU_SYNCE
  , ⟨0x100060, [(0x8, 8)], false, [⟨31, 8, .rw, 0⟩, ⟨4, 4, .rw, 0⟩, ⟨3, 1, .rw, 1⟩, ⟨0, 0, .rw, 0⟩]⟩  -- TSU_CAR
  , ⟨0x1000a0, [(0x4, 8)], false, [⟨27, 16, .rw, 0⟩, ⟨15, 4, .rw, 0⟩, ⟨3, 1, .rw, 0⟩, ⟨0, 0, .rw, 0⟩]⟩  -- TSU_TXON
  , ⟨0x1000c0, [(0x4, 16)], false, [⟨31, 0, .rw, 0⟩]⟩  -- TSU_ASYM
  , ⟨0x100100, [], false, [⟨31, 0, .rc, 0⟩]⟩  -- TSU_LATE_LAUNCH
  , ⟨0x100104, [], false, [⟨31, 0, .rc, 0⟩]⟩  -- TSU_SHORT_LEAD
  , ⟨0x100108, [], false, [⟨31, 0, .rc, 0⟩]⟩  -- TSU_TICK_SKIPPED
  , ⟨0x10010c, [], false, [⟨31, 0, .rc, 0⟩]⟩  -- TSU_STEPS
  , ⟨0x100110, [], false, [⟨31, 0, .rc, 0⟩]⟩  -- TSU_HOLDOVERS
  , ⟨0x100114, [], false, [⟨31, 0, .rc, 0⟩]⟩  -- TSU_TXON_LATE
  , ⟨0x100118, [], false, [⟨31, 0, .rc, 0⟩]⟩  -- TSU_TOD_BAD
  , ⟨0x100140, [(0x4, 16)], false, [⟨11, 0, .ro, 0⟩]⟩  -- TSU_LQ
  ]

/-- The register families of one block, with the names the manual gives them. -/
def regsSaf : List RegFam :=
  [ ⟨0x110000, [], false, [⟨23, 16, .ro, 0⟩, ⟨15, 8, .ro, 0⟩, ⟨2, 2, .ro, 1⟩, ⟨1, 1, .ro, 0⟩, ⟨0, 0, .ro, 0⟩]⟩  -- SAF_STATUS
  , ⟨0x110004, [], false, [⟨31, 0, .ro, 0⟩]⟩  -- SAF_CFG_CRC
  , ⟨0x110008, [(0x4, 3)], false, [⟨31, 0, .ro, 0⟩]⟩  -- SAF_ARRAY_DOUBT
  , ⟨0x110014, [], false, [⟨15, 8, .ro, 0⟩, ⟨7, 0, .ro, 0⟩]⟩  -- SAF_FB_FAULT
  , ⟨0x110018, [], false, [⟨16, 0, .ro, 0⟩]⟩  -- SAF_CB_IN_USE
  , ⟨0x11001c, [], false, [⟨15, 8, .ro, 0⟩, ⟨2, 0, .ro, 0⟩]⟩  -- SAF_SUP_LAST
  , ⟨0x110020, [], false, [⟨31, 0, .rc, 0⟩]⟩  -- SAF_TAKEOVER_MAX
  , ⟨0x110024, [], false, [⟨7, 0, .w1s, 0⟩]⟩  -- SAF_FB_OFF_ARM
  , ⟨0x110040, [(0x4, 13)], false, [⟨31, 0, .rc, 0⟩]⟩  -- SAF_DOUBT_CNT
  , ⟨0x110080, [], false, [⟨31, 0, .rc, 0⟩]⟩  -- SAF_LEARNED_REL
  , ⟨0x110084, [], false, [⟨31, 0, .rc, 0⟩]⟩  -- SAF_FB_REL
  , ⟨0x110088, [], false, [⟨31, 0, .rc, 0⟩]⟩  -- SAF_NOT_DECODED
  , ⟨0x11008c, [], false, [⟨31, 0, .rc, 0⟩]⟩  -- SAF_LATE_DISCARD
  , ⟨0x110090, [], false, [⟨31, 0, .rc, 0⟩]⟩  -- SAF_SUP_VIOL
  , ⟨0x110094, [], false, [⟨31, 0, .rc, 0⟩]⟩  -- SAF_FB_FAULTS
  ]

/-- The register families of one block, with the names the manual gives them. -/
def regsFfd : List RegFam :=
  [ ⟨0x120000, [], false, [⟨1, 1, .ro, 0⟩, ⟨0, 0, .ro, 0⟩]⟩  -- FFD_STATUS
  , ⟨0x120008, [], true, [⟨39, 12, .ro, 0⟩]⟩  -- FFD_HIST_BASE
  , ⟨0x120010, [], false, [⟨20, 0, .ro, 0⟩]⟩  -- FFD_KEYS
  , ⟨0x120014, [], false, [⟨31, 0, .rc, 0⟩]⟩  -- FFD_KEY_FULL
  , ⟨0x120040, [], false, [⟨31, 0, .rc, 0⟩]⟩  -- FFD_SECTIONS
  , ⟨0x120044, [], false, [⟨31, 0, .rc, 0⟩]⟩  -- FFD_FROZEN
  , ⟨0x120048, [], false, [⟨31, 0, .rc, 0⟩]⟩  -- FFD_CONSTANT
  , ⟨0x12004c, [], false, [⟨31, 0, .rc, 0⟩]⟩  -- FFD_SEQ_ERR
  , ⟨0x120050, [], false, [⟨31, 0, .rc, 0⟩]⟩  -- FFD_MISSING
  , ⟨0x120054, [], false, [⟨31, 28, .ro, 0⟩, ⟨27, 26, .ro, 0⟩, ⟨25, 22, .ro, 0⟩, ⟨15, 0, .ro, 0⟩]⟩  -- FFD_LAST
  ]

/-- The register families of one block, with the names the manual gives them. -/
def regsKat : List RegFam :=
  [ ⟨0x130000, [], false, [⟨8, 8, .ro, 0⟩, ⟨4, 0, .ro, 0⟩]⟩  -- KAT_STATUS
  , ⟨0x130004, [(0x4, 3)], false, [⟨31, 0, .ro, 0⟩]⟩  -- KAT_FENCED
  , ⟨0x130010, [], false, [⟨23, 0, .ro, 0⟩]⟩  -- KAT_FENCED_VE
  , ⟨0x130014, [], false, [⟨7, 0, .ro, 0⟩, ⟨19, 8, .ro, 0⟩, ⟨31, 20, .ro, 0⟩]⟩  -- KAT_FENCED_OTHER
  , ⟨0x130040, [], false, [⟨31, 0, .rc, 0⟩]⟩  -- KAT_TRANSIENT
  , ⟨0x130044, [], false, [⟨31, 0, .rc, 0⟩]⟩  -- KAT_CHECKER_FAULTS
  , ⟨0x130048, [], false, [⟨31, 0, .rc, 0⟩]⟩  -- KAT_ARRAY_FAULTS
  , ⟨0x13004c, [], false, [⟨31, 0, .rc, 0⟩]⟩  -- KAT_SLICES
  , ⟨0x130050, [], false, [⟨31, 0, .rc, 0⟩]⟩  -- KAT_SLICES_ABORTED
  , ⟨0x130054, [], false, [⟨31, 0, .rc, 0⟩]⟩  -- KAT_OVERDUE_OTHER
  , ⟨0x130100, [(0x4, 96)], false, [⟨20, 20, .ro, 0⟩, ⟨19, 19, .ro, 0⟩, ⟨18, 18, .ro, 0⟩, ⟨17, 17, .ro, 0⟩, ⟨11, 0, .ro, 0⟩]⟩  -- KAT_ARRAY
  , ⟨0x130300, [(0x4, 24)], false, [⟨20, 20, .ro, 0⟩, ⟨19, 19, .ro, 0⟩, ⟨11, 0, .ro, 0⟩]⟩  -- KAT_VE
  ]

/-- The register families of one block, with the names the manual gives them. -/
def regsCal : List RegFam :=
  [ ⟨0x140000, [], false, [⟨2, 0, .rw, 0⟩]⟩  -- CAL_CTRL
  , ⟨0x140004, [], false, [⟨6, 6, .ro, 0⟩, ⟨5, 5, .ro, 0⟩, ⟨4, 4, .ro, 0⟩, ⟨3, 3, .ro, 0⟩, ⟨2, 2, .ro, 0⟩, ⟨1, 1, .ro, 0⟩, ⟨0, 0, .ro, 0⟩]⟩  -- CAL_STATUS
  , ⟨0x140008, [], false, [⟨31, 0, .ro, 0⟩]⟩  -- CAL_SEASON
  , ⟨0x14000c, [], false, [⟨31, 0, .ro, 0⟩]⟩  -- CAL_STAGED
  , ⟨0x140010, [], false, [⟨9, 0, .rw, 0x10⟩]⟩  -- CAL_WINDOW
  , ⟨0x140014, [], false, [⟨31, 0, .rw, 0x40800000⟩]⟩  -- CAL_KSIG
  , ⟨0x140018, [], false, [⟨3, 0, .rw, 2⟩]⟩  -- CAL_SHADOW_MIN
  , ⟨0x14001c, [], false, [⟨7, 0, .ro, 0⟩]⟩  -- CAL_RANGE
  , ⟨0x140020, [], false, [⟨7, 0, .ro, 4⟩]⟩  -- CAL_RANGE_CLEAR
  , ⟨0x140024, [], false, [⟨15, 0, .ro, 0x800⟩]⟩  -- CAL_LIM_DC
  , ⟨0x140028, [], false, [⟨15, 0, .ro, 0x1000⟩]⟩  -- CAL_LIM_IQ
  , ⟨0x14002c, [], false, [⟨31, 16, .ro, 0x8000⟩, ⟨15, 0, .ro, 0x2000⟩]⟩  -- CAL_LIM_GAIN
  , ⟨0x140030, [], false, [⟨15, 0, .ro, 0x100⟩]⟩  -- CAL_LIM_DC_RES
  , ⟨0x140034, [], false, [⟨15, 0, .ro, 0x400⟩]⟩  -- CAL_LIM_IQ_RES
  , ⟨0x140038, [], false, [⟨15, 0, .ro, 0x1000⟩]⟩  -- CAL_LIM_GAIN_RES
  , ⟨0x14003c, [], false, [⟨31, 0, .ro, 0x40000000⟩]⟩  -- CAL_LIM_ACT
  , ⟨0x140040, [], true, [⟨63, 0, .ro, 0⟩]⟩  -- CAL_LAST_CHANGE
  , ⟨0x140048, [], false, [⟨31, 16, .rw, 0x7d0⟩, ⟨7, 0, .rw, 8⟩]⟩  -- CAL_DIGEST_CFG
  , ⟨0x14004c, [], false, [⟨31, 31, .ro, 0⟩, ⟨27, 16, .ro, 0⟩, ⟨12, 0, .ro, 0⟩]⟩  -- CAL_GROUP
  , ⟨0x140050, [], false, [⟨31, 0, .ro, 0⟩]⟩  -- CAL_ADAPT_STEP_NO
  , ⟨0x140054, [], false, [⟨31, 0, .ro, 0⟩]⟩  -- CAL_RETAINED
  , ⟨0x140060, [], false, [⟨31, 0, .rc, 0⟩]⟩  -- CAL_STATS_DROPPED
  , ⟨0x140064, [], false, [⟨31, 0, .rc, 0⟩]⟩  -- CAL_STAGE_REFUSED
  , ⟨0x140068, [], false, [⟨31, 0, .rc, 0⟩]⟩  -- CAL_RANGE_EVENTS
  , ⟨0x14006c, [], false, [⟨31, 0, .rc, 0⟩]⟩  -- CAL_COMP_SAT
  , ⟨0x140070, [], false, [⟨31, 0, .rc, 0⟩]⟩  -- CAL_ADAPT_SAT
  , ⟨0x140074, [], false, [⟨31, 0, .rc, 0⟩]⟩  -- CAL_EXPULSIONS
  , ⟨0x140078, [], false, [⟨31, 0, .rc, 0⟩]⟩  -- CAL_SHADOW_SLOTS
  , ⟨0x140080, [(0x4, 8)], false, [⟨31, 0, .ro, 0⟩]⟩  -- CAL_DIGEST
  ]

/-- The register families of one block, with the names the manual gives them. -/
def regsDet : List RegFam :=
  [ ⟨0x150000, [], false, [⟨1, 1, .ro, 0⟩, ⟨0, 0, .ro, 0⟩]⟩  -- DET_CTRL
  , ⟨0x150004, [], false, [⟨1, 1, .ro, 0⟩, ⟨0, 0, .ro, 0⟩]⟩  -- DET_STATUS
  , ⟨0x150008, [], true, [⟨63, 0, .ro, 0⟩]⟩  -- DET_BEAT
  , ⟨0x150010, [], true, [⟨63, 0, .ro, 0⟩]⟩  -- DET_ORIGIN_TIME
  , ⟨0x150018, [], true, [⟨63, 0, .ro, 0⟩]⟩  -- DET_REF_BEAT
  , ⟨0x150020, [], false, [⟨31, 0, .ro, 0⟩]⟩  -- DET_TDC
  , ⟨0x150024, [], false, [⟨31, 0, .ro, 0⟩]⟩  -- DET_TDC_VAL
  , ⟨0x150028, [], false, [⟨31, 16, .ro, 0⟩, ⟨11, 8, .ro, 0⟩, ⟨7, 0, .ro, 0⟩]⟩  -- DET_LAST
  , ⟨0x15002c, [], false, [⟨31, 0, .ro, 0⟩]⟩  -- DET_TSIG
  , ⟨0x150400, [(0x4, 160)], false, [⟨31, 0, .ro, 0⟩]⟩  -- DET_SRC
  , ⟨0x150800, [(0x4, 160)], false, [⟨31, 0, .ro, 0⟩]⟩  -- DET_XSIG
  ]

/-- The register families of one block, with the names the manual gives them. -/
def regsPmu : List RegFam :=
  [ ⟨0x160000, [], false, [⟨4, 4, .ro, 0⟩, ⟨1, 0, .ro, 0⟩]⟩  -- PMU_STATE
  , ⟨0x160004, [], false, [⟨0, 0, .wo, 0⟩]⟩  -- PMU_CTRL
  , ⟨0x160008, [], true, [⟨47, 0, .rw, 0⟩]⟩  -- PMU_RETAIN_SSP
  , ⟨0x160010, [(0x4, 6)], false, [⟨31, 0, .ro, 0⟩]⟩  -- PMU_DOMAIN_ON
  , ⟨0x160028, [], false, [⟨9, 0, .ro, 0x2ee⟩]⟩  -- PMU_AVS_TARGET
  , ⟨0x16002c, [], false, [⟨2, 0, .ro, 0⟩]⟩  -- PMU_RESET_CAUSE
  , ⟨0x160040, [], false, [⟨31, 0, .rc, 0⟩]⟩  -- PMU_WARM_RESETS
  , ⟨0x160044, [], false, [⟨31, 0, .rc, 0⟩]⟩  -- PMU_RETAIN_ENTRIES
  , ⟨0x160048, [], false, [⟨15, 0, .ro, 0⟩]⟩  -- PMU_LAST_EXIT
  ]

/-- The register families of one block, with the names the manual gives them. -/
def regsSup : List RegFam :=
  [ ⟨0x170000, [], false, [⟨2, 2, .ro, 0⟩, ⟨1, 1, .ro, 0⟩, ⟨0, 0, .ro, 0⟩]⟩  -- SUP_STATUS
  , ⟨0x170004, [], false, [⟨31, 0, .rc, 0⟩]⟩  -- SUP_DIP_COUNT
  , ⟨0x170008, [], false, [⟨31, 0, .rc, 0⟩]⟩  -- SUP_HOLD_MAX
  , ⟨0x17000c, [], false, [⟨31, 0, .ro, 0⟩]⟩  -- SUP_SUPPLY_RESETS
  , ⟨0x170010, [], false, [⟨9, 0, .ro, 0⟩]⟩  -- SUP_VCORE
  , ⟨0x170014, [], false, [⟨9, 0, .ro, 0⟩]⟩  -- SUP_VSRAM
  , ⟨0x170018, [], false, [⟨31, 0, .rc, 0⟩]⟩  -- SUP_OV_COUNT
  , ⟨0x17001c, [], false, [⟨15, 0, .ro, 0⟩]⟩  -- SUP_TEMP
  , ⟨0x170020, [], false, [⟨15, 0, .rc, 0⟩]⟩  -- SUP_TEMP_MAX
  ]

/-- The register families of one block, with the names the manual gives them. -/
def regsDmmu : List RegFam :=
  [ ⟨0x180000, [], false, [⟨1, 1, .ro, 0⟩, ⟨0, 0, .ro, 0⟩]⟩  -- DMMU_STATUS
  , ⟨0x180008, [], true, [⟨39, 12, .ro, 0⟩]⟩  -- DMMU_TTB
  , ⟨0x180010, [], false, [⟨31, 0, .ro, 0⟩]⟩  -- DMMU_EPOCH
  , ⟨0x180014, [], false, [⟨31, 0, .ro, 0xffffffff⟩]⟩  -- DMMU_EPOCH_MIN
  , ⟨0x180018, [], false, [⟨23, 0, .ro, 0⟩]⟩  -- DMMU_RETIRING
  , ⟨0x180020, [], true, [⟨47, 0, .ro, 0⟩]⟩  -- DMMU_FAULT_VA
  , ⟨0x180028, [], false, [⟨31, 31, .rc, 0⟩, ⟨21, 16, .ro, 0⟩, ⟨2, 0, .ro, 0⟩]⟩  -- DMMU_FAULT
  , ⟨0x180040, [], false, [⟨31, 0, .rc, 0⟩]⟩  -- DMMU_TB_MISS
  , ⟨0x180044, [], false, [⟨31, 0, .rc, 0⟩]⟩  -- DMMU_WALKS
  , ⟨0x180048, [], false, [⟨13, 0, .ro, 0⟩]⟩  -- DMMU_PINNED_N
  , ⟨0x18004c, [], false, [⟨31, 0, .rc, 0⟩]⟩  -- DMMU_FAULTS
  , ⟨0x180400, [(0x8, 48)], false, [⟨31, 0, .rc, 0⟩]⟩  -- DMMU_SSP_CE
  , ⟨0x180404, [(0x8, 48)], false, [⟨31, 0, .rc, 0⟩]⟩  -- DMMU_SSP_UE
  , ⟨0x180580, [], true, [⟨47, 0, .ro, 0xffffffffffff⟩]⟩  -- DMMU_SSP_ON
  ]

/-- The register families of one block, with the names the manual gives them. -/
def regsSde : List RegFam :=
  [ ⟨0x200000, [(0x1000, 32)], false, [⟨4, 0, .ro, 0⟩]⟩  -- SDE_ID
  , ⟨0x200004, [(0x1000, 32)], false, [⟨24, 16, .ro, 0⟩, ⟨8, 0, .ro, 0x100⟩]⟩  -- SDE_TAGS
  , ⟨0x200040, [(0x1000, 32)], false, [⟨31, 0, .rc, 0⟩]⟩  -- SDE_BYTES
  , ⟨0x200044, [(0x1000, 32)], false, [⟨31, 0, .rc, 0⟩]⟩  -- SDE_DL_MISS
  , ⟨0x200048, [(0x1000, 32)], false, [⟨31, 0, .rc, 0⟩]⟩  -- SDE_DESC_BAD
  , ⟨0x20004c, [(0x1000, 32)], false, [⟨31, 0, .rc, 0⟩]⟩  -- SDE_CR_STALL
  , ⟨0x200100, [(0x1000, 32), (0x40, 4)], false, [⟨3, 3, .ro, 0⟩, ⟨2, 2, .ro, 0⟩, ⟨1, 1, .ro, 0⟩, ⟨0, 0, .ro, 0⟩]⟩  -- SDE_CTX_STATE
  , ⟨0x200104, [(0x1000, 32), (0x40, 4)], false, [⟨31, 0, .ro, 0⟩]⟩  -- SDE_CTX_GEN
  , ⟨0x200108, [(0x1000, 32), (0x40, 4)], false, [⟨15, 0, .ro, 0⟩]⟩  -- SDE_CTX_PC
  , ⟨0x20010c, [(0x1000, 32), (0x40, 4)], false, [⟨5, 4, .ro, 0⟩, ⟨3, 0, .ro, 4⟩]⟩  -- SDE_CTX_CR_CFG
  , ⟨0x200110, [(0x1000, 32), (0x40, 4)], true, [⟨49, 0, .ro, 0⟩]⟩  -- SDE_CTX_CR_BASE
  , ⟨0x200118, [(0x1000, 32), (0x40, 4)], false, [⟨11, 0, .ro, 0⟩]⟩  -- SDE_CTX_CR_HEAD
  , ⟨0x20011c, [(0x1000, 32), (0x40, 4)], false, [⟨11, 0, .rw, 0⟩]⟩  -- SDE_CTX_CR_TAIL
  , ⟨0x200120, [(0x1000, 32), (0x40, 4)], true, [⟨47, 0, .ro, 0⟩]⟩  -- SDE_CTX_PROG
  ]

/-- The register families of one block, with the names the manual gives them. -/
def regsMa : List RegFam :=
  [ ⟨0x400000, [(0x4000, 96)], false, [⟨16, 16, .ro, 0⟩, ⟨15, 8, .ro, 0⟩, ⟨7, 0, .ro, 0⟩]⟩  -- MA_ID
  , ⟨0x400004, [(0x4000, 96)], false, [⟨7, 7, .ro, 0⟩, ⟨6, 6, .ro, 0⟩, ⟨5, 5, .ro, 0⟩, ⟨4, 4, .ro, 0⟩, ⟨3, 3, .ro, 0⟩, ⟨2, 2, .ro, 0⟩, ⟨1, 1, .ro, 0⟩]⟩  -- MA_STATUS
  , ⟨0x400008, [(0x4000, 96)], false, [⟨24, 24, .ro, 0⟩, ⟨23, 16, .ro, 0⟩, ⟨8, 8, .ro, 0⟩, ⟨7, 0, .ro, 0⟩]⟩  -- MA_SKEW
  , ⟨0x40000c, [(0x4000, 96)], false, [⟨31, 16, .ro, 0x108⟩, ⟨15, 0, .ro, 0x108⟩]⟩  -- MA_LATENCY
  , ⟨0x400010, [(0x4000, 96)], false, [⟨15, 8, .ro, 0⟩, ⟨7, 4, .ro, 0⟩, ⟨1, 0, .ro, 3⟩]⟩  -- MA_BIST
  , ⟨0x400014, [(0x4000, 96)], false, [⟨9, 0, .ro, 0⟩]⟩  -- MA_PMODE
  , ⟨0x400018, [(0x4000, 96)], false, [⟨9, 0, .ro, 0⟩]⟩  -- MA_SEQ_PC
  , ⟨0x40001c, [(0x4000, 96)], false, [⟨25, 16, .ro, 0⟩, ⟨3, 0, .ro, 0⟩]⟩  -- MA_SEQ_FAULT
  , ⟨0x400020, [(0x4000, 96)], false, [⟨25, 16, .ro, 0⟩, ⟨15, 0, .ro, 0⟩]⟩  -- MA_SEQ_PPOINT
  , ⟨0x400024, [(0x4000, 96)], false, [⟨4, 3, .ro, 0⟩, ⟨2, 0, .ro, 0⟩]⟩  -- MA_QUEUE
  , ⟨0x400040, [(0x4000, 96)], false, [⟨31, 0, .rc, 0⟩]⟩  -- MA_PASSES
  , ⟨0x400044, [(0x4000, 96)], false, [⟨31, 0, .rc, 0⟩]⟩  -- MA_BUBBLES
  , ⟨0x400048, [(0x4000, 96)], false, [⟨31, 0, .rc, 0⟩]⟩  -- MA_PAD_CYCLES
  , ⟨0x40004c, [(0x4000, 96)], false, [⟨31, 0, .rc, 0⟩]⟩  -- MA_FREEZE_WF
  , ⟨0x400050, [(0x4000, 96)], false, [⟨31, 0, .rc, 0⟩]⟩  -- MA_FREEZE_DR
  , ⟨0x400054, [(0x4000, 96)], false, [⟨31, 0, .rc, 0⟩]⟩  -- MA_CHK_MISMATCH
  , ⟨0x400058, [(0x4000, 96)], false, [⟨31, 16, .ro, 0⟩, ⟨4, 4, .ro, 0⟩, ⟨3, 2, .ro, 0⟩, ⟨1, 0, .ro, 0⟩]⟩  -- MA_CHK_LAST
  , ⟨0x400100, [(0x4000, 96), (0x4, 16)], false, [⟨31, 0, .ro, 0⟩]⟩  -- MA_SEQ_S
  , ⟨0x401000, [(0x4000, 96), (0x4, 1024)], false, [⟨31, 0, .ro, 0⟩]⟩  -- MA_PROG
  , ⟨0x403000, [(0x4000, 96)], false, [⟨6, 6, .rw, 0⟩, ⟨5, 5, .rw, 0⟩, ⟨4, 4, .rw, 0⟩, ⟨3, 3, .rw, 0⟩, ⟨2, 0, .rw, 0⟩]⟩  -- MA_DQ_MODE
  , ⟨0x403004, [(0x4000, 96)], false, [⟨31, 0, .rw, 0x3f800000⟩]⟩  -- MA_DQ_G
  , ⟨0x403008, [(0x4000, 96)], false, [⟨31, 0, .rw, 0x3f800000⟩]⟩  -- MA_DQ_H
  , ⟨0x40300c, [(0x4000, 96)], false, [⟨7, 0, .rw, 0x78⟩]⟩  -- MA_DQ_SOUT
  , ⟨0x403010, [(0x4000, 96)], false, [⟨31, 0, .rc, 0⟩]⟩  -- MA_FMT_SUB7
  , ⟨0x403014, [(0x4000, 96)], false, [⟨31, 0, .rc, 0⟩]⟩  -- MA_FMT_BADTRIT
  , ⟨0x403018, [(0x4000, 96)], false, [⟨31, 0, .rc, 0⟩]⟩  -- MA_DQ_SAT
  , ⟨0x40301c, [(0x4000, 96)], false, [⟨31, 0, .rc, 0⟩]⟩  -- MA_DQ_SCALE_CLAMP
  , ⟨0x403100, [(0x4000, 96)], false, [⟨8, 8, .ro, 0⟩, ⟨7, 0, .ro, 0⟩]⟩  -- MA_ACC_STATUS
  , ⟨0x403104, [(0x4000, 96)], false, [⟨31, 0, .ro, 0⟩]⟩  -- MA_SPILL_CNT
  , ⟨0x403108, [(0x4000, 96)], false, [⟨31, 0, .rc, 0⟩]⟩  -- MA_SPILLS
  , ⟨0x40310c, [(0x4000, 96)], false, [⟨31, 0, .rc, 0⟩]⟩  -- MA_OAB_OVF
  , ⟨0x403110, [(0x4000, 96)], false, [⟨31, 0, .rc, 0⟩]⟩  -- MA_WAB_BADEXP
  , ⟨0x403114, [(0x4000, 96)], false, [⟨31, 0, .rc, 0⟩]⟩  -- MA_WAB_ABANDON
  , ⟨0x403118, [(0x4000, 96)], false, [⟨31, 0, .rc, 0⟩]⟩  -- MA_STATS_OVF
  , ⟨0x40311c, [(0x4000, 96)], false, [⟨31, 0, .rc, 0⟩]⟩  -- MA_WAB_SAT
  , ⟨0x403120, [(0x4000, 96), (0x8, 8)], false, [⟨31, 31, .ro, 0⟩, ⟨30, 30, .ro, 0⟩, ⟨27, 16, .ro, 0⟩, ⟨14, 0, .ro, 0⟩]⟩  -- MA_BIND_W0
  , ⟨0x403124, [(0x4000, 96), (0x8, 8)], false, [⟨19, 6, .ro, 0⟩]⟩  -- MA_BIND_W1
  , ⟨0x403200, [(0x4000, 96)], false, [⟨31, 19, .ro, 0⟩, ⟨13, 0, .ro, 0⟩]⟩  -- MA_SWIN
  , ⟨0x403204, [(0x4000, 96)], false, [⟨0, 0, .ro, 0⟩]⟩  -- MA_SBANK
  , ⟨0x403208, [(0x4000, 96)], false, [⟨31, 0, .ro, 0⟩]⟩  -- MA_SSEASON
  , ⟨0x403300, [(0x4000, 96)], false, [⟨31, 0, .rc, 0⟩]⟩  -- MA_LSP_CE
  , ⟨0x403304, [(0x4000, 96)], false, [⟨31, 0, .rc, 0⟩]⟩  -- MA_LSP_UE
  , ⟨0x403308, [(0x4000, 96)], false, [⟨31, 0, .rc, 0⟩]⟩  -- MA_OAB_CE
  , ⟨0x40330c, [(0x4000, 96)], false, [⟨31, 0, .rc, 0⟩]⟩  -- MA_OAB_UE
  , ⟨0x403310, [(0x4000, 96)], false, [⟨15, 0, .ro, 0xffff⟩]⟩  -- MA_LSP_ON
  ]

/-- The register families of one block, with the names the manual gives them. -/
def regsVe : List RegFam :=
  [ ⟨0x600000, [(0x4000, 24)], false, [⟨16, 16, .ro, 0⟩, ⟨15, 8, .ro, 0⟩, ⟨7, 0, .ro, 0⟩]⟩  -- VE_ID
  , ⟨0x600004, [(0x4000, 24)], false, [⟨7, 7, .ro, 0⟩, ⟨6, 6, .ro, 0⟩, ⟨5, 5, .ro, 0⟩, ⟨4, 4, .ro, 0⟩, ⟨2, 2, .ro, 0⟩, ⟨1, 1, .ro, 0⟩]⟩  -- VE_STATUS
  , ⟨0x600008, [(0x4000, 24)], false, [⟨9, 0, .ro, 0⟩]⟩  -- VE_PC
  , ⟨0x60000c, [(0x4000, 24)], false, [⟨25, 16, .ro, 0⟩, ⟨3, 0, .ro, 0⟩]⟩  -- VE_FAULT
  , ⟨0x600010, [(0x4000, 24)], false, [⟨12, 0, .ro, 0⟩]⟩  -- VE_VLEN
  , ⟨0x600014, [(0x4000, 24)], false, [⟨3, 0, .ro, 0⟩]⟩  -- VE_XFER
  , ⟨0x600018, [(0x4000, 24)], false, [⟨25, 16, .ro, 0⟩, ⟨15, 0, .ro, 0⟩]⟩  -- VE_SEQ_PPOINT
  , ⟨0x600040, [(0x4000, 24)], false, [⟨31, 0, .ro, 0⟩]⟩  -- VE_EVT_ISAT
  , ⟨0x600044, [(0x4000, 24)], false, [⟨31, 0, .ro, 0⟩]⟩  -- VE_EVT_FOVF
  , ⟨0x600048, [(0x4000, 24)], false, [⟨31, 0, .ro, 0⟩]⟩  -- VE_EVT_DIV0
  , ⟨0x60004c, [(0x4000, 24)], false, [⟨31, 0, .ro, 0⟩]⟩  -- VE_EVT_NAN
  , ⟨0x600050, [(0x4000, 24)], false, [⟨31, 0, .ro, 0⟩]⟩  -- VE_EVT_INF
  , ⟨0x600054, [(0x4000, 24)], false, [⟨31, 0, .ro, 0⟩]⟩  -- VE_EVT_DOMAIN
  , ⟨0x600058, [(0x4000, 24)], false, [⟨31, 0, .ro, 0⟩]⟩  -- VE_EVT_CVT_SAT
  , ⟨0x60005c, [(0x4000, 24)], false, [⟨31, 0, .ro, 0⟩]⟩  -- VE_EVT_CVT_NAN
  , ⟨0x600060, [(0x4000, 24)], false, [⟨31, 0, .ro, 0⟩]⟩  -- VE_EVT_SCALE_CLAMP
  , ⟨0x600064, [(0x4000, 24)], false, [⟨31, 0, .ro, 0⟩]⟩  -- VE_EVT_BADTRIT
  , ⟨0x600080, [(0x4000, 24)], false, [⟨31, 0, .rc, 0⟩]⟩  -- VE_INSTR
  , ⟨0x600084, [(0x4000, 24)], false, [⟨31, 0, .rc, 0⟩]⟩  -- VE_RES_MISMATCH
  , ⟨0x600088, [(0x4000, 24)], false, [⟨25, 16, .ro, 0⟩, ⟨7, 0, .ro, 0⟩]⟩  -- VE_RES_LAST
  , ⟨0x600100, [(0x4000, 24), (0x4, 32)], false, [⟨31, 0, .ro, 0⟩]⟩  -- VE_X
  , ⟨0x600180, [(0x4000, 24)], false, [⟨31, 0, .rc, 0⟩]⟩  -- VE_MEM_CE
  , ⟨0x600184, [(0x4000, 24)], false, [⟨31, 0, .rc, 0⟩]⟩  -- VE_MEM_UE
  , ⟨0x602000, [(0x4000, 24), (0x8, 1024)], true, [⟨63, 0, .ro, 0⟩]⟩  -- VE_PROG
  ]

/-- The register families of one block, with the names the manual gives them. -/
def regsAe : List RegFam :=
  [ ⟨0x680000, [(0x4000, 8)], false, [⟨2, 0, .ro, 0⟩]⟩  -- AE_ID
  , ⟨0x680004, [(0x4000, 8)], false, [⟨4, 4, .ro, 0⟩, ⟨3, 3, .ro, 0⟩, ⟨2, 2, .ro, 0⟩, ⟨1, 1, .ro, 0⟩, ⟨0, 0, .ro, 0⟩]⟩  -- AE_STATUS
  , ⟨0x680008, [(0x4000, 8)], false, [⟨31, 0, .ro, 0⟩]⟩  -- AE_RING_BASE
  , ⟨0x68000c, [(0x4000, 8)], false, [⟨18, 16, .ro, 0⟩, ⟨13, 0, .ro, 0⟩]⟩  -- AE_RING_CFG
  , ⟨0x680010, [(0x4000, 8)], false, [⟨7, 0, .ro, 0⟩]⟩  -- AE_RING_HEAD
  , ⟨0x680014, [(0x4000, 8)], false, [⟨31, 31, .ro, 0⟩, ⟨16, 14, .ro, 0⟩, ⟨13, 0, .ro, 0⟩]⟩  -- AE_CUR
  , ⟨0x680018, [(0x4000, 8)], false, [⟨15, 8, .ro, 0⟩, ⟨1, 0, .ro, 0⟩]⟩  -- AE_FAULT
  , ⟨0x680040, [(0x4000, 8)], false, [⟨31, 0, .rc, 0⟩]⟩  -- AE_STEPS
  , ⟨0x680044, [(0x4000, 8)], false, [⟨31, 0, .rc, 0⟩]⟩  -- AE_PAGES
  , ⟨0x680048, [(0x4000, 8)], false, [⟨31, 0, .rc, 0⟩]⟩  -- AE_PAGE_FAIL
  , ⟨0x68004c, [(0x4000, 8)], false, [⟨31, 0, .rc, 0⟩]⟩  -- AE_NAN_SCORES
  , ⟨0x680050, [(0x4000, 8)], false, [⟨31, 0, .rc, 0⟩]⟩  -- AE_ALL_MASKED
  , ⟨0x680054, [(0x4000, 8)], false, [⟨31, 0, .rc, 0⟩]⟩  -- AE_INF_ROWS
  , ⟨0x680058, [(0x4000, 8)], false, [⟨31, 0, .rc, 0⟩]⟩  -- AE_KV_SAT
  , ⟨0x68005c, [(0x4000, 8)], false, [⟨31, 0, .rc, 0⟩]⟩  -- AE_EVICTIONS
  , ⟨0x680060, [(0x4000, 8)], false, [⟨31, 0, .rc, 0⟩]⟩  -- AE_EDITS_HELD
  , ⟨0x680064, [(0x4000, 8)], false, [⟨31, 0, .rc, 0⟩]⟩  -- AE_STEP_BAD
  , ⟨0x683000, [], true, [⟨47, 40, .ro, 0⟩]⟩  -- AE0_KV_BASE
  , ⟨0x683008, [], true, [⟨47, 12, .ro, 0⟩]⟩  -- AE0_KV_SEQ_BASE
  , ⟨0x683010, [], false, [⟨23, 0, .ro, 0⟩]⟩  -- AE0_KV_POOL_TOTAL
  , ⟨0x683014, [], false, [⟨23, 0, .ro, 0⟩]⟩  -- AE0_KV_FREE
  , ⟨0x683018, [], false, [⟨23, 0, .ro, 0⟩]⟩  -- AE0_KV_MAPPED
  , ⟨0x68301c, [], false, [⟨23, 0, .ro, 0⟩]⟩  -- AE0_KV_RETIRING
  , ⟨0x683020, [], false, [⟨23, 0, .ro, 0⟩]⟩  -- AE0_KV_REMOTE
  , ⟨0x683024, [], false, [⟨10, 0, .ro, 0⟩]⟩  -- AE0_KV_ACTIVE
  , ⟨0x683028, [], false, [⟨2, 0, .rw, 0⟩]⟩  -- AE0_KV_TICK_SRC
  , ⟨0x68302c, [], false, [⟨31, 0, .rc, 0⟩]⟩  -- AE0_KV_ACTIVE_REFUSED
  , ⟨0x683030, [], false, [⟨31, 0, .rc, 0⟩]⟩  -- AE0_KV_POOL_EMPTY
  ]

/-- The register families of one block, with the names the manual gives them. -/
def regsEgu : List RegFam :=
  [ ⟨0x6a0000, [(0x4000, 4)], false, [⟨11, 2, .ro, 0⟩, ⟨1, 1, .ro, 0⟩, ⟨0, 0, .ro, 0⟩]⟩  -- EGU_STATUS
  , ⟨0x6a0008, [(0x4000, 4)], false, [⟨31, 0, .ro, 0⟩]⟩  -- EGU_RING_BASE
  , ⟨0x6a000c, [(0x4000, 4)], false, [⟨18, 16, .ro, 0⟩, ⟨13, 0, .ro, 0⟩]⟩  -- EGU_RING_CFG
  , ⟨0x6a0010, [(0x4000, 4)], false, [⟨7, 0, .ro, 0⟩]⟩  -- EGU_RING_HEAD
  , ⟨0x6a0040, [(0x4000, 4)], false, [⟨31, 0, .rc, 0⟩]⟩  -- EGU_GATHERS
  , ⟨0x6a0044, [(0x4000, 4)], false, [⟨31, 0, .rc, 0⟩]⟩  -- EGU_OOR
  , ⟨0x6a0048, [(0x4000, 4)], false, [⟨31, 0, .rc, 0⟩]⟩  -- EGU_BATCH_BAD
  ]

/-- The register families of one block, with the names the manual gives them. -/
def regsDsc : List RegFam :=
  [ ⟨0x700000, [(0x10000, 16)], false, [⟨4, 4, .ro, 0⟩, ⟨3, 0, .ro, 0⟩]⟩  -- DSC_ID
  , ⟨0x700004, [(0x10000, 16)], false, [⟨8, 8, .ro, 0⟩, ⟨7, 4, .ro, 0⟩, ⟨3, 0, .ro, 0⟩]⟩  -- DSC_STATUS
  , ⟨0x700008, [(0x10000, 16), (0x4, 4)], false, [⟨27, 16, .ro, 0⟩, ⟨3, 0, .ro, 0⟩]⟩  -- DSC_CORE_FAULT
  , ⟨0x700040, [(0x10000, 16)], false, [⟨31, 0, .rc, 0⟩]⟩  -- DSC_ACC_SAT
  , ⟨0x700044, [(0x10000, 16)], false, [⟨31, 0, .rc, 0⟩]⟩  -- DSC_STREAM_STALL
  , ⟨0x700048, [(0x10000, 16)], false, [⟨31, 0, .rc, 0⟩]⟩  -- DSC_FFT_DONE
  , ⟨0x70004c, [(0x10000, 16)], false, [⟨31, 0, .rc, 0⟩]⟩  -- DSC_PRECODE_SAT
  , ⟨0x700050, [(0x10000, 16)], false, [⟨31, 0, .rc, 0⟩]⟩  -- DSC_PUCCH_DTX
  , ⟨0x700080, [(0x10000, 16)], false, [⟨31, 19, .ro, 0⟩, ⟨13, 0, .ro, 0⟩]⟩  -- DSC_SWIN
  , ⟨0x700084, [(0x10000, 16)], false, [⟨0, 0, .ro, 0⟩]⟩  -- DSC_SBANK
  , ⟨0x700088, [(0x10000, 16)], false, [⟨31, 0, .ro, 0⟩]⟩  -- DSC_SSEASON
  , ⟨0x700090, [(0x10000, 16)], false, [⟨31, 0, .rc, 0⟩]⟩  -- DSC_MEM_CE
  , ⟨0x700094, [(0x10000, 16)], false, [⟨31, 0, .rc, 0⟩]⟩  -- DSC_MEM_UE
  , ⟨0x700098, [(0x10000, 16)], false, [⟨15, 0, .ro, 0xffff⟩]⟩  -- DSC_MEM_ON
  ]

/-- The register families of one block, with the names the manual gives them. -/
def regsDec : List RegFam :=
  [ ⟨0x800000, [(0x100, 16)], false, [⟨5, 0, .ro, 0⟩]⟩  -- DEC_LDPC_CFG
  , ⟨0x800004, [(0x100, 16)], false, [⟨31, 0, .rc, 0⟩]⟩  -- DEC_LDPC_CB_DONE
  , ⟨0x800008, [(0x100, 16)], false, [⟨31, 0, .rc, 0⟩]⟩  -- DEC_LDPC_CB_CRC_FAIL
  , ⟨0x80000c, [(0x100, 16)], false, [⟨31, 0, .rc, 0⟩]⟩  -- DEC_LDPC_ITER_SUM
  , ⟨0x800010, [(0x100, 16)], false, [⟨31, 0, .rc, 0⟩]⟩  -- DEC_LDPC_MAX_ITER_HIT
  , ⟨0x800014, [(0x100, 16)], false, [⟨31, 0, .rc, 0⟩]⟩  -- DEC_LDPC_HARQ_SAT
  , ⟨0x800018, [(0x100, 16)], false, [⟨31, 0, .rc, 0⟩]⟩  -- DEC_LDPC_HARQ_MISMATCH
  , ⟨0x80001c, [(0x100, 16)], false, [⟨31, 0, .rc, 0⟩]⟩  -- DEC_LDPC_LLR_M128
  , ⟨0x801000, [(0x100, 4)], false, [⟨31, 0, .rc, 0⟩]⟩  -- DEC_POL_CB_DONE
  , ⟨0x801004, [(0x100, 4)], false, [⟨31, 0, .rc, 0⟩]⟩  -- DEC_POL_CRC_FAIL
  , ⟨0x801008, [(0x100, 4)], false, [⟨31, 0, .rc, 0⟩]⟩  -- DEC_POL_LLR_M128
  , ⟨0x802000, [(0x100, 8)], false, [⟨31, 0, .rc, 0⟩]⟩  -- DEC_LENC_CB_ENC
  , ⟨0x803000, [], false, [⟨31, 0, .rc, 0⟩]⟩  -- DEC_ALLOC_BAD
  , ⟨0x803100, [(0x4, 8)], false, [⟨15, 15, .rw, 0⟩, ⟨14, 8, .rw, 0⟩, ⟨6, 0, .rw, 0x40⟩]⟩  -- DEC_RAMP
  ]

/-- The register families of one block, with the names the manual gives them. -/
def regsFhp : List RegFam :=
  [ ⟨0x900000, [(0x4000, 4)], false, [⟨4, 4, .rw, 0⟩, ⟨3, 3, .rw, 0⟩, ⟨2, 2, .rw, 0⟩, ⟨1, 0, .rw, 0⟩]⟩  -- FHP_CFG
  , ⟨0x900004, [(0x4000, 4)], false, [⟨4, 4, .ro, 0⟩, ⟨3, 0, .ro, 0⟩]⟩  -- FHP_STATUS
  , ⟨0x900008, [(0x4000, 4)], false, [⟨15, 12, .rw, 8⟩, ⟨11, 8, .rw, 3⟩, ⟨7, 4, .rw, 3⟩, ⟨3, 0, .rw, 2⟩]⟩  -- FHP_EAXC_FMT
  , ⟨0x900010, [(0x4000, 4)], true, [⟨39, 12, .rw, 0⟩]⟩  -- FHP_HRING
  , ⟨0x900018, [(0x4000, 4)], false, [⟨7, 0, .ro, 0⟩]⟩  -- FHP_HR_HEAD
  , ⟨0x90001c, [(0x4000, 4)], false, [⟨7, 0, .rw, 0⟩]⟩  -- FHP_HR_TAIL
  , ⟨0x900040, [(0x4000, 4)], false, [⟨31, 0, .rc, 0⟩]⟩  -- FHP_RX_FRAMES
  , ⟨0x900044, [(0x4000, 4)], false, [⟨31, 0, .rc, 0⟩]⟩  -- FHP_RX_DROP
  , ⟨0x900048, [(0x4000, 4)], false, [⟨31, 0, .rc, 0⟩]⟩  -- FHP_CLS_NOMATCH
  , ⟨0x90004c, [(0x4000, 4)], false, [⟨31, 0, .rc, 0⟩]⟩  -- FHP_ECPRI_BAD
  , ⟨0x900050, [(0x4000, 4)], false, [⟨31, 0, .rc, 0⟩]⟩  -- FHP_SECT_BAD
  , ⟨0x900054, [(0x4000, 4)], false, [⟨31, 0, .rc, 0⟩]⟩  -- FHP_RX_EARLY
  , ⟨0x900058, [(0x4000, 4)], false, [⟨31, 0, .rc, 0⟩]⟩  -- FHP_RX_LATE
  , ⟨0x90005c, [(0x4000, 4)], false, [⟨31, 0, .rc, 0⟩]⟩  -- FHP_HOST_DROP
  , ⟨0x900060, [(0x4000, 4)], false, [⟨31, 0, .rc, 0⟩]⟩  -- FHP_TX_FRAMES
  , ⟨0x900064, [(0x4000, 4)], false, [⟨31, 0, .rc, 0⟩]⟩  -- FHP_RX_FCS
  , ⟨0x901000, [(0x4000, 4), (0x8, 64)], true, [⟨63, 0, .rw, 0⟩]⟩  -- FHP_CLS
  , ⟨0x903000, [(0x10, 8)], false, [⟨31, 25, .rw, 0x40⟩, ⟨24, 16, .rw, 0x111⟩, ⟨13, 12, .rw, 0⟩, ⟨11, 10, .rw, 0⟩, ⟨9, 9, .rw, 0⟩, ⟨8, 8, .rw, 0⟩, ⟨7, 4, .rw, 9⟩, ⟨3, 2, .rw, 1⟩, ⟨0, 0, .rw, 0⟩]⟩  -- FHP0_CAR_CFG
  , ⟨0x903004, [(0x10, 8)], false, [⟨31, 16, .rw, 0⟩, ⟨15, 0, .rw, 0⟩]⟩  -- FHP0_CAR_RXWIN
  , ⟨0x903008, [(0x10, 8)], false, [⟨31, 16, .rw, 0⟩, ⟨15, 0, .rw, 0⟩]⟩  -- FHP0_CAR_ADV
  , ⟨0x90300c, [(0x10, 8)], false, [⟨14, 12, .rw, 0⟩, ⟨11, 0, .rw, 0⟩]⟩  -- FHP0_CAR_VLAN
  ]

/-- The register families of one block, with the names the manual gives them. -/
def regsIlp : List RegFam :=
  [ ⟨0xa00000, [(0x4000, 4)], false, [⟨13, 12, .rw, 0⟩, ⟨11, 0, .rw, 0⟩]⟩  -- ILP_CFG
  , ⟨0xa00004, [(0x4000, 4)], false, [⟨14, 12, .rw, 3⟩, ⟨10, 8, .rw, 4⟩, ⟨6, 4, .rw, 5⟩, ⟨2, 0, .rw, 6⟩]⟩  -- ILP_PCP
  , ⟨0xa00008, [(0x4000, 4)], false, [⟨24, 16, .ro, 0⟩, ⟨0, 0, .ro, 0⟩]⟩  -- ILP_STATUS
  , ⟨0xa0000c, [(0x4000, 4)], false, [⟨19, 16, .rw, 7⟩, ⟨15, 0, .rw, 0x32⟩]⟩  -- ILP_RTO
  , ⟨0xa00010, [(0x4000, 4)], false, [⟨28, 16, .ro, 0⟩, ⟨12, 0, .ro, 0x1000⟩]⟩  -- ILP_TAGS
  , ⟨0xa00020, [(0x4000, 4), (0x10, 4)], false, [⟨13, 0, .ro, 0⟩]⟩  -- ILP_CR_POOL
  , ⟨0xa00024, [(0x4000, 4), (0x10, 4)], false, [⟨13, 0, .ro, 0⟩]⟩  -- ILP_CR_FREE
  , ⟨0xa00028, [(0x4000, 4), (0x10, 4)], false, [⟨13, 0, .ro, 0⟩]⟩  -- ILP_CR_GRANTED
  , ⟨0xa0002c, [(0x4000, 4), (0x10, 4)], false, [⟨13, 0, .ro, 0⟩]⟩  -- ILP_CR_BUSY
  , ⟨0xa00060, [(0x4000, 4), (0x4, 4)], false, [⟨13, 0, .rw, 0⟩]⟩  -- ILP_CR_CAP
  , ⟨0xa00080, [(0x4000, 4)], false, [⟨31, 0, .rc, 0⟩]⟩  -- ILP_TX_PKTS
  , ⟨0xa00084, [(0x4000, 4)], false, [⟨31, 0, .rc, 0⟩]⟩  -- ILP_RX_PKTS
  , ⟨0xa00088, [(0x4000, 4)], false, [⟨31, 0, .rc, 0⟩]⟩  -- ILP_RETX
  , ⟨0xa0008c, [(0x4000, 4)], false, [⟨31, 0, .rc, 0⟩]⟩  -- ILP_PATH_FAIL
  , ⟨0xa00090, [(0x4000, 4)], false, [⟨31, 0, .rc, 0⟩]⟩  -- ILP_STALE_EPOCH
  , ⟨0xa00094, [(0x4000, 4)], false, [⟨31, 0, .rc, 0⟩]⟩  -- ILP_WIN_BAD
  , ⟨0xa00098, [(0x4000, 4)], false, [⟨31, 0, .rc, 0⟩]⟩  -- ILP_WIN_CLOSED_DROP
  , ⟨0xa0009c, [(0x4000, 4)], false, [⟨31, 0, .rc, 0⟩]⟩  -- ILP_PFC_RX
  , ⟨0xa000a0, [(0x4000, 4)], false, [⟨31, 0, .rc, 0⟩]⟩  -- ILP_FCS_ERR
  , ⟨0xa000c0, [(0x4000, 4)], true, [⟨63, 32, .ro, 0⟩, ⟨23, 12, .ro, 0⟩, ⟨11, 0, .ro, 0⟩]⟩  -- ILP_WCLOSE_LAST
  , ⟨0xa01000, [(0x4, 512)], false, [⟨1, 0, .rw, 0⟩, ⟨3, 3, .rw, 0⟩, ⟨5, 4, .rw, 0⟩, ⟨7, 7, .rw, 0⟩, ⟨9, 8, .rw, 0⟩, ⟨11, 11, .rw, 0⟩, ⟨13, 12, .rw, 0⟩, ⟨15, 15, .rw, 0⟩, ⟨17, 16, .rw, 0⟩, ⟨19, 19, .rw, 0⟩, ⟨21, 20, .rw, 0⟩, ⟨23, 23, .rw, 0⟩, ⟨25, 24, .rw, 0⟩, ⟨27, 27, .rw, 0⟩, ⟨29, 28, .rw, 0⟩, ⟨31, 31, .rw, 0⟩]⟩  -- ILP_ROUTE
  , ⟨0xa01800, [(0x200, 4), (0x4, 128)], false, [⟨31, 0, .rw, 0⟩]⟩  -- ILP_ROSTER
  , ⟨0xa02000, [], false, [⟨11, 0, .rw, 0⟩]⟩  -- ILP_DEVICE_ID
  , ⟨0xa02004, [], false, [⟨31, 0, .rw, 0x6a01f00⟩]⟩  -- ILP_MAC_PREFIX
  , ⟨0xa02008, [], false, [⟨15, 0, .rw, 0x88b5⟩]⟩  -- ILP_ETHERTYPE
  , ⟨0xa0200c, [], false, [⟨15, 0, .rw, 0x7d0⟩]⟩  -- ILP_CTRL_TIMEOUT
  , ⟨0xa02010, [(0x4, 4)], false, [⟨31, 31, .ro, 0⟩, ⟨28, 28, .rw, 0⟩, ⟨27, 16, .ro, 0⟩, ⟨15, 0, .rw, 0⟩]⟩  -- ILP_GROUP
  , ⟨0xa02020, [(0x4, 4)], false, [⟨31, 0, .ro, 0⟩]⟩  -- ILP_GROUP_EPOCH
  ]

/-- The register families of one block, with the names the manual gives them. -/
def regsFw : List RegFam :=
  [ ⟨0xb00000, [(0x20, 64)], true, [⟨39, 12, .rwl, 0⟩]⟩  -- FW_REGION_L_BASE
  , ⟨0xb00008, [(0x20, 64)], true, [⟨39, 12, .rwl, 0⟩]⟩  -- FW_REGION_L_LIMIT
  , ⟨0xb00010, [(0x20, 64)], true, [⟨63, 0, .rwl, 0⟩]⟩  -- FW_REGION_L_RMASK
  , ⟨0xb00018, [(0x20, 64)], true, [⟨63, 0, .rwl, 0⟩]⟩  -- FW_REGION_L_WMASK
  , ⟨0xb00800, [(0x20, 192)], true, [⟨39, 12, .rw, 0⟩]⟩  -- FW_REGION_BASE
  , ⟨0xb00808, [(0x20, 192)], true, [⟨39, 12, .rw, 0⟩]⟩  -- FW_REGION_LIMIT
  , ⟨0xb00810, [(0x20, 192)], true, [⟨63, 0, .rw, 0⟩]⟩  -- FW_REGION_RMASK
  , ⟨0xb00818, [(0x20, 192)], true, [⟨63, 0, .rw, 0⟩]⟩  -- FW_REGION_WMASK
  , ⟨0xb02000, [], true, [⟨63, 0, .rwl, 0x3ffffffffff⟩]⟩  -- FW_DEFAULT_RMASK
  , ⟨0xb02008, [], true, [⟨63, 0, .rwl, 0x3ffffffffff⟩]⟩  -- FW_DEFAULT_WMASK
  , ⟨0xb02010, [], false, [⟨0, 0, .w1s, 0⟩]⟩  -- FW_LOCK
  , ⟨0xb02014, [], false, [⟨31, 0, .rc, 0⟩]⟩  -- FW_REFUSED
  , ⟨0xb02018, [], false, [⟨21, 16, .ro, 0⟩, ⟨0, 0, .ro, 0⟩]⟩  -- FW_LAST
  , ⟨0xb02020, [], true, [⟨39, 0, .ro, 0⟩]⟩  -- FW_LAST_ADDR
  ]

/-- The register families of one block, with the names the manual gives them. -/
def regsLog : List RegFam :=
  [ ⟨0xc00000, [], false, [⟨0, 0, .wo, 0⟩]⟩  -- LOG_CTRL
  , ⟨0xc00004, [], false, [⟨31, 0, .ro, 0⟩]⟩  -- LOG_NEXT_SEQ
  , ⟨0xc00008, [], false, [⟨31, 0, .ro, 0⟩]⟩  -- LOG_OLDEST_SEQ
  , ⟨0xc0000c, [], false, [⟨31, 0, .rc, 0⟩]⟩  -- LOG_OVERWRITTEN
  , ⟨0xc00010, [], false, [⟨9, 0, .ro, 0⟩]⟩  -- LOG_STICKY_COUNT
  , ⟨0xc00014, [], false, [⟨31, 0, .rc, 0⟩]⟩  -- LOG_STICKY_LOST
  ]

/-- The register families of one block, with the names the manual gives them. -/
def regsMemc : List RegFam :=
  [ ⟨0x1000000, [(0x100, 32)], false, [⟨31, 0, .rc, 0⟩]⟩  -- MEMC_CE
  , ⟨0x1000004, [(0x100, 32)], false, [⟨31, 0, .rc, 0⟩]⟩  -- MEMC_UE
  , ⟨0x1000008, [(0x100, 32)], false, [⟨31, 0, .ro, 0⟩]⟩  -- MEMC_POISONED
  , ⟨0x100000c, [(0x100, 32)], false, [⟨31, 0, .rc, 0⟩]⟩  -- MEMC_SCRUB_PASSES
  , ⟨0x1000010, [(0x100, 32)], true, [⟨39, 6, .ro, 0⟩]⟩  -- MEMC_LAST_UE
  , ⟨0x1004000, [], false, [⟨3, 0, .rw, 4⟩]⟩  -- SCRUB_CFG
  , ⟨0x1004004, [], false, [⟨31, 0, .ro, 0x78⟩]⟩  -- USABLE
  ]

/-- The blocks of Table 19.1 that hold table registers: first offset, length, families. -/
def regBlocks : List (Nat × Nat × List RegFam) :=
  [ (0x10000, 0x10000, regsSem)
  , (0x20000, 0x20000, regsQueue)
  , (0x40000, 0x40000, regsIcn)
  , (0x80000, 0x80000, regsSyn)
  , (0x100000, 0x10000, regsTsu)
  , (0x110000, 0x10000, regsSaf)
  , (0x120000, 0x10000, regsFfd)
  , (0x130000, 0x10000, regsKat)
  , (0x140000, 0x10000, regsCal)
  , (0x150000, 0x10000, regsDet)
  , (0x160000, 0x10000, regsPmu)
  , (0x170000, 0x10000, regsSup)
  , (0x180000, 0x80000, regsDmmu)
  , (0x200000, 0x20000, regsSde)
  , (0x400000, 0x180000, regsMa)
  , (0x600000, 0x60000, regsVe)
  , (0x680000, 0x20000, regsAe)
  , (0x6a0000, 0x10000, regsEgu)
  , (0x700000, 0x100000, regsDsc)
  , (0x800000, 0x10000, regsDec)
  , (0x900000, 0x10000, regsFhp)
  , (0xa00000, 0x10000, regsIlp)
  , (0xb00000, 0x10000, regsFw)
  , (0xc00000, 0x10000, regsLog)
  , (0x1000000, 0x10000, regsMemc) ]

/-! Register offsets, named BLOCK_REGISTER after the manual, indexed as the manual indexes them. -/

@[reducible] def Reg.SEM_CLAIM (i : Nat) : Nat := 0x10000 + 0x4 * i
@[reducible] def Reg.SEM_HELD_HP0 : Nat := 0x10100
@[reducible] def Reg.SEM_HELD_HP1 : Nat := 0x10108
@[reducible] def Reg.SEM_WANT_HP0 : Nat := 0x10110
@[reducible] def Reg.SEM_WANT_HP1 : Nat := 0x10118
@[reducible] def Reg.SEM_TIE : Nat := 0x10120
@[reducible] def Reg.SEM_CLAIMS : Nat := 0x10140
@[reducible] def Reg.SEM_TIES : Nat := 0x10144
@[reducible] def Reg.SEM_RESET_RELEASES : Nat := 0x10148
@[reducible] def Reg.Q_SQ_BASE (p q : Nat) : Nat := 0x20000 + 0x4000 * p + 0x100 * q
@[reducible] def Reg.Q_RQ_BASE (p q : Nat) : Nat := 0x20008 + 0x4000 * p + 0x100 * q
@[reducible] def Reg.Q_CFG (p q : Nat) : Nat := 0x20010 + 0x4000 * p + 0x100 * q
@[reducible] def Reg.Q_SQ_TAIL (p q : Nat) : Nat := 0x20014 + 0x4000 * p + 0x100 * q
@[reducible] def Reg.Q_SQ_HEAD (p q : Nat) : Nat := 0x20018 + 0x4000 * p + 0x100 * q
@[reducible] def Reg.Q_RQ_HEAD (p q : Nat) : Nat := 0x2001c + 0x4000 * p + 0x100 * q
@[reducible] def Reg.Q_RQ_TAIL (p q : Nat) : Nat := 0x20020 + 0x4000 * p + 0x100 * q
@[reducible] def Reg.Q_STATUS (p q : Nat) : Nat := 0x20024 + 0x4000 * p + 0x100 * q
@[reducible] def Reg.Q_IN_FLIGHT (p q : Nat) : Nat := 0x20028 + 0x4000 * p + 0x100 * q
@[reducible] def Reg.Q_FETCHED (p q : Nat) : Nat := 0x2002c + 0x4000 * p + 0x100 * q
@[reducible] def Reg.Q_REPLIED (p q : Nat) : Nat := 0x20030 + 0x4000 * p + 0x100 * q
@[reducible] def Reg.PORT_CMD (p : Nat) : Nat := 0x22000 + 0x4000 * p
@[reducible] def Reg.PORT_QFULL (p : Nat) : Nat := 0x22004 + 0x4000 * p
@[reducible] def Reg.PORT_RESET_ENDED (p : Nat) : Nat := 0x22008 + 0x4000 * p
@[reducible] def Reg.PORT_B2_BASE (p : Nat) : Nat := 0x22010 + 0x4000 * p
@[reducible] def Reg.PORT_LINK (p : Nat) : Nat := 0x22018 + 0x4000 * p
@[reducible] def Reg.PORT_CPL_TIMEOUT (p : Nat) : Nat := 0x2201c + 0x4000 * p
@[reducible] def Reg.PORT_RX_POISONED (p : Nat) : Nat := 0x22020 + 0x4000 * p
@[reducible] def Reg.PORT_UR_SENT (p : Nat) : Nat := 0x22024 + 0x4000 * p
@[reducible] def Reg.PORT_PORT_RESETS (p : Nat) : Nat := 0x22028 + 0x4000 * p
@[reducible] def Reg.PORT_RESET_CAUSE (p : Nat) : Nat := 0x2202c + 0x4000 * p
@[reducible] def Reg.COMPUTE : Nat := 0x28000
@[reducible] def Reg.COMPUTE_RESETS : Nat := 0x28004
@[reducible] def Reg.LAST_CAUSE : Nat := 0x28008
@[reducible] def Reg.JOB (i : Nat) : Nat := 0x28100 + 0x4 * i
@[reducible] def Reg.BOOT_STATE : Nat := 0x28200
@[reducible] def Reg.BOOT_FW_SVN : Nat := 0x28204
@[reducible] def Reg.BOOT_FW_VERSION : Nat := 0x28208
@[reducible] def Reg.BOOT_FW_AUTH_FAIL : Nat := 0x2820c
@[reducible] def Reg.BOOT_JOB_AUTH_FAIL : Nat := 0x28210
@[reducible] def Reg.BOOT_KEYS : Nat := 0x28214
@[reducible] def Reg.BOOT_ZERO : Nat := 0x28218
@[reducible] def Reg.BOOT_ZERO_BLOCKED : Nat := 0x2821c
@[reducible] def Reg.BOOT_SERIAL : Nat := 0x28220
@[reducible] def Reg.BOOT_FW_DIGEST (i : Nat) : Nat := 0x28240 + 0x4 * i
@[reducible] def Reg.SLOT_RING (c : Nat) : Nat := 0x2c000 + 0x100 * c
@[reducible] def Reg.SLOT_TAIL (c : Nat) : Nat := 0x2c008 + 0x100 * c
@[reducible] def Reg.SLOT_HEAD (c : Nat) : Nat := 0x2c00c + 0x100 * c
@[reducible] def Reg.SLOT_DONE (c : Nat) : Nat := 0x2c010 + 0x100 * c
@[reducible] def Reg.SLOT_STATE (c : Nat) : Nat := 0x2c014 + 0x100 * c
@[reducible] def Reg.SLOT_ACTIVE (c : Nat) : Nat := 0x2c018 + 0x100 * c
@[reducible] def Reg.SLOT_CONSUMED (c : Nat) : Nat := 0x2c01c + 0x100 * c
@[reducible] def Reg.SLOT_REPLIED (c : Nat) : Nat := 0x2c020 + 0x100 * c
@[reducible] def Reg.SLOT_LATE (c : Nat) : Nat := 0x2c024 + 0x100 * c
@[reducible] def Reg.SLOT_NOCFG (c : Nat) : Nat := 0x2c028 + 0x100 * c
@[reducible] def Reg.SLOT_STALE (c : Nat) : Nat := 0x2c02c + 0x100 * c
@[reducible] def Reg.TGT_CTRL (t : Nat) : Nat := 0x40000 + 0x400 * t
@[reducible] def Reg.TGT_STATUS (t : Nat) : Nat := 0x40004 + 0x400 * t
@[reducible] def Reg.TGT_EOI (t : Nat) : Nat := 0x40008 + 0x400 * t
@[reducible] def Reg.TGT_STACK (t : Nat) : Nat := 0x40010 + 0x400 * t
@[reducible] def Reg.TGT_PRIV_PEND (t : Nat) : Nat := 0x40018 + 0x400 * t
@[reducible] def Reg.TGT_PRIV_EN (t : Nat) : Nat := 0x40020 + 0x400 * t
@[reducible] def Reg.TGT_SH_SUM (t : Nat) : Nat := 0x40028 + 0x400 * t
@[reducible] def Reg.TGT_PRIV_LEVEL (t k : Nat) : Nat := 0x40040 + 0x400 * t + 0x4 * k
@[reducible] def Reg.TGT_COAL (t v : Nat) : Nat := 0x40080 + 0x400 * t + 0x4 * v
@[reducible] def Reg.TGT_DELIVERED (t : Nat) : Nat := 0x400c0 + 0x400 * t
@[reducible] def Reg.TGT_MERGED (t : Nat) : Nat := 0x400c4 + 0x400 * t
@[reducible] def Reg.TGT_STACK_ORDER (t : Nat) : Nat := 0x400c8 + 0x400 * t
@[reducible] def Reg.ICN_SH_PEND (w : Nat) : Nat := 0x44000 + 0x4 * w
@[reducible] def Reg.ICN_SH_EN (w : Nat) : Nat := 0x44100 + 0x4 * w
@[reducible] def Reg.ICN_SWSET : Nat := 0x44200
@[reducible] def Reg.ICN_ROUTE (s : Nat) : Nat := 0x48000 + 0x4 * s
@[reducible] def Reg.SYN_INIT_TOTAL : Nat := 0x80000
@[reducible] def Reg.SYN_SIG_TOTAL : Nat := 0x80008
@[reducible] def Reg.SYN_TAKE_TOTAL : Nat := 0x80010
@[reducible] def Reg.SYN_RETIRED_TOTAL : Nat := 0x80018
@[reducible] def Reg.SYN_COUNT_SUM : Nat := 0x80020
@[reducible] def Reg.SYN_DL_MISS : Nat := 0x80040
@[reducible] def Reg.SYN_SIG_REFUSED : Nat := 0x80044
@[reducible] def Reg.SYN_OBJ_W0 (i : Nat) : Nat := 0xc0000 + 0x10 * i
@[reducible] def Reg.SYN_OBJ_W1 (i : Nat) : Nat := 0xc0004 + 0x10 * i
@[reducible] def Reg.SYN_OBJ_W2 (i : Nat) : Nat := 0xc0008 + 0x10 * i
@[reducible] def Reg.SYN_OBJ_W3 (i : Nat) : Nat := 0xc000c + 0x10 * i
@[reducible] def Reg.TSU_CTRL : Nat := 0x100000
@[reducible] def Reg.TSU_STATUS : Nat := 0x100004
@[reducible] def Reg.TSU_TIME_SEC : Nat := 0x100008
@[reducible] def Reg.TSU_TIME_NS : Nat := 0x100010
@[reducible] def Reg.TSU_TIME_FRAC : Nat := 0x100014
@[reducible] def Reg.TSU_ELAPSED : Nat := 0x100018
@[reducible] def Reg.TSU_RATE : Nat := 0x100020
@[reducible] def Reg.TSU_AVG_RATE : Nat := 0x100024
@[reducible] def Reg.TSU_RATE_MAX : Nat := 0x100028
@[reducible] def Reg.TSU_KP : Nat := 0x10002c
@[reducible] def Reg.TSU_KI : Nat := 0x100030
@[reducible] def Reg.TSU_STEP_THRESH : Nat := 0x100034
@[reducible] def Reg.TSU_LOCK_THRESH : Nat := 0x100038
@[reducible] def Reg.TSU_HOLD_AFTER : Nat := 0x10003c
@[reducible] def Reg.TSU_OFFSET : Nat := 0x100040
@[reducible] def Reg.TSU_PPS_IN_TS : Nat := 0x100048
@[reducible] def Reg.TSU_PPS_CFG : Nat := 0x100050
@[reducible] def Reg.TSU_TOD_CFG : Nat := 0x100054
@[reducible] def Reg.TSU_SYNCE : Nat := 0x100058
@[reducible] def Reg.TSU_CAR (c : Nat) : Nat := 0x100060 + 0x8 * c
@[reducible] def Reg.TSU_TXON (n : Nat) : Nat := 0x1000a0 + 0x4 * n
@[reducible] def Reg.TSU_ASYM (m : Nat) : Nat := 0x1000c0 + 0x4 * m
@[reducible] def Reg.TSU_LATE_LAUNCH : Nat := 0x100100
@[reducible] def Reg.TSU_SHORT_LEAD : Nat := 0x100104
@[reducible] def Reg.TSU_TICK_SKIPPED : Nat := 0x100108
@[reducible] def Reg.TSU_STEPS : Nat := 0x10010c
@[reducible] def Reg.TSU_HOLDOVERS : Nat := 0x100110
@[reducible] def Reg.TSU_TXON_LATE : Nat := 0x100114
@[reducible] def Reg.TSU_TOD_BAD : Nat := 0x100118
@[reducible] def Reg.TSU_LQ (m : Nat) : Nat := 0x100140 + 0x4 * m
@[reducible] def Reg.SAF_STATUS : Nat := 0x110000
@[reducible] def Reg.SAF_CFG_CRC : Nat := 0x110004
@[reducible] def Reg.SAF_ARRAY_DOUBT (k : Nat) : Nat := 0x110008 + 0x4 * k
@[reducible] def Reg.SAF_FB_FAULT : Nat := 0x110014
@[reducible] def Reg.SAF_CB_IN_USE : Nat := 0x110018
@[reducible] def Reg.SAF_SUP_LAST : Nat := 0x11001c
@[reducible] def Reg.SAF_TAKEOVER_MAX : Nat := 0x110020
@[reducible] def Reg.SAF_FB_OFF_ARM : Nat := 0x110024
@[reducible] def Reg.SAF_DOUBT_CNT (b : Nat) : Nat := 0x110040 + 0x4 * b
@[reducible] def Reg.SAF_LEARNED_REL : Nat := 0x110080
@[reducible] def Reg.SAF_FB_REL : Nat := 0x110084
@[reducible] def Reg.SAF_NOT_DECODED : Nat := 0x110088
@[reducible] def Reg.SAF_LATE_DISCARD : Nat := 0x11008c
@[reducible] def Reg.SAF_SUP_VIOL : Nat := 0x110090
@[reducible] def Reg.SAF_FB_FAULTS : Nat := 0x110094
@[reducible] def Reg.FFD_STATUS : Nat := 0x120000
@[reducible] def Reg.FFD_HIST_BASE : Nat := 0x120008
@[reducible] def Reg.FFD_KEYS : Nat := 0x120010
@[reducible] def Reg.FFD_KEY_FULL : Nat := 0x120014
@[reducible] def Reg.FFD_SECTIONS : Nat := 0x120040
@[reducible] def Reg.FFD_FROZEN : Nat := 0x120044
@[reducible] def Reg.FFD_CONSTANT : Nat := 0x120048
@[reducible] def Reg.FFD_SEQ_ERR : Nat := 0x12004c
@[reducible] def Reg.FFD_MISSING : Nat := 0x120050
@[reducible] def Reg.FFD_LAST : Nat := 0x120054
@[reducible] def Reg.KAT_STATUS : Nat := 0x130000
@[reducible] def Reg.KAT_FENCED (k : Nat) : Nat := 0x130004 + 0x4 * k
@[reducible] def Reg.KAT_FENCED_VE : Nat := 0x130010
@[reducible] def Reg.KAT_FENCED_OTHER : Nat := 0x130014
@[reducible] def Reg.KAT_TRANSIENT : Nat := 0x130040
@[reducible] def Reg.KAT_CHECKER_FAULTS : Nat := 0x130044
@[reducible] def Reg.KAT_ARRAY_FAULTS : Nat := 0x130048
@[reducible] def Reg.KAT_SLICES : Nat := 0x13004c
@[reducible] def Reg.KAT_SLICES_ABORTED : Nat := 0x130050
@[reducible] def Reg.KAT_OVERDUE_OTHER : Nat := 0x130054
@[reducible] def Reg.KAT_ARRAY (n : Nat) : Nat := 0x130100 + 0x4 * n
@[reducible] def Reg.KAT_VE (n : Nat) : Nat := 0x130300 + 0x4 * n
@[reducible] def Reg.CAL_CTRL : Nat := 0x140000
@[reducible] def Reg.CAL_STATUS : Nat := 0x140004
@[reducible] def Reg.CAL_SEASON : Nat := 0x140008
@[reducible] def Reg.CAL_STAGED : Nat := 0x14000c
@[reducible] def Reg.CAL_WINDOW : Nat := 0x140010
@[reducible] def Reg.CAL_KSIG : Nat := 0x140014
@[reducible] def Reg.CAL_SHADOW_MIN : Nat := 0x140018
@[reducible] def Reg.CAL_RANGE : Nat := 0x14001c
@[reducible] def Reg.CAL_RANGE_CLEAR : Nat := 0x140020
@[reducible] def Reg.CAL_LIM_DC : Nat := 0x140024
@[reducible] def Reg.CAL_LIM_IQ : Nat := 0x140028
@[reducible] def Reg.CAL_LIM_GAIN : Nat := 0x14002c
@[reducible] def Reg.CAL_LIM_DC_RES : Nat := 0x140030
@[reducible] def Reg.CAL_LIM_IQ_RES : Nat := 0x140034
@[reducible] def Reg.CAL_LIM_GAIN_RES : Nat := 0x140038
@[reducible] def Reg.CAL_LIM_ACT : Nat := 0x14003c
@[reducible] def Reg.CAL_LAST_CHANGE : Nat := 0x140040
@[reducible] def Reg.CAL_DIGEST_CFG : Nat := 0x140048
@[reducible] def Reg.CAL_GROUP : Nat := 0x14004c
@[reducible] def Reg.CAL_ADAPT_STEP_NO : Nat := 0x140050
@[reducible] def Reg.CAL_RETAINED : Nat := 0x140054
@[reducible] def Reg.CAL_STATS_DROPPED : Nat := 0x140060
@[reducible] def Reg.CAL_STAGE_REFUSED : Nat := 0x140064
@[reducible] def Reg.CAL_RANGE_EVENTS : Nat := 0x140068
@[reducible] def Reg.CAL_COMP_SAT : Nat := 0x14006c
@[reducible] def Reg.CAL_ADAPT_SAT : Nat := 0x140070
@[reducible] def Reg.CAL_EXPULSIONS : Nat := 0x140074
@[reducible] def Reg.CAL_SHADOW_SLOTS : Nat := 0x140078
@[reducible] def Reg.CAL_DIGEST (i : Nat) : Nat := 0x140080 + 0x4 * i
@[reducible] def Reg.DET_CTRL : Nat := 0x150000
@[reducible] def Reg.DET_STATUS : Nat := 0x150004
@[reducible] def Reg.DET_BEAT : Nat := 0x150008
@[reducible] def Reg.DET_ORIGIN_TIME : Nat := 0x150010
@[reducible] def Reg.DET_REF_BEAT : Nat := 0x150018
@[reducible] def Reg.DET_TDC : Nat := 0x150020
@[reducible] def Reg.DET_TDC_VAL : Nat := 0x150024
@[reducible] def Reg.DET_LAST : Nat := 0x150028
@[reducible] def Reg.DET_TSIG : Nat := 0x15002c
@[reducible] def Reg.DET_SRC (i : Nat) : Nat := 0x150400 + 0x4 * i
@[reducible] def Reg.DET_XSIG (i : Nat) : Nat := 0x150800 + 0x4 * i
@[reducible] def Reg.PMU_STATE : Nat := 0x160000
@[reducible] def Reg.PMU_CTRL : Nat := 0x160004
@[reducible] def Reg.PMU_RETAIN_SSP : Nat := 0x160008
@[reducible] def Reg.PMU_DOMAIN_ON (k : Nat) : Nat := 0x160010 + 0x4 * k
@[reducible] def Reg.PMU_AVS_TARGET : Nat := 0x160028
@[reducible] def Reg.PMU_RESET_CAUSE : Nat := 0x16002c
@[reducible] def Reg.PMU_WARM_RESETS : Nat := 0x160040
@[reducible] def Reg.PMU_RETAIN_ENTRIES : Nat := 0x160044
@[reducible] def Reg.PMU_LAST_EXIT : Nat := 0x160048
@[reducible] def Reg.SUP_STATUS : Nat := 0x170000
@[reducible] def Reg.SUP_DIP_COUNT : Nat := 0x170004
@[reducible] def Reg.SUP_HOLD_MAX : Nat := 0x170008
@[reducible] def Reg.SUP_SUPPLY_RESETS : Nat := 0x17000c
@[reducible] def Reg.SUP_VCORE : Nat := 0x170010
@[reducible] def Reg.SUP_VSRAM : Nat := 0x170014
@[reducible] def Reg.SUP_OV_COUNT : Nat := 0x170018
@[reducible] def Reg.SUP_TEMP : Nat := 0x17001c
@[reducible] def Reg.SUP_TEMP_MAX : Nat := 0x170020
@[reducible] def Reg.DMMU_STATUS : Nat := 0x180000
@[reducible] def Reg.DMMU_TTB : Nat := 0x180008
@[reducible] def Reg.DMMU_EPOCH : Nat := 0x180010
@[reducible] def Reg.DMMU_EPOCH_MIN : Nat := 0x180014
@[reducible] def Reg.DMMU_RETIRING : Nat := 0x180018
@[reducible] def Reg.DMMU_FAULT_VA : Nat := 0x180020
@[reducible] def Reg.DMMU_FAULT : Nat := 0x180028
@[reducible] def Reg.DMMU_TB_MISS : Nat := 0x180040
@[reducible] def Reg.DMMU_WALKS : Nat := 0x180044
@[reducible] def Reg.DMMU_PINNED_N : Nat := 0x180048
@[reducible] def Reg.DMMU_FAULTS : Nat := 0x18004c
@[reducible] def Reg.DMMU_SSP_CE (b : Nat) : Nat := 0x180400 + 0x8 * b
@[reducible] def Reg.DMMU_SSP_UE (b : Nat) : Nat := 0x180404 + 0x8 * b
@[reducible] def Reg.DMMU_SSP_ON : Nat := 0x180580
@[reducible] def Reg.SDE_ID (n : Nat) : Nat := 0x200000 + 0x1000 * n
@[reducible] def Reg.SDE_TAGS (n : Nat) : Nat := 0x200004 + 0x1000 * n
@[reducible] def Reg.SDE_BYTES (n : Nat) : Nat := 0x200040 + 0x1000 * n
@[reducible] def Reg.SDE_DL_MISS (n : Nat) : Nat := 0x200044 + 0x1000 * n
@[reducible] def Reg.SDE_DESC_BAD (n : Nat) : Nat := 0x200048 + 0x1000 * n
@[reducible] def Reg.SDE_CR_STALL (n : Nat) : Nat := 0x20004c + 0x1000 * n
@[reducible] def Reg.SDE_CTX_STATE (n c : Nat) : Nat := 0x200100 + 0x1000 * n + 0x40 * c
@[reducible] def Reg.SDE_CTX_GEN (n c : Nat) : Nat := 0x200104 + 0x1000 * n + 0x40 * c
@[reducible] def Reg.SDE_CTX_PC (n c : Nat) : Nat := 0x200108 + 0x1000 * n + 0x40 * c
@[reducible] def Reg.SDE_CTX_CR_CFG (n c : Nat) : Nat := 0x20010c + 0x1000 * n + 0x40 * c
@[reducible] def Reg.SDE_CTX_CR_BASE (n c : Nat) : Nat := 0x200110 + 0x1000 * n + 0x40 * c
@[reducible] def Reg.SDE_CTX_CR_HEAD (n c : Nat) : Nat := 0x200118 + 0x1000 * n + 0x40 * c
@[reducible] def Reg.SDE_CTX_CR_TAIL (n c : Nat) : Nat := 0x20011c + 0x1000 * n + 0x40 * c
@[reducible] def Reg.SDE_CTX_PROG (n c : Nat) : Nat := 0x200120 + 0x1000 * n + 0x40 * c
@[reducible] def Reg.MA_ID (n : Nat) : Nat := 0x400000 + 0x4000 * n
@[reducible] def Reg.MA_STATUS (n : Nat) : Nat := 0x400004 + 0x4000 * n
@[reducible] def Reg.MA_SKEW (n : Nat) : Nat := 0x400008 + 0x4000 * n
@[reducible] def Reg.MA_LATENCY (n : Nat) : Nat := 0x40000c + 0x4000 * n
@[reducible] def Reg.MA_BIST (n : Nat) : Nat := 0x400010 + 0x4000 * n
@[reducible] def Reg.MA_PMODE (n : Nat) : Nat := 0x400014 + 0x4000 * n
@[reducible] def Reg.MA_SEQ_PC (n : Nat) : Nat := 0x400018 + 0x4000 * n
@[reducible] def Reg.MA_SEQ_FAULT (n : Nat) : Nat := 0x40001c + 0x4000 * n
@[reducible] def Reg.MA_SEQ_PPOINT (n : Nat) : Nat := 0x400020 + 0x4000 * n
@[reducible] def Reg.MA_QUEUE (n : Nat) : Nat := 0x400024 + 0x4000 * n
@[reducible] def Reg.MA_PASSES (n : Nat) : Nat := 0x400040 + 0x4000 * n
@[reducible] def Reg.MA_BUBBLES (n : Nat) : Nat := 0x400044 + 0x4000 * n
@[reducible] def Reg.MA_PAD_CYCLES (n : Nat) : Nat := 0x400048 + 0x4000 * n
@[reducible] def Reg.MA_FREEZE_WF (n : Nat) : Nat := 0x40004c + 0x4000 * n
@[reducible] def Reg.MA_FREEZE_DR (n : Nat) : Nat := 0x400050 + 0x4000 * n
@[reducible] def Reg.MA_CHK_MISMATCH (n : Nat) : Nat := 0x400054 + 0x4000 * n
@[reducible] def Reg.MA_CHK_LAST (n : Nat) : Nat := 0x400058 + 0x4000 * n
@[reducible] def Reg.MA_SEQ_S (n i : Nat) : Nat := 0x400100 + 0x4000 * n + 0x4 * i
@[reducible] def Reg.MA_PROG (n i : Nat) : Nat := 0x401000 + 0x4000 * n + 0x4 * i
@[reducible] def Reg.MA_DQ_MODE (n : Nat) : Nat := 0x403000 + 0x4000 * n
@[reducible] def Reg.MA_DQ_G (n : Nat) : Nat := 0x403004 + 0x4000 * n
@[reducible] def Reg.MA_DQ_H (n : Nat) : Nat := 0x403008 + 0x4000 * n
@[reducible] def Reg.MA_DQ_SOUT (n : Nat) : Nat := 0x40300c + 0x4000 * n
@[reducible] def Reg.MA_FMT_SUB7 (n : Nat) : Nat := 0x403010 + 0x4000 * n
@[reducible] def Reg.MA_FMT_BADTRIT (n : Nat) : Nat := 0x403014 + 0x4000 * n
@[reducible] def Reg.MA_DQ_SAT (n : Nat) : Nat := 0x403018 + 0x4000 * n
@[reducible] def Reg.MA_DQ_SCALE_CLAMP (n : Nat) : Nat := 0x40301c + 0x4000 * n
@[reducible] def Reg.MA_ACC_STATUS (n : Nat) : Nat := 0x403100 + 0x4000 * n
@[reducible] def Reg.MA_SPILL_CNT (n : Nat) : Nat := 0x403104 + 0x4000 * n
@[reducible] def Reg.MA_SPILLS (n : Nat) : Nat := 0x403108 + 0x4000 * n
@[reducible] def Reg.MA_OAB_OVF (n : Nat) : Nat := 0x40310c + 0x4000 * n
@[reducible] def Reg.MA_WAB_BADEXP (n : Nat) : Nat := 0x403110 + 0x4000 * n
@[reducible] def Reg.MA_WAB_ABANDON (n : Nat) : Nat := 0x403114 + 0x4000 * n
@[reducible] def Reg.MA_STATS_OVF (n : Nat) : Nat := 0x403118 + 0x4000 * n
@[reducible] def Reg.MA_WAB_SAT (n : Nat) : Nat := 0x40311c + 0x4000 * n
@[reducible] def Reg.MA_BIND_W0 (n i : Nat) : Nat := 0x403120 + 0x4000 * n + 0x8 * i
@[reducible] def Reg.MA_BIND_W1 (n i : Nat) : Nat := 0x403124 + 0x4000 * n + 0x8 * i
@[reducible] def Reg.MA_SWIN (n : Nat) : Nat := 0x403200 + 0x4000 * n
@[reducible] def Reg.MA_SBANK (n : Nat) : Nat := 0x403204 + 0x4000 * n
@[reducible] def Reg.MA_SSEASON (n : Nat) : Nat := 0x403208 + 0x4000 * n
@[reducible] def Reg.MA_LSP_CE (n : Nat) : Nat := 0x403300 + 0x4000 * n
@[reducible] def Reg.MA_LSP_UE (n : Nat) : Nat := 0x403304 + 0x4000 * n
@[reducible] def Reg.MA_OAB_CE (n : Nat) : Nat := 0x403308 + 0x4000 * n
@[reducible] def Reg.MA_OAB_UE (n : Nat) : Nat := 0x40330c + 0x4000 * n
@[reducible] def Reg.MA_LSP_ON (n : Nat) : Nat := 0x403310 + 0x4000 * n
@[reducible] def Reg.VE_ID (n : Nat) : Nat := 0x600000 + 0x4000 * n
@[reducible] def Reg.VE_STATUS (n : Nat) : Nat := 0x600004 + 0x4000 * n
@[reducible] def Reg.VE_PC (n : Nat) : Nat := 0x600008 + 0x4000 * n
@[reducible] def Reg.VE_FAULT (n : Nat) : Nat := 0x60000c + 0x4000 * n
@[reducible] def Reg.VE_VLEN (n : Nat) : Nat := 0x600010 + 0x4000 * n
@[reducible] def Reg.VE_XFER (n : Nat) : Nat := 0x600014 + 0x4000 * n
@[reducible] def Reg.VE_SEQ_PPOINT (n : Nat) : Nat := 0x600018 + 0x4000 * n
@[reducible] def Reg.VE_EVT_ISAT (n : Nat) : Nat := 0x600040 + 0x4000 * n
@[reducible] def Reg.VE_EVT_FOVF (n : Nat) : Nat := 0x600044 + 0x4000 * n
@[reducible] def Reg.VE_EVT_DIV0 (n : Nat) : Nat := 0x600048 + 0x4000 * n
@[reducible] def Reg.VE_EVT_NAN (n : Nat) : Nat := 0x60004c + 0x4000 * n
@[reducible] def Reg.VE_EVT_INF (n : Nat) : Nat := 0x600050 + 0x4000 * n
@[reducible] def Reg.VE_EVT_DOMAIN (n : Nat) : Nat := 0x600054 + 0x4000 * n
@[reducible] def Reg.VE_EVT_CVT_SAT (n : Nat) : Nat := 0x600058 + 0x4000 * n
@[reducible] def Reg.VE_EVT_CVT_NAN (n : Nat) : Nat := 0x60005c + 0x4000 * n
@[reducible] def Reg.VE_EVT_SCALE_CLAMP (n : Nat) : Nat := 0x600060 + 0x4000 * n
@[reducible] def Reg.VE_EVT_BADTRIT (n : Nat) : Nat := 0x600064 + 0x4000 * n
@[reducible] def Reg.VE_INSTR (n : Nat) : Nat := 0x600080 + 0x4000 * n
@[reducible] def Reg.VE_RES_MISMATCH (n : Nat) : Nat := 0x600084 + 0x4000 * n
@[reducible] def Reg.VE_RES_LAST (n : Nat) : Nat := 0x600088 + 0x4000 * n
@[reducible] def Reg.VE_X (n i : Nat) : Nat := 0x600100 + 0x4000 * n + 0x4 * i
@[reducible] def Reg.VE_MEM_CE (n : Nat) : Nat := 0x600180 + 0x4000 * n
@[reducible] def Reg.VE_MEM_UE (n : Nat) : Nat := 0x600184 + 0x4000 * n
@[reducible] def Reg.VE_PROG (n i : Nat) : Nat := 0x602000 + 0x4000 * n + 0x8 * i
@[reducible] def Reg.AE_ID (n : Nat) : Nat := 0x680000 + 0x4000 * n
@[reducible] def Reg.AE_STATUS (n : Nat) : Nat := 0x680004 + 0x4000 * n
@[reducible] def Reg.AE_RING_BASE (n : Nat) : Nat := 0x680008 + 0x4000 * n
@[reducible] def Reg.AE_RING_CFG (n : Nat) : Nat := 0x68000c + 0x4000 * n
@[reducible] def Reg.AE_RING_HEAD (n : Nat) : Nat := 0x680010 + 0x4000 * n
@[reducible] def Reg.AE_CUR (n : Nat) : Nat := 0x680014 + 0x4000 * n
@[reducible] def Reg.AE_FAULT (n : Nat) : Nat := 0x680018 + 0x4000 * n
@[reducible] def Reg.AE_STEPS (n : Nat) : Nat := 0x680040 + 0x4000 * n
@[reducible] def Reg.AE_PAGES (n : Nat) : Nat := 0x680044 + 0x4000 * n
@[reducible] def Reg.AE_PAGE_FAIL (n : Nat) : Nat := 0x680048 + 0x4000 * n
@[reducible] def Reg.AE_NAN_SCORES (n : Nat) : Nat := 0x68004c + 0x4000 * n
@[reducible] def Reg.AE_ALL_MASKED (n : Nat) : Nat := 0x680050 + 0x4000 * n
@[reducible] def Reg.AE_INF_ROWS (n : Nat) : Nat := 0x680054 + 0x4000 * n
@[reducible] def Reg.AE_KV_SAT (n : Nat) : Nat := 0x680058 + 0x4000 * n
@[reducible] def Reg.AE_EVICTIONS (n : Nat) : Nat := 0x68005c + 0x4000 * n
@[reducible] def Reg.AE_EDITS_HELD (n : Nat) : Nat := 0x680060 + 0x4000 * n
@[reducible] def Reg.AE_STEP_BAD (n : Nat) : Nat := 0x680064 + 0x4000 * n
@[reducible] def Reg.AE0_KV_BASE : Nat := 0x683000
@[reducible] def Reg.AE0_KV_SEQ_BASE : Nat := 0x683008
@[reducible] def Reg.AE0_KV_POOL_TOTAL : Nat := 0x683010
@[reducible] def Reg.AE0_KV_FREE : Nat := 0x683014
@[reducible] def Reg.AE0_KV_MAPPED : Nat := 0x683018
@[reducible] def Reg.AE0_KV_RETIRING : Nat := 0x68301c
@[reducible] def Reg.AE0_KV_REMOTE : Nat := 0x683020
@[reducible] def Reg.AE0_KV_ACTIVE : Nat := 0x683024
@[reducible] def Reg.AE0_KV_TICK_SRC : Nat := 0x683028
@[reducible] def Reg.AE0_KV_ACTIVE_REFUSED : Nat := 0x68302c
@[reducible] def Reg.AE0_KV_POOL_EMPTY : Nat := 0x683030
@[reducible] def Reg.EGU_STATUS (n : Nat) : Nat := 0x6a0000 + 0x4000 * n
@[reducible] def Reg.EGU_RING_BASE (n : Nat) : Nat := 0x6a0008 + 0x4000 * n
@[reducible] def Reg.EGU_RING_CFG (n : Nat) : Nat := 0x6a000c + 0x4000 * n
@[reducible] def Reg.EGU_RING_HEAD (n : Nat) : Nat := 0x6a0010 + 0x4000 * n
@[reducible] def Reg.EGU_GATHERS (n : Nat) : Nat := 0x6a0040 + 0x4000 * n
@[reducible] def Reg.EGU_OOR (n : Nat) : Nat := 0x6a0044 + 0x4000 * n
@[reducible] def Reg.EGU_BATCH_BAD (n : Nat) : Nat := 0x6a0048 + 0x4000 * n
@[reducible] def Reg.DSC_ID (n : Nat) : Nat := 0x700000 + 0x10000 * n
@[reducible] def Reg.DSC_STATUS (n : Nat) : Nat := 0x700004 + 0x10000 * n
@[reducible] def Reg.DSC_CORE_FAULT (n c : Nat) : Nat := 0x700008 + 0x10000 * n + 0x4 * c
@[reducible] def Reg.DSC_ACC_SAT (n : Nat) : Nat := 0x700040 + 0x10000 * n
@[reducible] def Reg.DSC_STREAM_STALL (n : Nat) : Nat := 0x700044 + 0x10000 * n
@[reducible] def Reg.DSC_FFT_DONE (n : Nat) : Nat := 0x700048 + 0x10000 * n
@[reducible] def Reg.DSC_PRECODE_SAT (n : Nat) : Nat := 0x70004c + 0x10000 * n
@[reducible] def Reg.DSC_PUCCH_DTX (n : Nat) : Nat := 0x700050 + 0x10000 * n
@[reducible] def Reg.DSC_SWIN (n : Nat) : Nat := 0x700080 + 0x10000 * n
@[reducible] def Reg.DSC_SBANK (n : Nat) : Nat := 0x700084 + 0x10000 * n
@[reducible] def Reg.DSC_SSEASON (n : Nat) : Nat := 0x700088 + 0x10000 * n
@[reducible] def Reg.DSC_MEM_CE (n : Nat) : Nat := 0x700090 + 0x10000 * n
@[reducible] def Reg.DSC_MEM_UE (n : Nat) : Nat := 0x700094 + 0x10000 * n
@[reducible] def Reg.DSC_MEM_ON (n : Nat) : Nat := 0x700098 + 0x10000 * n
@[reducible] def Reg.DEC_LDPC_CFG (n : Nat) : Nat := 0x800000 + 0x100 * n
@[reducible] def Reg.DEC_LDPC_CB_DONE (n : Nat) : Nat := 0x800004 + 0x100 * n
@[reducible] def Reg.DEC_LDPC_CB_CRC_FAIL (n : Nat) : Nat := 0x800008 + 0x100 * n
@[reducible] def Reg.DEC_LDPC_ITER_SUM (n : Nat) : Nat := 0x80000c + 0x100 * n
@[reducible] def Reg.DEC_LDPC_MAX_ITER_HIT (n : Nat) : Nat := 0x800010 + 0x100 * n
@[reducible] def Reg.DEC_LDPC_HARQ_SAT (n : Nat) : Nat := 0x800014 + 0x100 * n
@[reducible] def Reg.DEC_LDPC_HARQ_MISMATCH (n : Nat) : Nat := 0x800018 + 0x100 * n
@[reducible] def Reg.DEC_LDPC_LLR_M128 (n : Nat) : Nat := 0x80001c + 0x100 * n
@[reducible] def Reg.DEC_POL_CB_DONE (n : Nat) : Nat := 0x801000 + 0x100 * n
@[reducible] def Reg.DEC_POL_CRC_FAIL (n : Nat) : Nat := 0x801004 + 0x100 * n
@[reducible] def Reg.DEC_POL_LLR_M128 (n : Nat) : Nat := 0x801008 + 0x100 * n
@[reducible] def Reg.DEC_LENC_CB_ENC (n : Nat) : Nat := 0x802000 + 0x100 * n
@[reducible] def Reg.DEC_ALLOC_BAD : Nat := 0x803000
@[reducible] def Reg.DEC_RAMP (p : Nat) : Nat := 0x803100 + 0x4 * p
@[reducible] def Reg.FHP_CFG (n : Nat) : Nat := 0x900000 + 0x4000 * n
@[reducible] def Reg.FHP_STATUS (n : Nat) : Nat := 0x900004 + 0x4000 * n
@[reducible] def Reg.FHP_EAXC_FMT (n : Nat) : Nat := 0x900008 + 0x4000 * n
@[reducible] def Reg.FHP_HRING (n : Nat) : Nat := 0x900010 + 0x4000 * n
@[reducible] def Reg.FHP_HR_HEAD (n : Nat) : Nat := 0x900018 + 0x4000 * n
@[reducible] def Reg.FHP_HR_TAIL (n : Nat) : Nat := 0x90001c + 0x4000 * n
@[reducible] def Reg.FHP_RX_FRAMES (n : Nat) : Nat := 0x900040 + 0x4000 * n
@[reducible] def Reg.FHP_RX_DROP (n : Nat) : Nat := 0x900044 + 0x4000 * n
@[reducible] def Reg.FHP_CLS_NOMATCH (n : Nat) : Nat := 0x900048 + 0x4000 * n
@[reducible] def Reg.FHP_ECPRI_BAD (n : Nat) : Nat := 0x90004c + 0x4000 * n
@[reducible] def Reg.FHP_SECT_BAD (n : Nat) : Nat := 0x900050 + 0x4000 * n
@[reducible] def Reg.FHP_RX_EARLY (n : Nat) : Nat := 0x900054 + 0x4000 * n
@[reducible] def Reg.FHP_RX_LATE (n : Nat) : Nat := 0x900058 + 0x4000 * n
@[reducible] def Reg.FHP_HOST_DROP (n : Nat) : Nat := 0x90005c + 0x4000 * n
@[reducible] def Reg.FHP_TX_FRAMES (n : Nat) : Nat := 0x900060 + 0x4000 * n
@[reducible] def Reg.FHP_RX_FCS (n : Nat) : Nat := 0x900064 + 0x4000 * n
@[reducible] def Reg.FHP_CLS (n i : Nat) : Nat := 0x901000 + 0x4000 * n + 0x8 * i
@[reducible] def Reg.FHP0_CAR_CFG (c : Nat) : Nat := 0x903000 + 0x10 * c
@[reducible] def Reg.FHP0_CAR_RXWIN (c : Nat) : Nat := 0x903004 + 0x10 * c
@[reducible] def Reg.FHP0_CAR_ADV (c : Nat) : Nat := 0x903008 + 0x10 * c
@[reducible] def Reg.FHP0_CAR_VLAN (c : Nat) : Nat := 0x90300c + 0x10 * c
@[reducible] def Reg.ILP_CFG (n : Nat) : Nat := 0xa00000 + 0x4000 * n
@[reducible] def Reg.ILP_PCP (n : Nat) : Nat := 0xa00004 + 0x4000 * n
@[reducible] def Reg.ILP_STATUS (n : Nat) : Nat := 0xa00008 + 0x4000 * n
@[reducible] def Reg.ILP_RTO (n : Nat) : Nat := 0xa0000c + 0x4000 * n
@[reducible] def Reg.ILP_TAGS (n : Nat) : Nat := 0xa00010 + 0x4000 * n
@[reducible] def Reg.ILP_CR_POOL (n v : Nat) : Nat := 0xa00020 + 0x4000 * n + 0x10 * v
@[reducible] def Reg.ILP_CR_FREE (n v : Nat) : Nat := 0xa00024 + 0x4000 * n + 0x10 * v
@[reducible] def Reg.ILP_CR_GRANTED (n v : Nat) : Nat := 0xa00028 + 0x4000 * n + 0x10 * v
@[reducible] def Reg.ILP_CR_BUSY (n v : Nat) : Nat := 0xa0002c + 0x4000 * n + 0x10 * v
@[reducible] def Reg.ILP_CR_CAP (n v : Nat) : Nat := 0xa00060 + 0x4000 * n + 0x4 * v
@[reducible] def Reg.ILP_TX_PKTS (n : Nat) : Nat := 0xa00080 + 0x4000 * n
@[reducible] def Reg.ILP_RX_PKTS (n : Nat) : Nat := 0xa00084 + 0x4000 * n
@[reducible] def Reg.ILP_RETX (n : Nat) : Nat := 0xa00088 + 0x4000 * n
@[reducible] def Reg.ILP_PATH_FAIL (n : Nat) : Nat := 0xa0008c + 0x4000 * n
@[reducible] def Reg.ILP_STALE_EPOCH (n : Nat) : Nat := 0xa00090 + 0x4000 * n
@[reducible] def Reg.ILP_WIN_BAD (n : Nat) : Nat := 0xa00094 + 0x4000 * n
@[reducible] def Reg.ILP_WIN_CLOSED_DROP (n : Nat) : Nat := 0xa00098 + 0x4000 * n
@[reducible] def Reg.ILP_PFC_RX (n : Nat) : Nat := 0xa0009c + 0x4000 * n
@[reducible] def Reg.ILP_FCS_ERR (n : Nat) : Nat := 0xa000a0 + 0x4000 * n
@[reducible] def Reg.ILP_WCLOSE_LAST (n : Nat) : Nat := 0xa000c0 + 0x4000 * n
@[reducible] def Reg.ILP_ROUTE (k : Nat) : Nat := 0xa01000 + 0x4 * k
@[reducible] def Reg.ILP_ROSTER (g k : Nat) : Nat := 0xa01800 + 0x200 * g + 0x4 * k
@[reducible] def Reg.ILP_DEVICE_ID : Nat := 0xa02000
@[reducible] def Reg.ILP_MAC_PREFIX : Nat := 0xa02004
@[reducible] def Reg.ILP_ETHERTYPE : Nat := 0xa02008
@[reducible] def Reg.ILP_CTRL_TIMEOUT : Nat := 0xa0200c
@[reducible] def Reg.ILP_GROUP (g : Nat) : Nat := 0xa02010 + 0x4 * g
@[reducible] def Reg.ILP_GROUP_EPOCH (g : Nat) : Nat := 0xa02020 + 0x4 * g
@[reducible] def Reg.FW_REGION_BASE (i : Nat) : Nat := 0xb00000 + 0x20 * i
@[reducible] def Reg.FW_REGION_LIMIT (i : Nat) : Nat := 0xb00008 + 0x20 * i
@[reducible] def Reg.FW_REGION_RMASK (i : Nat) : Nat := 0xb00010 + 0x20 * i
@[reducible] def Reg.FW_REGION_WMASK (i : Nat) : Nat := 0xb00018 + 0x20 * i
@[reducible] def Reg.FW_DEFAULT_RMASK : Nat := 0xb02000
@[reducible] def Reg.FW_DEFAULT_WMASK : Nat := 0xb02008
@[reducible] def Reg.FW_LOCK : Nat := 0xb02010
@[reducible] def Reg.FW_REFUSED : Nat := 0xb02014
@[reducible] def Reg.FW_LAST : Nat := 0xb02018
@[reducible] def Reg.FW_LAST_ADDR : Nat := 0xb02020
@[reducible] def Reg.LOG_CTRL : Nat := 0xc00000
@[reducible] def Reg.LOG_NEXT_SEQ : Nat := 0xc00004
@[reducible] def Reg.LOG_OLDEST_SEQ : Nat := 0xc00008
@[reducible] def Reg.LOG_OVERWRITTEN : Nat := 0xc0000c
@[reducible] def Reg.LOG_STICKY_COUNT : Nat := 0xc00010
@[reducible] def Reg.LOG_STICKY_LOST : Nat := 0xc00014
@[reducible] def Reg.MEMC_CE (c : Nat) : Nat := 0x1000000 + 0x100 * c
@[reducible] def Reg.MEMC_UE (c : Nat) : Nat := 0x1000004 + 0x100 * c
@[reducible] def Reg.MEMC_POISONED (c : Nat) : Nat := 0x1000008 + 0x100 * c
@[reducible] def Reg.MEMC_SCRUB_PASSES (c : Nat) : Nat := 0x100000c + 0x100 * c
@[reducible] def Reg.MEMC_LAST_UE (c : Nat) : Nat := 0x1000010 + 0x100 * c
@[reducible] def Reg.SCRUB_CFG : Nat := 0x1004000
@[reducible] def Reg.USABLE : Nat := 0x1004004

/-! Register fields, named BLOCK_REGISTER_FIELD. -/

@[reducible] def Fd.SEM_CLAIM_GRANTED (i : Nat) : Fld := ⟨Reg.SEM_CLAIM i, 31, 31⟩
@[reducible] def Fd.SEM_CLAIM_TIE_LOST (i : Nat) : Fld := ⟨Reg.SEM_CLAIM i, 30, 30⟩
@[reducible] def Fd.SEM_CLAIM_HOLDER (i : Nat) : Fld := ⟨Reg.SEM_CLAIM i, 1, 0⟩
@[reducible] def Fd.SEM_HELD_HP0_SEMS : Fld := ⟨Reg.SEM_HELD_HP0, 63, 0⟩
@[reducible] def Fd.SEM_HELD_HP1_SEMS : Fld := ⟨Reg.SEM_HELD_HP1, 63, 0⟩
@[reducible] def Fd.SEM_WANT_HP0_SEMS : Fld := ⟨Reg.SEM_WANT_HP0, 63, 0⟩
@[reducible] def Fd.SEM_WANT_HP1_SEMS : Fld := ⟨Reg.SEM_WANT_HP1, 63, 0⟩
@[reducible] def Fd.SEM_TIE_NEXT : Fld := ⟨Reg.SEM_TIE, 63, 0⟩
@[reducible] def Fd.SEM_CLAIMS_COUNT : Fld := ⟨Reg.SEM_CLAIMS, 31, 0⟩
@[reducible] def Fd.SEM_TIES_COUNT : Fld := ⟨Reg.SEM_TIES, 31, 0⟩
@[reducible] def Fd.SEM_RESET_RELEASES_COUNT : Fld := ⟨Reg.SEM_RESET_RELEASES, 31, 0⟩
@[reducible] def Fd.Q_SQ_BASE_ADDR (p q : Nat) : Fld := ⟨Reg.Q_SQ_BASE p q, 63, 6⟩
@[reducible] def Fd.Q_RQ_BASE_ADDR (p q : Nat) : Fld := ⟨Reg.Q_RQ_BASE p q, 63, 6⟩
@[reducible] def Fd.Q_CFG_ENABLE (p q : Nat) : Fld := ⟨Reg.Q_CFG p q, 31, 31⟩
@[reducible] def Fd.Q_CFG_LOG2N (p q : Nat) : Fld := ⟨Reg.Q_CFG p q, 3, 0⟩
@[reducible] def Fd.Q_SQ_TAIL_INDEX (p q : Nat) : Fld := ⟨Reg.Q_SQ_TAIL p q, 11, 0⟩
@[reducible] def Fd.Q_SQ_HEAD_INDEX (p q : Nat) : Fld := ⟨Reg.Q_SQ_HEAD p q, 11, 0⟩
@[reducible] def Fd.Q_RQ_HEAD_INDEX (p q : Nat) : Fld := ⟨Reg.Q_RQ_HEAD p q, 11, 0⟩
@[reducible] def Fd.Q_RQ_TAIL_PHASE (p q : Nat) : Fld := ⟨Reg.Q_RQ_TAIL p q, 31, 31⟩
@[reducible] def Fd.Q_RQ_TAIL_INDEX (p q : Nat) : Fld := ⟨Reg.Q_RQ_TAIL p q, 11, 0⟩
@[reducible] def Fd.Q_STATUS_DRAINED (p q : Nat) : Fld := ⟨Reg.Q_STATUS p q, 2, 2⟩
@[reducible] def Fd.Q_STATUS_HELD (p q : Nat) : Fld := ⟨Reg.Q_STATUS p q, 1, 1⟩
@[reducible] def Fd.Q_STATUS_BAD_DB (p q : Nat) : Fld := ⟨Reg.Q_STATUS p q, 0, 0⟩
@[reducible] def Fd.Q_IN_FLIGHT_COUNT (p q : Nat) : Fld := ⟨Reg.Q_IN_FLIGHT p q, 10, 0⟩
@[reducible] def Fd.Q_FETCHED_COUNT (p q : Nat) : Fld := ⟨Reg.Q_FETCHED p q, 31, 0⟩
@[reducible] def Fd.Q_REPLIED_COUNT (p q : Nat) : Fld := ⟨Reg.Q_REPLIED p q, 31, 0⟩
@[reducible] def Fd.PORT_CMD_IN_FLIGHT (p : Nat) : Fld := ⟨Reg.PORT_CMD p, 26, 16⟩
@[reducible] def Fd.PORT_CMD_FREE (p : Nat) : Fld := ⟨Reg.PORT_CMD p, 10, 0⟩
@[reducible] def Fd.PORT_QFULL_COUNT (p : Nat) : Fld := ⟨Reg.PORT_QFULL p, 31, 0⟩
@[reducible] def Fd.PORT_RESET_ENDED_COUNT (p : Nat) : Fld := ⟨Reg.PORT_RESET_ENDED p, 31, 0⟩
@[reducible] def Fd.PORT_B2_BASE_BASE (p : Nat) : Fld := ⟨Reg.PORT_B2_BASE p, 39, 30⟩
@[reducible] def Fd.PORT_LINK_UP (p : Nat) : Fld := ⟨Reg.PORT_LINK p, 31, 31⟩
@[reducible] def Fd.PORT_LINK_SPEED (p : Nat) : Fld := ⟨Reg.PORT_LINK p, 27, 24⟩
@[reducible] def Fd.PORT_LINK_WIDTH (p : Nat) : Fld := ⟨Reg.PORT_LINK p, 20, 16⟩
@[reducible] def Fd.PORT_CPL_TIMEOUT_COUNT (p : Nat) : Fld := ⟨Reg.PORT_CPL_TIMEOUT p, 31, 0⟩
@[reducible] def Fd.PORT_RX_POISONED_COUNT (p : Nat) : Fld := ⟨Reg.PORT_RX_POISONED p, 31, 0⟩
@[reducible] def Fd.PORT_UR_SENT_COUNT (p : Nat) : Fld := ⟨Reg.PORT_UR_SENT p, 31, 0⟩
@[reducible] def Fd.PORT_PORT_RESETS_COUNT (p : Nat) : Fld := ⟨Reg.PORT_PORT_RESETS p, 31, 0⟩
@[reducible] def Fd.PORT_RESET_CAUSE_CAUSE (p : Nat) : Fld := ⟨Reg.PORT_RESET_CAUSE p, 2, 0⟩
@[reducible] def Fd.COMPUTE_ZEROING : Fld := ⟨Reg.COMPUTE, 31, 31⟩
@[reducible] def Fd.COMPUTE_RESETTING : Fld := ⟨Reg.COMPUTE, 30, 30⟩
@[reducible] def Fd.COMPUTE_OWNER : Fld := ⟨Reg.COMPUTE, 7, 0⟩
@[reducible] def Fd.COMPUTE_RESETS_COUNT : Fld := ⟨Reg.COMPUTE_RESETS, 31, 0⟩
@[reducible] def Fd.LAST_CAUSE_CAUSE : Fld := ⟨Reg.LAST_CAUSE, 7, 0⟩
@[reducible] def Fd.JOB_V (i : Nat) : Fld := ⟨Reg.JOB i, 31, 31⟩
@[reducible] def Fd.JOB_STATE (i : Nat) : Fld := ⟨Reg.JOB i, 26, 24⟩
@[reducible] def Fd.JOB_PORT (i : Nat) : Fld := ⟨Reg.JOB i, 20, 20⟩
@[reducible] def Fd.JOB_HANDLE (i : Nat) : Fld := ⟨Reg.JOB i, 7, 0⟩
@[reducible] def Fd.BOOT_STATE_PLAN : Fld := ⟨Reg.BOOT_STATE, 18, 18⟩
@[reducible] def Fd.BOOT_STATE_CERT_OK : Fld := ⟨Reg.BOOT_STATE, 17, 17⟩
@[reducible] def Fd.BOOT_STATE_IDENTITY_OK : Fld := ⟨Reg.BOOT_STATE, 16, 16⟩
@[reducible] def Fd.BOOT_STATE_HALT_CAUSE : Fld := ⟨Reg.BOOT_STATE, 11, 8⟩
@[reducible] def Fd.BOOT_STATE_STATE : Fld := ⟨Reg.BOOT_STATE, 2, 0⟩
@[reducible] def Fd.BOOT_FW_SVN_SVN : Fld := ⟨Reg.BOOT_FW_SVN, 31, 0⟩
@[reducible] def Fd.BOOT_FW_VERSION_VERSION : Fld := ⟨Reg.BOOT_FW_VERSION, 31, 0⟩
@[reducible] def Fd.BOOT_FW_AUTH_FAIL_COUNT : Fld := ⟨Reg.BOOT_FW_AUTH_FAIL, 31, 0⟩
@[reducible] def Fd.BOOT_JOB_AUTH_FAIL_COUNT : Fld := ⟨Reg.BOOT_JOB_AUTH_FAIL, 31, 0⟩
@[reducible] def Fd.BOOT_KEYS_REQUIRE : Fld := ⟨Reg.BOOT_KEYS, 16, 16⟩
@[reducible] def Fd.BOOT_KEYS_COUNT : Fld := ⟨Reg.BOOT_KEYS, 4, 0⟩
@[reducible] def Fd.BOOT_ZERO_SRAM_BUSY : Fld := ⟨Reg.BOOT_ZERO, 31, 31⟩
@[reducible] def Fd.BOOT_ZERO_PENDING : Fld := ⟨Reg.BOOT_ZERO, 20, 0⟩
@[reducible] def Fd.BOOT_ZERO_BLOCKED_COUNT : Fld := ⟨Reg.BOOT_ZERO_BLOCKED, 31, 0⟩
@[reducible] def Fd.BOOT_SERIAL_SERIAL : Fld := ⟨Reg.BOOT_SERIAL, 63, 0⟩
@[reducible] def Fd.BOOT_FW_DIGEST_WORD (i : Nat) : Fld := ⟨Reg.BOOT_FW_DIGEST i, 31, 0⟩
@[reducible] def Fd.SLOT_RING_BASE (c : Nat) : Fld := ⟨Reg.SLOT_RING c, 39, 14⟩
@[reducible] def Fd.SLOT_RING_LOG2N (c : Nat) : Fld := ⟨Reg.SLOT_RING c, 3, 0⟩
@[reducible] def Fd.SLOT_TAIL_INDEX (c : Nat) : Fld := ⟨Reg.SLOT_TAIL c, 5, 0⟩
@[reducible] def Fd.SLOT_HEAD_INDEX (c : Nat) : Fld := ⟨Reg.SLOT_HEAD c, 5, 0⟩
@[reducible] def Fd.SLOT_DONE_INDEX (c : Nat) : Fld := ⟨Reg.SLOT_DONE c, 5, 0⟩
@[reducible] def Fd.SLOT_STATE_HELD (c : Nat) : Fld := ⟨Reg.SLOT_STATE c, 8, 2⟩
@[reducible] def Fd.SLOT_STATE_LEARNED (c : Nat) : Fld := ⟨Reg.SLOT_STATE c, 1, 0⟩
@[reducible] def Fd.SLOT_ACTIVE_COUNT (c : Nat) : Fld := ⟨Reg.SLOT_ACTIVE c, 6, 0⟩
@[reducible] def Fd.SLOT_CONSUMED_COUNT (c : Nat) : Fld := ⟨Reg.SLOT_CONSUMED c, 31, 0⟩
@[reducible] def Fd.SLOT_REPLIED_COUNT (c : Nat) : Fld := ⟨Reg.SLOT_REPLIED c, 31, 0⟩
@[reducible] def Fd.SLOT_LATE_COUNT (c : Nat) : Fld := ⟨Reg.SLOT_LATE c, 31, 0⟩
@[reducible] def Fd.SLOT_NOCFG_COUNT (c : Nat) : Fld := ⟨Reg.SLOT_NOCFG c, 31, 0⟩
@[reducible] def Fd.SLOT_STALE_COUNT (c : Nat) : Fld := ⟨Reg.SLOT_STALE c, 31, 0⟩
@[reducible] def Fd.TGT_CTRL_STACK_CLR (t : Nat) : Fld := ⟨Reg.TGT_CTRL t, 1, 1⟩
@[reducible] def Fd.TGT_CTRL_EN (t : Nat) : Fld := ⟨Reg.TGT_CTRL t, 0, 0⟩
@[reducible] def Fd.TGT_STATUS_FROZEN (t : Nat) : Fld := ⟨Reg.TGT_STATUS t, 16, 16⟩
@[reducible] def Fd.TGT_STATUS_TOP (t : Nat) : Fld := ⟨Reg.TGT_STATUS t, 11, 8⟩
@[reducible] def Fd.TGT_STATUS_DEPTH (t : Nat) : Fld := ⟨Reg.TGT_STATUS t, 4, 0⟩
@[reducible] def Fd.TGT_EOI_LEVEL (t : Nat) : Fld := ⟨Reg.TGT_EOI t, 3, 0⟩
@[reducible] def Fd.TGT_STACK_LEVELS (t : Nat) : Fld := ⟨Reg.TGT_STACK t, 63, 0⟩
@[reducible] def Fd.TGT_PRIV_PEND_PEND (t : Nat) : Fld := ⟨Reg.TGT_PRIV_PEND t, 63, 0⟩
@[reducible] def Fd.TGT_PRIV_EN_EN (t : Nat) : Fld := ⟨Reg.TGT_PRIV_EN t, 63, 0⟩
@[reducible] def Fd.TGT_SH_SUM_WORDS (t : Nat) : Fld := ⟨Reg.TGT_SH_SUM t, 63, 0⟩
@[reducible] def Fd.TGT_PRIV_LEVEL_LEVELS (t k : Nat) : Fld := ⟨Reg.TGT_PRIV_LEVEL t k, 31, 0⟩
@[reducible] def Fd.TGT_COAL_COUNT (t v : Nat) : Fld := ⟨Reg.TGT_COAL t v, 28, 16⟩
@[reducible] def Fd.TGT_COAL_TIME (t v : Nat) : Fld := ⟨Reg.TGT_COAL t v, 15, 0⟩
@[reducible] def Fd.TGT_DELIVERED_COUNT (t : Nat) : Fld := ⟨Reg.TGT_DELIVERED t, 31, 0⟩
@[reducible] def Fd.TGT_MERGED_COUNT (t : Nat) : Fld := ⟨Reg.TGT_MERGED t, 31, 0⟩
@[reducible] def Fd.TGT_STACK_ORDER_COUNT (t : Nat) : Fld := ⟨Reg.TGT_STACK_ORDER t, 31, 0⟩
@[reducible] def Fd.ICN_SH_PEND_PEND (w : Nat) : Fld := ⟨Reg.ICN_SH_PEND w, 31, 0⟩
@[reducible] def Fd.ICN_SH_EN_EN (w : Nat) : Fld := ⟨Reg.ICN_SH_EN w, 31, 0⟩
@[reducible] def Fd.ICN_SWSET_SOURCE : Fld := ⟨Reg.ICN_SWSET, 10, 0⟩
@[reducible] def Fd.ICN_ROUTE_TARGET (s : Nat) : Fld := ⟨Reg.ICN_ROUTE s, 6, 4⟩
@[reducible] def Fd.ICN_ROUTE_LEVEL (s : Nat) : Fld := ⟨Reg.ICN_ROUTE s, 3, 0⟩
@[reducible] def Fd.SYN_INIT_TOTAL_COUNT : Fld := ⟨Reg.SYN_INIT_TOTAL, 63, 0⟩
@[reducible] def Fd.SYN_SIG_TOTAL_COUNT : Fld := ⟨Reg.SYN_SIG_TOTAL, 63, 0⟩
@[reducible] def Fd.SYN_TAKE_TOTAL_COUNT : Fld := ⟨Reg.SYN_TAKE_TOTAL, 63, 0⟩
@[reducible] def Fd.SYN_RETIRED_TOTAL_COUNT : Fld := ⟨Reg.SYN_RETIRED_TOTAL, 63, 0⟩
@[reducible] def Fd.SYN_COUNT_SUM_COUNT : Fld := ⟨Reg.SYN_COUNT_SUM, 63, 0⟩
@[reducible] def Fd.SYN_DL_MISS_COUNT : Fld := ⟨Reg.SYN_DL_MISS, 31, 0⟩
@[reducible] def Fd.SYN_SIG_REFUSED_COUNT : Fld := ⟨Reg.SYN_SIG_REFUSED, 31, 0⟩
@[reducible] def Fd.SYN_OBJ_W0_TYPE (i : Nat) : Fld := ⟨Reg.SYN_OBJ_W0 i, 31, 30⟩
@[reducible] def Fd.SYN_OBJ_W0_OWNER (i : Nat) : Fld := ⟨Reg.SYN_OBJ_W0 i, 29, 20⟩
@[reducible] def Fd.SYN_OBJ_W1_VALUE (i : Nat) : Fld := ⟨Reg.SYN_OBJ_W1 i, 23, 0⟩
@[reducible] def Fd.SYN_OBJ_W2_GEN (i : Nat) : Fld := ⟨Reg.SYN_OBJ_W2 i, 31, 16⟩
@[reducible] def Fd.SYN_OBJ_W2_N (i : Nat) : Fld := ⟨Reg.SYN_OBJ_W2 i, 12, 0⟩
@[reducible] def Fd.SYN_OBJ_W3_DEADLINE (i : Nat) : Fld := ⟨Reg.SYN_OBJ_W3 i, 26, 0⟩
@[reducible] def Fd.TSU_CTRL_HOLD : Fld := ⟨Reg.TSU_CTRL, 4, 4⟩
@[reducible] def Fd.TSU_CTRL_SRC : Fld := ⟨Reg.TSU_CTRL, 3, 2⟩
@[reducible] def Fd.TSU_CTRL_STEP_EN : Fld := ⟨Reg.TSU_CTRL, 1, 1⟩
@[reducible] def Fd.TSU_CTRL_SERVO_EN : Fld := ⟨Reg.TSU_CTRL, 0, 0⟩
@[reducible] def Fd.TSU_STATUS_CLK10M_SEEN : Fld := ⟨Reg.TSU_STATUS, 4, 4⟩
@[reducible] def Fd.TSU_STATUS_PPS_IN_SEEN : Fld := ⟨Reg.TSU_STATUS, 3, 3⟩
@[reducible] def Fd.TSU_STATUS_AVG_FULL : Fld := ⟨Reg.TSU_STATUS, 2, 2⟩
@[reducible] def Fd.TSU_STATUS_STATE : Fld := ⟨Reg.TSU_STATUS, 1, 0⟩
@[reducible] def Fd.TSU_TIME_SEC_SECONDS : Fld := ⟨Reg.TSU_TIME_SEC, 47, 0⟩
@[reducible] def Fd.TSU_TIME_NS_NS : Fld := ⟨Reg.TSU_TIME_NS, 29, 0⟩
@[reducible] def Fd.TSU_TIME_FRAC_FRAC : Fld := ⟨Reg.TSU_TIME_FRAC, 15, 0⟩
@[reducible] def Fd.TSU_ELAPSED_CYCLES : Fld := ⟨Reg.TSU_ELAPSED, 63, 0⟩
@[reducible] def Fd.TSU_RATE_RATE : Fld := ⟨Reg.TSU_RATE, 31, 0⟩
@[reducible] def Fd.TSU_AVG_RATE_RATE : Fld := ⟨Reg.TSU_AVG_RATE, 31, 0⟩
@[reducible] def Fd.TSU_RATE_MAX_RATE : Fld := ⟨Reg.TSU_RATE_MAX, 31, 0⟩
@[reducible] def Fd.TSU_KP_GAIN : Fld := ⟨Reg.TSU_KP, 31, 0⟩
@[reducible] def Fd.TSU_KI_GAIN : Fld := ⟨Reg.TSU_KI, 31, 0⟩
@[reducible] def Fd.TSU_STEP_THRESH_NS : Fld := ⟨Reg.TSU_STEP_THRESH, 31, 0⟩
@[reducible] def Fd.TSU_LOCK_THRESH_NS : Fld := ⟨Reg.TSU_LOCK_THRESH, 31, 0⟩
@[reducible] def Fd.TSU_HOLD_AFTER_MS : Fld := ⟨Reg.TSU_HOLD_AFTER, 15, 0⟩
@[reducible] def Fd.TSU_OFFSET_THETA : Fld := ⟨Reg.TSU_OFFSET, 63, 0⟩
@[reducible] def Fd.TSU_PPS_IN_TS_TIME : Fld := ⟨Reg.TSU_PPS_IN_TS, 63, 0⟩
@[reducible] def Fd.TSU_PPS_CFG_OUT_EN : Fld := ⟨Reg.TSU_PPS_CFG, 16, 16⟩
@[reducible] def Fd.TSU_PPS_CFG_WIDTH : Fld := ⟨Reg.TSU_PPS_CFG, 15, 0⟩
@[reducible] def Fd.TSU_TOD_CFG_UTC_OFFSET : Fld := ⟨Reg.TSU_TOD_CFG, 31, 16⟩
@[reducible] def Fd.TSU_TOD_CFG_CLOCK_CLASS : Fld := ⟨Reg.TSU_TOD_CFG, 15, 8⟩
@[reducible] def Fd.TSU_TOD_CFG_RX_EN : Fld := ⟨Reg.TSU_TOD_CFG, 4, 4⟩
@[reducible] def Fd.TSU_TOD_CFG_TX_EN : Fld := ⟨Reg.TSU_TOD_CFG, 3, 3⟩
@[reducible] def Fd.TSU_TOD_CFG_BAUD : Fld := ⟨Reg.TSU_TOD_CFG, 2, 0⟩
@[reducible] def Fd.TSU_SYNCE_RCLK_EN : Fld := ⟨Reg.TSU_SYNCE, 4, 4⟩
@[reducible] def Fd.TSU_SYNCE_RCLK_MAC : Fld := ⟨Reg.TSU_SYNCE, 3, 0⟩
@[reducible] def Fd.TSU_CAR_OFFSET (c : Nat) : Fld := ⟨Reg.TSU_CAR c, 31, 8⟩
@[reducible] def Fd.TSU_CAR_ECP (c : Nat) : Fld := ⟨Reg.TSU_CAR c, 4, 4⟩
@[reducible] def Fd.TSU_CAR_MU (c : Nat) : Fld := ⟨Reg.TSU_CAR c, 3, 1⟩
@[reducible] def Fd.TSU_CAR_V (c : Nat) : Fld := ⟨Reg.TSU_CAR c, 0, 0⟩
@[reducible] def Fd.TSU_TXON_LAG (n : Nat) : Fld := ⟨Reg.TSU_TXON n, 27, 16⟩
@[reducible] def Fd.TSU_TXON_LEAD (n : Nat) : Fld := ⟨Reg.TSU_TXON n, 15, 4⟩
@[reducible] def Fd.TSU_TXON_CARRIER (n : Nat) : Fld := ⟨Reg.TSU_TXON n, 3, 1⟩
@[reducible] def Fd.TSU_TXON_V (n : Nat) : Fld := ⟨Reg.TSU_TXON n, 0, 0⟩
@[reducible] def Fd.TSU_ASYM_CORR (m : Nat) : Fld := ⟨Reg.TSU_ASYM m, 31, 0⟩
@[reducible] def Fd.TSU_LATE_LAUNCH_COUNT : Fld := ⟨Reg.TSU_LATE_LAUNCH, 31, 0⟩
@[reducible] def Fd.TSU_SHORT_LEAD_COUNT : Fld := ⟨Reg.TSU_SHORT_LEAD, 31, 0⟩
@[reducible] def Fd.TSU_TICK_SKIPPED_COUNT : Fld := ⟨Reg.TSU_TICK_SKIPPED, 31, 0⟩
@[reducible] def Fd.TSU_STEPS_COUNT : Fld := ⟨Reg.TSU_STEPS, 31, 0⟩
@[reducible] def Fd.TSU_HOLDOVERS_COUNT : Fld := ⟨Reg.TSU_HOLDOVERS, 31, 0⟩
@[reducible] def Fd.TSU_TXON_LATE_COUNT : Fld := ⟨Reg.TSU_TXON_LATE, 31, 0⟩
@[reducible] def Fd.TSU_TOD_BAD_COUNT : Fld := ⟨Reg.TSU_TOD_BAD, 31, 0⟩
@[reducible] def Fd.TSU_LQ_COUNT (m : Nat) : Fld := ⟨Reg.TSU_LQ m, 11, 0⟩
@[reducible] def Fd.SAF_STATUS_FB_OFF : Fld := ⟨Reg.SAF_STATUS, 23, 16⟩
@[reducible] def Fd.SAF_STATUS_FORCED : Fld := ⟨Reg.SAF_STATUS, 15, 8⟩
@[reducible] def Fd.SAF_STATUS_FAULT_PIN : Fld := ⟨Reg.SAF_STATUS, 2, 2⟩
@[reducible] def Fd.SAF_STATUS_FB_DOWN : Fld := ⟨Reg.SAF_STATUS, 1, 1⟩
@[reducible] def Fd.SAF_STATUS_LOCKED : Fld := ⟨Reg.SAF_STATUS, 0, 0⟩
@[reducible] def Fd.SAF_CFG_CRC_CRC : Fld := ⟨Reg.SAF_CFG_CRC, 31, 0⟩
@[reducible] def Fd.SAF_ARRAY_DOUBT_PA (k : Nat) : Fld := ⟨Reg.SAF_ARRAY_DOUBT k, 31, 0⟩
@[reducible] def Fd.SAF_FB_FAULT_UNIT : Fld := ⟨Reg.SAF_FB_FAULT, 15, 8⟩
@[reducible] def Fd.SAF_FB_FAULT_CAUSE : Fld := ⟨Reg.SAF_FB_FAULT, 7, 0⟩
@[reducible] def Fd.SAF_CB_IN_USE_COUNT : Fld := ⟨Reg.SAF_CB_IN_USE, 16, 0⟩
@[reducible] def Fd.SAF_SUP_LAST_SUPERVISOR : Fld := ⟨Reg.SAF_SUP_LAST, 15, 8⟩
@[reducible] def Fd.SAF_SUP_LAST_KIND : Fld := ⟨Reg.SAF_SUP_LAST, 2, 0⟩
@[reducible] def Fd.SAF_TAKEOVER_MAX_NS : Fld := ⟨Reg.SAF_TAKEOVER_MAX, 31, 0⟩
@[reducible] def Fd.SAF_FB_OFF_ARM_CARRIERS : Fld := ⟨Reg.SAF_FB_OFF_ARM, 7, 0⟩
@[reducible] def Fd.SAF_DOUBT_CNT_COUNT (b : Nat) : Fld := ⟨Reg.SAF_DOUBT_CNT b, 31, 0⟩
@[reducible] def Fd.SAF_LEARNED_REL_COUNT : Fld := ⟨Reg.SAF_LEARNED_REL, 31, 0⟩
@[reducible] def Fd.SAF_FB_REL_COUNT : Fld := ⟨Reg.SAF_FB_REL, 31, 0⟩
@[reducible] def Fd.SAF_NOT_DECODED_COUNT : Fld := ⟨Reg.SAF_NOT_DECODED, 31, 0⟩
@[reducible] def Fd.SAF_LATE_DISCARD_COUNT : Fld := ⟨Reg.SAF_LATE_DISCARD, 31, 0⟩
@[reducible] def Fd.SAF_SUP_VIOL_COUNT : Fld := ⟨Reg.SAF_SUP_VIOL, 31, 0⟩
@[reducible] def Fd.SAF_FB_FAULTS_COUNT : Fld := ⟨Reg.SAF_FB_FAULTS, 31, 0⟩
@[reducible] def Fd.FFD_STATUS_HIST_V : Fld := ⟨Reg.FFD_STATUS, 1, 1⟩
@[reducible] def Fd.FFD_STATUS_RUN : Fld := ⟨Reg.FFD_STATUS, 0, 0⟩
@[reducible] def Fd.FFD_HIST_BASE_ADDR : Fld := ⟨Reg.FFD_HIST_BASE, 39, 12⟩
@[reducible] def Fd.FFD_KEYS_COUNT : Fld := ⟨Reg.FFD_KEYS, 20, 0⟩
@[reducible] def Fd.FFD_KEY_FULL_COUNT : Fld := ⟨Reg.FFD_KEY_FULL, 31, 0⟩
@[reducible] def Fd.FFD_SECTIONS_COUNT : Fld := ⟨Reg.FFD_SECTIONS, 31, 0⟩
@[reducible] def Fd.FFD_FROZEN_COUNT : Fld := ⟨Reg.FFD_FROZEN, 31, 0⟩
@[reducible] def Fd.FFD_CONSTANT_COUNT : Fld := ⟨Reg.FFD_CONSTANT, 31, 0⟩
@[reducible] def Fd.FFD_SEQ_ERR_COUNT : Fld := ⟨Reg.FFD_SEQ_ERR, 31, 0⟩
@[reducible] def Fd.FFD_MISSING_COUNT : Fld := ⟨Reg.FFD_MISSING, 31, 0⟩
@[reducible] def Fd.FFD_LAST_KIND : Fld := ⟨Reg.FFD_LAST, 31, 28⟩
@[reducible] def Fd.FFD_LAST_PORT : Fld := ⟨Reg.FFD_LAST, 27, 26⟩
@[reducible] def Fd.FFD_LAST_SYMBOL : Fld := ⟨Reg.FFD_LAST, 25, 22⟩
@[reducible] def Fd.FFD_LAST_EAXC : Fld := ⟨Reg.FFD_LAST, 15, 0⟩
@[reducible] def Fd.KAT_STATUS_SLICE : Fld := ⟨Reg.KAT_STATUS, 8, 8⟩
@[reducible] def Fd.KAT_STATUS_PENDING : Fld := ⟨Reg.KAT_STATUS, 4, 0⟩
@[reducible] def Fd.KAT_FENCED_PA (k : Nat) : Fld := ⟨Reg.KAT_FENCED k, 31, 0⟩
@[reducible] def Fd.KAT_FENCED_VE_VE : Fld := ⟨Reg.KAT_FENCED_VE, 23, 0⟩
@[reducible] def Fd.KAT_FENCED_OTHER_AE : Fld := ⟨Reg.KAT_FENCED_OTHER, 7, 0⟩
@[reducible] def Fd.KAT_FENCED_OTHER_DSC : Fld := ⟨Reg.KAT_FENCED_OTHER, 19, 8⟩
@[reducible] def Fd.KAT_FENCED_OTHER_LDPC : Fld := ⟨Reg.KAT_FENCED_OTHER, 31, 20⟩
@[reducible] def Fd.KAT_TRANSIENT_COUNT : Fld := ⟨Reg.KAT_TRANSIENT, 31, 0⟩
@[reducible] def Fd.KAT_CHECKER_FAULTS_COUNT : Fld := ⟨Reg.KAT_CHECKER_FAULTS, 31, 0⟩
@[reducible] def Fd.KAT_ARRAY_FAULTS_COUNT : Fld := ⟨Reg.KAT_ARRAY_FAULTS, 31, 0⟩
@[reducible] def Fd.KAT_SLICES_COUNT : Fld := ⟨Reg.KAT_SLICES, 31, 0⟩
@[reducible] def Fd.KAT_SLICES_ABORTED_COUNT : Fld := ⟨Reg.KAT_SLICES_ABORTED, 31, 0⟩
@[reducible] def Fd.KAT_OVERDUE_OTHER_COUNT : Fld := ⟨Reg.KAT_OVERDUE_OTHER, 31, 0⟩
@[reducible] def Fd.KAT_ARRAY_YEAR_OK (n : Nat) : Fld := ⟨Reg.KAT_ARRAY n, 20, 20⟩
@[reducible] def Fd.KAT_ARRAY_DECISION (n : Nat) : Fld := ⟨Reg.KAT_ARRAY n, 19, 19⟩
@[reducible] def Fd.KAT_ARRAY_FAILED (n : Nat) : Fld := ⟨Reg.KAT_ARRAY n, 18, 18⟩
@[reducible] def Fd.KAT_ARRAY_KAT_OVERDUE (n : Nat) : Fld := ⟨Reg.KAT_ARRAY n, 17, 17⟩
@[reducible] def Fd.KAT_ARRAY_PASSED (n : Nat) : Fld := ⟨Reg.KAT_ARRAY n, 11, 0⟩
@[reducible] def Fd.KAT_VE_YEAR_OK (n : Nat) : Fld := ⟨Reg.KAT_VE n, 20, 20⟩
@[reducible] def Fd.KAT_VE_DECISION (n : Nat) : Fld := ⟨Reg.KAT_VE n, 19, 19⟩
@[reducible] def Fd.KAT_VE_PASSED (n : Nat) : Fld := ⟨Reg.KAT_VE n, 11, 0⟩
@[reducible] def Fd.CAL_CTRL_TICK_SRC : Fld := ⟨Reg.CAL_CTRL, 2, 0⟩
@[reducible] def Fd.CAL_STATUS_EXPELLED : Fld := ⟨Reg.CAL_STATUS, 6, 6⟩
@[reducible] def Fd.CAL_STATUS_HASH_BUSY : Fld := ⟨Reg.CAL_STATUS, 5, 5⟩
@[reducible] def Fd.CAL_STATUS_SHADOW_FAIL : Fld := ⟨Reg.CAL_STATUS, 4, 4⟩
@[reducible] def Fd.CAL_STATUS_SHADOW_OK : Fld := ⟨Reg.CAL_STATUS, 3, 3⟩
@[reducible] def Fd.CAL_STATUS_COMMIT_PENDING : Fld := ⟨Reg.CAL_STATUS, 2, 2⟩
@[reducible] def Fd.CAL_STATUS_STAGED_V : Fld := ⟨Reg.CAL_STATUS, 1, 1⟩
@[reducible] def Fd.CAL_STATUS_CAND_READY : Fld := ⟨Reg.CAL_STATUS, 0, 0⟩
@[reducible] def Fd.CAL_SEASON_NUMBER : Fld := ⟨Reg.CAL_SEASON, 31, 0⟩
@[reducible] def Fd.CAL_STAGED_NUMBER : Fld := ⟨Reg.CAL_STAGED, 31, 0⟩
@[reducible] def Fd.CAL_WINDOW_SLOTS : Fld := ⟨Reg.CAL_WINDOW, 9, 0⟩
@[reducible] def Fd.CAL_KSIG_VALUE : Fld := ⟨Reg.CAL_KSIG, 31, 0⟩
@[reducible] def Fd.CAL_SHADOW_MIN_COUNT : Fld := ⟨Reg.CAL_SHADOW_MIN, 3, 0⟩
@[reducible] def Fd.CAL_RANGE_CARRIER : Fld := ⟨Reg.CAL_RANGE, 7, 0⟩
@[reducible] def Fd.CAL_RANGE_CLEAR_SLOTS : Fld := ⟨Reg.CAL_RANGE_CLEAR, 7, 0⟩
@[reducible] def Fd.CAL_LIM_DC_VALUE : Fld := ⟨Reg.CAL_LIM_DC, 15, 0⟩
@[reducible] def Fd.CAL_LIM_IQ_VALUE : Fld := ⟨Reg.CAL_LIM_IQ, 15, 0⟩
@[reducible] def Fd.CAL_LIM_GAIN_HI : Fld := ⟨Reg.CAL_LIM_GAIN, 31, 16⟩
@[reducible] def Fd.CAL_LIM_GAIN_LO : Fld := ⟨Reg.CAL_LIM_GAIN, 15, 0⟩
@[reducible] def Fd.CAL_LIM_DC_RES_VALUE : Fld := ⟨Reg.CAL_LIM_DC_RES, 15, 0⟩
@[reducible] def Fd.CAL_LIM_IQ_RES_VALUE : Fld := ⟨Reg.CAL_LIM_IQ_RES, 15, 0⟩
@[reducible] def Fd.CAL_LIM_GAIN_RES_VALUE : Fld := ⟨Reg.CAL_LIM_GAIN_RES, 15, 0⟩
@[reducible] def Fd.CAL_LIM_ACT_VALUE : Fld := ⟨Reg.CAL_LIM_ACT, 31, 0⟩
@[reducible] def Fd.CAL_LAST_CHANGE_TIME : Fld := ⟨Reg.CAL_LAST_CHANGE, 63, 0⟩
@[reducible] def Fd.CAL_DIGEST_CFG_TIMEOUT : Fld := ⟨Reg.CAL_DIGEST_CFG, 31, 16⟩
@[reducible] def Fd.CAL_DIGEST_CFG_INTERVAL : Fld := ⟨Reg.CAL_DIGEST_CFG, 7, 0⟩
@[reducible] def Fd.CAL_GROUP_V : Fld := ⟨Reg.CAL_GROUP, 31, 31⟩
@[reducible] def Fd.CAL_GROUP_ROOT : Fld := ⟨Reg.CAL_GROUP, 27, 16⟩
@[reducible] def Fd.CAL_GROUP_MEMBERS : Fld := ⟨Reg.CAL_GROUP, 12, 0⟩
@[reducible] def Fd.CAL_ADAPT_STEP_NO_NUMBER : Fld := ⟨Reg.CAL_ADAPT_STEP_NO, 31, 0⟩
@[reducible] def Fd.CAL_RETAINED_COUNT : Fld := ⟨Reg.CAL_RETAINED, 31, 0⟩
@[reducible] def Fd.CAL_STATS_DROPPED_COUNT : Fld := ⟨Reg.CAL_STATS_DROPPED, 31, 0⟩
@[reducible] def Fd.CAL_STAGE_REFUSED_COUNT : Fld := ⟨Reg.CAL_STAGE_REFUSED, 31, 0⟩
@[reducible] def Fd.CAL_RANGE_EVENTS_COUNT : Fld := ⟨Reg.CAL_RANGE_EVENTS, 31, 0⟩
@[reducible] def Fd.CAL_COMP_SAT_COUNT : Fld := ⟨Reg.CAL_COMP_SAT, 31, 0⟩
@[reducible] def Fd.CAL_ADAPT_SAT_COUNT : Fld := ⟨Reg.CAL_ADAPT_SAT, 31, 0⟩
@[reducible] def Fd.CAL_EXPULSIONS_COUNT : Fld := ⟨Reg.CAL_EXPULSIONS, 31, 0⟩
@[reducible] def Fd.CAL_SHADOW_SLOTS_COUNT : Fld := ⟨Reg.CAL_SHADOW_SLOTS, 31, 0⟩
@[reducible] def Fd.CAL_DIGEST_WORD (i : Nat) : Fld := ⟨Reg.CAL_DIGEST i, 31, 0⟩
@[reducible] def Fd.DET_CTRL_PLAN : Fld := ⟨Reg.DET_CTRL, 1, 1⟩
@[reducible] def Fd.DET_CTRL_MODE : Fld := ⟨Reg.DET_CTRL, 0, 0⟩
@[reducible] def Fd.DET_STATUS_REF_V : Fld := ⟨Reg.DET_STATUS, 1, 1⟩
@[reducible] def Fd.DET_STATUS_ORIGIN_V : Fld := ⟨Reg.DET_STATUS, 0, 0⟩
@[reducible] def Fd.DET_BEAT_COUNT : Fld := ⟨Reg.DET_BEAT, 63, 0⟩
@[reducible] def Fd.DET_ORIGIN_TIME_TIME : Fld := ⟨Reg.DET_ORIGIN_TIME, 63, 0⟩
@[reducible] def Fd.DET_REF_BEAT_COUNT : Fld := ⟨Reg.DET_REF_BEAT, 63, 0⟩
@[reducible] def Fd.DET_TDC_COUNT : Fld := ⟨Reg.DET_TDC, 31, 0⟩
@[reducible] def Fd.DET_TDC_VAL_COUNT : Fld := ⟨Reg.DET_TDC_VAL, 31, 0⟩
@[reducible] def Fd.DET_LAST_BEAT : Fld := ⟨Reg.DET_LAST, 31, 16⟩
@[reducible] def Fd.DET_LAST_KIND : Fld := ⟨Reg.DET_LAST, 11, 8⟩
@[reducible] def Fd.DET_LAST_SOURCE : Fld := ⟨Reg.DET_LAST, 7, 0⟩
@[reducible] def Fd.DET_TSIG_CRC : Fld := ⟨Reg.DET_TSIG, 31, 0⟩
@[reducible] def Fd.DET_SRC_COUNT (i : Nat) : Fld := ⟨Reg.DET_SRC i, 31, 0⟩
@[reducible] def Fd.DET_XSIG_CRC (i : Nat) : Fld := ⟨Reg.DET_XSIG i, 31, 0⟩
@[reducible] def Fd.PMU_STATE_BUSY : Fld := ⟨Reg.PMU_STATE, 4, 4⟩
@[reducible] def Fd.PMU_STATE_STATE : Fld := ⟨Reg.PMU_STATE, 1, 0⟩
@[reducible] def Fd.PMU_CTRL_WAKE : Fld := ⟨Reg.PMU_CTRL, 0, 0⟩
@[reducible] def Fd.PMU_RETAIN_SSP_BANKS : Fld := ⟨Reg.PMU_RETAIN_SSP, 47, 0⟩
@[reducible] def Fd.PMU_DOMAIN_ON_ON (k : Nat) : Fld := ⟨Reg.PMU_DOMAIN_ON k, 31, 0⟩
@[reducible] def Fd.PMU_AVS_TARGET_MV : Fld := ⟨Reg.PMU_AVS_TARGET, 9, 0⟩
@[reducible] def Fd.PMU_RESET_CAUSE_LAST : Fld := ⟨Reg.PMU_RESET_CAUSE, 2, 0⟩
@[reducible] def Fd.PMU_WARM_RESETS_COUNT : Fld := ⟨Reg.PMU_WARM_RESETS, 31, 0⟩
@[reducible] def Fd.PMU_RETAIN_ENTRIES_COUNT : Fld := ⟨Reg.PMU_RETAIN_ENTRIES, 31, 0⟩
@[reducible] def Fd.PMU_LAST_EXIT_US : Fld := ⟨Reg.PMU_LAST_EXIT, 15, 0⟩
@[reducible] def Fd.SUP_STATUS_HOLD : Fld := ⟨Reg.SUP_STATUS, 2, 2⟩
@[reducible] def Fd.SUP_STATUS_WARN_SRAM : Fld := ⟨Reg.SUP_STATUS, 1, 1⟩
@[reducible] def Fd.SUP_STATUS_WARN_CORE : Fld := ⟨Reg.SUP_STATUS, 0, 0⟩
@[reducible] def Fd.SUP_DIP_COUNT_COUNT : Fld := ⟨Reg.SUP_DIP_COUNT, 31, 0⟩
@[reducible] def Fd.SUP_HOLD_MAX_NS : Fld := ⟨Reg.SUP_HOLD_MAX, 31, 0⟩
@[reducible] def Fd.SUP_SUPPLY_RESETS_COUNT : Fld := ⟨Reg.SUP_SUPPLY_RESETS, 31, 0⟩
@[reducible] def Fd.SUP_VCORE_MV : Fld := ⟨Reg.SUP_VCORE, 9, 0⟩
@[reducible] def Fd.SUP_VSRAM_MV : Fld := ⟨Reg.SUP_VSRAM, 9, 0⟩
@[reducible] def Fd.SUP_OV_COUNT_COUNT : Fld := ⟨Reg.SUP_OV_COUNT, 31, 0⟩
@[reducible] def Fd.SUP_TEMP_DEGC : Fld := ⟨Reg.SUP_TEMP, 15, 0⟩
@[reducible] def Fd.SUP_TEMP_MAX_DEGC : Fld := ⟨Reg.SUP_TEMP_MAX, 15, 0⟩
@[reducible] def Fd.DMMU_STATUS_PINNED : Fld := ⟨Reg.DMMU_STATUS, 1, 1⟩
@[reducible] def Fd.DMMU_STATUS_EDIT_BUSY : Fld := ⟨Reg.DMMU_STATUS, 0, 0⟩
@[reducible] def Fd.DMMU_TTB_ADDR : Fld := ⟨Reg.DMMU_TTB, 39, 12⟩
@[reducible] def Fd.DMMU_EPOCH_COUNT : Fld := ⟨Reg.DMMU_EPOCH, 31, 0⟩
@[reducible] def Fd.DMMU_EPOCH_MIN_COUNT : Fld := ⟨Reg.DMMU_EPOCH_MIN, 31, 0⟩
@[reducible] def Fd.DMMU_RETIRING_COUNT : Fld := ⟨Reg.DMMU_RETIRING, 23, 0⟩
@[reducible] def Fd.DMMU_FAULT_VA_VA : Fld := ⟨Reg.DMMU_FAULT_VA, 47, 0⟩
@[reducible] def Fd.DMMU_FAULT_V : Fld := ⟨Reg.DMMU_FAULT, 31, 31⟩
@[reducible] def Fd.DMMU_FAULT_ORIGIN : Fld := ⟨Reg.DMMU_FAULT, 21, 16⟩
@[reducible] def Fd.DMMU_FAULT_CAUSE : Fld := ⟨Reg.DMMU_FAULT, 2, 0⟩
@[reducible] def Fd.DMMU_TB_MISS_COUNT : Fld := ⟨Reg.DMMU_TB_MISS, 31, 0⟩
@[reducible] def Fd.DMMU_WALKS_COUNT : Fld := ⟨Reg.DMMU_WALKS, 31, 0⟩
@[reducible] def Fd.DMMU_PINNED_N_COUNT : Fld := ⟨Reg.DMMU_PINNED_N, 13, 0⟩
@[reducible] def Fd.DMMU_FAULTS_COUNT : Fld := ⟨Reg.DMMU_FAULTS, 31, 0⟩
@[reducible] def Fd.DMMU_SSP_CE_COUNT (b : Nat) : Fld := ⟨Reg.DMMU_SSP_CE b, 31, 0⟩
@[reducible] def Fd.DMMU_SSP_UE_COUNT (b : Nat) : Fld := ⟨Reg.DMMU_SSP_UE b, 31, 0⟩
@[reducible] def Fd.DMMU_SSP_ON_BANKS : Fld := ⟨Reg.DMMU_SSP_ON, 47, 0⟩
@[reducible] def Fd.SDE_ID_ENGINE (n : Nat) : Fld := ⟨Reg.SDE_ID n, 4, 0⟩
@[reducible] def Fd.SDE_TAGS_IN_FLIGHT (n : Nat) : Fld := ⟨Reg.SDE_TAGS n, 24, 16⟩
@[reducible] def Fd.SDE_TAGS_FREE (n : Nat) : Fld := ⟨Reg.SDE_TAGS n, 8, 0⟩
@[reducible] def Fd.SDE_BYTES_COUNT (n : Nat) : Fld := ⟨Reg.SDE_BYTES n, 31, 0⟩
@[reducible] def Fd.SDE_DL_MISS_COUNT (n : Nat) : Fld := ⟨Reg.SDE_DL_MISS n, 31, 0⟩
@[reducible] def Fd.SDE_DESC_BAD_COUNT (n : Nat) : Fld := ⟨Reg.SDE_DESC_BAD n, 31, 0⟩
@[reducible] def Fd.SDE_CR_STALL_COUNT (n : Nat) : Fld := ⟨Reg.SDE_CR_STALL n, 31, 0⟩
@[reducible] def Fd.SDE_CTX_STATE_CR_FULL (n c : Nat) : Fld := ⟨Reg.SDE_CTX_STATE n c, 3, 3⟩
@[reducible] def Fd.SDE_CTX_STATE_WAITING (n c : Nat) : Fld := ⟨Reg.SDE_CTX_STATE n c, 2, 2⟩
@[reducible] def Fd.SDE_CTX_STATE_PENDING (n c : Nat) : Fld := ⟨Reg.SDE_CTX_STATE n c, 1, 1⟩
@[reducible] def Fd.SDE_CTX_STATE_RUN (n c : Nat) : Fld := ⟨Reg.SDE_CTX_STATE n c, 0, 0⟩
@[reducible] def Fd.SDE_CTX_GEN_GEN (n c : Nat) : Fld := ⟨Reg.SDE_CTX_GEN n c, 31, 0⟩
@[reducible] def Fd.SDE_CTX_PC_INDEX (n c : Nat) : Fld := ⟨Reg.SDE_CTX_PC n c, 15, 0⟩
@[reducible] def Fd.SDE_CTX_CR_CFG_SPACE (n c : Nat) : Fld := ⟨Reg.SDE_CTX_CR_CFG n c, 5, 4⟩
@[reducible] def Fd.SDE_CTX_CR_CFG_LOG2N (n c : Nat) : Fld := ⟨Reg.SDE_CTX_CR_CFG n c, 3, 0⟩
@[reducible] def Fd.SDE_CTX_CR_BASE_ADDR (n c : Nat) : Fld := ⟨Reg.SDE_CTX_CR_BASE n c, 49, 0⟩
@[reducible] def Fd.SDE_CTX_CR_HEAD_INDEX (n c : Nat) : Fld := ⟨Reg.SDE_CTX_CR_HEAD n c, 11, 0⟩
@[reducible] def Fd.SDE_CTX_CR_TAIL_INDEX (n c : Nat) : Fld := ⟨Reg.SDE_CTX_CR_TAIL n c, 11, 0⟩
@[reducible] def Fd.SDE_CTX_PROG_ADDR (n c : Nat) : Fld := ⟨Reg.SDE_CTX_PROG n c, 47, 0⟩
@[reducible] def Fd.MA_ID_MAPPED (n : Nat) : Fld := ⟨Reg.MA_ID n, 16, 16⟩
@[reducible] def Fd.MA_ID_LA (n : Nat) : Fld := ⟨Reg.MA_ID n, 15, 8⟩
@[reducible] def Fd.MA_ID_PA (n : Nat) : Fld := ⟨Reg.MA_ID n, 7, 0⟩
@[reducible] def Fd.MA_STATUS_SEQ_FAULT (n : Nat) : Fld := ⟨Reg.MA_STATUS n, 7, 7⟩
@[reducible] def Fd.MA_STATUS_CHK_FENCED (n : Nat) : Fld := ⟨Reg.MA_STATUS n, 6, 6⟩
@[reducible] def Fd.MA_STATUS_FENCED (n : Nat) : Fld := ⟨Reg.MA_STATUS n, 5, 5⟩
@[reducible] def Fd.MA_STATUS_UNAVAILABLE (n : Nat) : Fld := ⟨Reg.MA_STATUS n, 4, 4⟩
@[reducible] def Fd.MA_STATUS_FROZEN (n : Nat) : Fld := ⟨Reg.MA_STATUS n, 3, 3⟩
@[reducible] def Fd.MA_STATUS_DONE (n : Nat) : Fld := ⟨Reg.MA_STATUS n, 2, 2⟩
@[reducible] def Fd.MA_STATUS_RUN (n : Nat) : Fld := ⟨Reg.MA_STATUS n, 1, 1⟩
@[reducible] def Fd.MA_SKEW_REP1_V (n : Nat) : Fld := ⟨Reg.MA_SKEW n, 24, 24⟩
@[reducible] def Fd.MA_SKEW_REP1_ROW (n : Nat) : Fld := ⟨Reg.MA_SKEW n, 23, 16⟩
@[reducible] def Fd.MA_SKEW_REP0_V (n : Nat) : Fld := ⟨Reg.MA_SKEW n, 8, 8⟩
@[reducible] def Fd.MA_SKEW_REP0_ROW (n : Nat) : Fld := ⟨Reg.MA_SKEW n, 7, 0⟩
@[reducible] def Fd.MA_LATENCY_TRANS (n : Nat) : Fld := ⟨Reg.MA_LATENCY n, 31, 16⟩
@[reducible] def Fd.MA_LATENCY_NORMAL (n : Nat) : Fld := ⟨Reg.MA_LATENCY n, 15, 0⟩
@[reducible] def Fd.MA_BIST_FAIL_PATHS (n : Nat) : Fld := ⟨Reg.MA_BIST n, 15, 8⟩
@[reducible] def Fd.MA_BIST_FAIL_ROWS (n : Nat) : Fld := ⟨Reg.MA_BIST n, 7, 4⟩
@[reducible] def Fd.MA_BIST_RESULT (n : Nat) : Fld := ⟨Reg.MA_BIST n, 1, 0⟩
@[reducible] def Fd.MA_PMODE_MODE (n : Nat) : Fld := ⟨Reg.MA_PMODE n, 9, 0⟩
@[reducible] def Fd.MA_SEQ_PC_PC (n : Nat) : Fld := ⟨Reg.MA_SEQ_PC n, 9, 0⟩
@[reducible] def Fd.MA_SEQ_FAULT_PC (n : Nat) : Fld := ⟨Reg.MA_SEQ_FAULT n, 25, 16⟩
@[reducible] def Fd.MA_SEQ_FAULT_CAUSE (n : Nat) : Fld := ⟨Reg.MA_SEQ_FAULT n, 3, 0⟩
@[reducible] def Fd.MA_SEQ_PPOINT_PC (n : Nat) : Fld := ⟨Reg.MA_SEQ_PPOINT n, 25, 16⟩
@[reducible] def Fd.MA_SEQ_PPOINT_RECORD (n : Nat) : Fld := ⟨Reg.MA_SEQ_PPOINT n, 15, 0⟩
@[reducible] def Fd.MA_QUEUE_STAGED (n : Nat) : Fld := ⟨Reg.MA_QUEUE n, 4, 3⟩
@[reducible] def Fd.MA_QUEUE_PASSES (n : Nat) : Fld := ⟨Reg.MA_QUEUE n, 2, 0⟩
@[reducible] def Fd.MA_PASSES_COUNT (n : Nat) : Fld := ⟨Reg.MA_PASSES n, 31, 0⟩
@[reducible] def Fd.MA_BUBBLES_COUNT (n : Nat) : Fld := ⟨Reg.MA_BUBBLES n, 31, 0⟩
@[reducible] def Fd.MA_PAD_CYCLES_COUNT (n : Nat) : Fld := ⟨Reg.MA_PAD_CYCLES n, 31, 0⟩
@[reducible] def Fd.MA_FREEZE_WF_COUNT (n : Nat) : Fld := ⟨Reg.MA_FREEZE_WF n, 31, 0⟩
@[reducible] def Fd.MA_FREEZE_DR_COUNT (n : Nat) : Fld := ⟨Reg.MA_FREEZE_DR n, 31, 0⟩
@[reducible] def Fd.MA_CHK_MISMATCH_COUNT (n : Nat) : Fld := ⟨Reg.MA_CHK_MISMATCH n, 31, 0⟩
@[reducible] def Fd.MA_CHK_LAST_MROW (n : Nat) : Fld := ⟨Reg.MA_CHK_LAST n, 31, 16⟩
@[reducible] def Fd.MA_CHK_LAST_AXIS (n : Nat) : Fld := ⟨Reg.MA_CHK_LAST n, 4, 4⟩
@[reducible] def Fd.MA_CHK_LAST_LANE (n : Nat) : Fld := ⟨Reg.MA_CHK_LAST n, 3, 2⟩
@[reducible] def Fd.MA_CHK_LAST_SUB (n : Nat) : Fld := ⟨Reg.MA_CHK_LAST n, 1, 0⟩
@[reducible] def Fd.MA_SEQ_S_VALUE (n i : Nat) : Fld := ⟨Reg.MA_SEQ_S n i, 31, 0⟩
@[reducible] def Fd.MA_PROG_WORD (n i : Nat) : Fld := ⟨Reg.MA_PROG n i, 31, 0⟩
@[reducible] def Fd.MA_DQ_MODE_CPLX_W (n : Nat) : Fld := ⟨Reg.MA_DQ_MODE n, 6, 6⟩
@[reducible] def Fd.MA_DQ_MODE_SR (n : Nat) : Fld := ⟨Reg.MA_DQ_MODE n, 5, 5⟩
@[reducible] def Fd.MA_DQ_MODE_DYN_SCALE (n : Nat) : Fld := ⟨Reg.MA_DQ_MODE n, 4, 4⟩
@[reducible] def Fd.MA_DQ_MODE_GROUPED (n : Nat) : Fld := ⟨Reg.MA_DQ_MODE n, 3, 3⟩
@[reducible] def Fd.MA_DQ_MODE_OUT_FMT (n : Nat) : Fld := ⟨Reg.MA_DQ_MODE n, 2, 0⟩
@[reducible] def Fd.MA_DQ_G_G (n : Nat) : Fld := ⟨Reg.MA_DQ_G n, 31, 0⟩
@[reducible] def Fd.MA_DQ_H_H (n : Nat) : Fld := ⟨Reg.MA_DQ_H n, 31, 0⟩
@[reducible] def Fd.MA_DQ_SOUT_SOUT (n : Nat) : Fld := ⟨Reg.MA_DQ_SOUT n, 7, 0⟩
@[reducible] def Fd.MA_FMT_SUB7_COUNT (n : Nat) : Fld := ⟨Reg.MA_FMT_SUB7 n, 31, 0⟩
@[reducible] def Fd.MA_FMT_BADTRIT_COUNT (n : Nat) : Fld := ⟨Reg.MA_FMT_BADTRIT n, 31, 0⟩
@[reducible] def Fd.MA_DQ_SAT_COUNT (n : Nat) : Fld := ⟨Reg.MA_DQ_SAT n, 31, 0⟩
@[reducible] def Fd.MA_DQ_SCALE_CLAMP_COUNT (n : Nat) : Fld := ⟨Reg.MA_DQ_SCALE_CLAMP n, 31, 0⟩
@[reducible] def Fd.MA_ACC_STATUS_SPILL_BUSY (n : Nat) : Fld := ⟨Reg.MA_ACC_STATUS n, 8, 8⟩
@[reducible] def Fd.MA_ACC_STATUS_BOUND (n : Nat) : Fld := ⟨Reg.MA_ACC_STATUS n, 7, 0⟩
@[reducible] def Fd.MA_SPILL_CNT_COUNT (n : Nat) : Fld := ⟨Reg.MA_SPILL_CNT n, 31, 0⟩
@[reducible] def Fd.MA_SPILLS_COUNT (n : Nat) : Fld := ⟨Reg.MA_SPILLS n, 31, 0⟩
@[reducible] def Fd.MA_OAB_OVF_COUNT (n : Nat) : Fld := ⟨Reg.MA_OAB_OVF n, 31, 0⟩
@[reducible] def Fd.MA_WAB_BADEXP_COUNT (n : Nat) : Fld := ⟨Reg.MA_WAB_BADEXP n, 31, 0⟩
@[reducible] def Fd.MA_WAB_ABANDON_COUNT (n : Nat) : Fld := ⟨Reg.MA_WAB_ABANDON n, 31, 0⟩
@[reducible] def Fd.MA_STATS_OVF_COUNT (n : Nat) : Fld := ⟨Reg.MA_STATS_OVF n, 31, 0⟩
@[reducible] def Fd.MA_WAB_SAT_COUNT (n : Nat) : Fld := ⟨Reg.MA_WAB_SAT n, 31, 0⟩
@[reducible] def Fd.MA_BIND_W0_V (n i : Nat) : Fld := ⟨Reg.MA_BIND_W0 n i, 31, 31⟩
@[reducible] def Fd.MA_BIND_W0_COMPACT (n i : Nat) : Fld := ⟨Reg.MA_BIND_W0 n i, 30, 30⟩
@[reducible] def Fd.MA_BIND_W0_COUNT_M1 (n i : Nat) : Fld := ⟨Reg.MA_BIND_W0 n i, 27, 16⟩
@[reducible] def Fd.MA_BIND_W0_OAB_BASE (n i : Nat) : Fld := ⟨Reg.MA_BIND_W0 n i, 14, 0⟩
@[reducible] def Fd.MA_BIND_W1_WAB_ADDR (n i : Nat) : Fld := ⟨Reg.MA_BIND_W1 n i, 19, 6⟩
@[reducible] def Fd.MA_SWIN_LEN (n : Nat) : Fld := ⟨Reg.MA_SWIN n, 31, 19⟩
@[reducible] def Fd.MA_SWIN_BASE (n : Nat) : Fld := ⟨Reg.MA_SWIN n, 13, 0⟩
@[reducible] def Fd.MA_SBANK_BANK (n : Nat) : Fld := ⟨Reg.MA_SBANK n, 0, 0⟩
@[reducible] def Fd.MA_SSEASON_NUMBER (n : Nat) : Fld := ⟨Reg.MA_SSEASON n, 31, 0⟩
@[reducible] def Fd.MA_LSP_CE_COUNT (n : Nat) : Fld := ⟨Reg.MA_LSP_CE n, 31, 0⟩
@[reducible] def Fd.MA_LSP_UE_COUNT (n : Nat) : Fld := ⟨Reg.MA_LSP_UE n, 31, 0⟩
@[reducible] def Fd.MA_OAB_CE_COUNT (n : Nat) : Fld := ⟨Reg.MA_OAB_CE n, 31, 0⟩
@[reducible] def Fd.MA_OAB_UE_COUNT (n : Nat) : Fld := ⟨Reg.MA_OAB_UE n, 31, 0⟩
@[reducible] def Fd.MA_LSP_ON_BANKS (n : Nat) : Fld := ⟨Reg.MA_LSP_ON n, 15, 0⟩
@[reducible] def Fd.VE_ID_MAPPED (n : Nat) : Fld := ⟨Reg.VE_ID n, 16, 16⟩
@[reducible] def Fd.VE_ID_LV (n : Nat) : Fld := ⟨Reg.VE_ID n, 15, 8⟩
@[reducible] def Fd.VE_ID_PV (n : Nat) : Fld := ⟨Reg.VE_ID n, 7, 0⟩
@[reducible] def Fd.VE_STATUS_FAULT (n : Nat) : Fld := ⟨Reg.VE_STATUS n, 7, 7⟩
@[reducible] def Fd.VE_STATUS_WAIT_SYNC (n : Nat) : Fld := ⟨Reg.VE_STATUS n, 6, 6⟩
@[reducible] def Fd.VE_STATUS_WAIT_XFER (n : Nat) : Fld := ⟨Reg.VE_STATUS n, 5, 5⟩
@[reducible] def Fd.VE_STATUS_VBUSY (n : Nat) : Fld := ⟨Reg.VE_STATUS n, 4, 4⟩
@[reducible] def Fd.VE_STATUS_DONE (n : Nat) : Fld := ⟨Reg.VE_STATUS n, 2, 2⟩
@[reducible] def Fd.VE_STATUS_RUN (n : Nat) : Fld := ⟨Reg.VE_STATUS n, 1, 1⟩
@[reducible] def Fd.VE_PC_PC (n : Nat) : Fld := ⟨Reg.VE_PC n, 9, 0⟩
@[reducible] def Fd.VE_FAULT_PC (n : Nat) : Fld := ⟨Reg.VE_FAULT n, 25, 16⟩
@[reducible] def Fd.VE_FAULT_CAUSE (n : Nat) : Fld := ⟨Reg.VE_FAULT n, 3, 0⟩
@[reducible] def Fd.VE_VLEN_VLEN (n : Nat) : Fld := ⟨Reg.VE_VLEN n, 12, 0⟩
@[reducible] def Fd.VE_XFER_PENDING (n : Nat) : Fld := ⟨Reg.VE_XFER n, 3, 0⟩
@[reducible] def Fd.VE_SEQ_PPOINT_PC (n : Nat) : Fld := ⟨Reg.VE_SEQ_PPOINT n, 25, 16⟩
@[reducible] def Fd.VE_SEQ_PPOINT_RECORD (n : Nat) : Fld := ⟨Reg.VE_SEQ_PPOINT n, 15, 0⟩
@[reducible] def Fd.VE_EVT_ISAT_COUNT (n : Nat) : Fld := ⟨Reg.VE_EVT_ISAT n, 31, 0⟩
@[reducible] def Fd.VE_EVT_FOVF_COUNT (n : Nat) : Fld := ⟨Reg.VE_EVT_FOVF n, 31, 0⟩
@[reducible] def Fd.VE_EVT_DIV0_COUNT (n : Nat) : Fld := ⟨Reg.VE_EVT_DIV0 n, 31, 0⟩
@[reducible] def Fd.VE_EVT_NAN_COUNT (n : Nat) : Fld := ⟨Reg.VE_EVT_NAN n, 31, 0⟩
@[reducible] def Fd.VE_EVT_INF_COUNT (n : Nat) : Fld := ⟨Reg.VE_EVT_INF n, 31, 0⟩
@[reducible] def Fd.VE_EVT_DOMAIN_COUNT (n : Nat) : Fld := ⟨Reg.VE_EVT_DOMAIN n, 31, 0⟩
@[reducible] def Fd.VE_EVT_CVT_SAT_COUNT (n : Nat) : Fld := ⟨Reg.VE_EVT_CVT_SAT n, 31, 0⟩
@[reducible] def Fd.VE_EVT_CVT_NAN_COUNT (n : Nat) : Fld := ⟨Reg.VE_EVT_CVT_NAN n, 31, 0⟩
@[reducible] def Fd.VE_EVT_SCALE_CLAMP_COUNT (n : Nat) : Fld := ⟨Reg.VE_EVT_SCALE_CLAMP n, 31, 0⟩
@[reducible] def Fd.VE_EVT_BADTRIT_COUNT (n : Nat) : Fld := ⟨Reg.VE_EVT_BADTRIT n, 31, 0⟩
@[reducible] def Fd.VE_INSTR_COUNT (n : Nat) : Fld := ⟨Reg.VE_INSTR n, 31, 0⟩
@[reducible] def Fd.VE_RES_MISMATCH_COUNT (n : Nat) : Fld := ⟨Reg.VE_RES_MISMATCH n, 31, 0⟩
@[reducible] def Fd.VE_RES_LAST_PC (n : Nat) : Fld := ⟨Reg.VE_RES_LAST n, 25, 16⟩
@[reducible] def Fd.VE_RES_LAST_LANE (n : Nat) : Fld := ⟨Reg.VE_RES_LAST n, 7, 0⟩
@[reducible] def Fd.VE_X_VALUE (n i : Nat) : Fld := ⟨Reg.VE_X n i, 31, 0⟩
@[reducible] def Fd.VE_MEM_CE_COUNT (n : Nat) : Fld := ⟨Reg.VE_MEM_CE n, 31, 0⟩
@[reducible] def Fd.VE_MEM_UE_COUNT (n : Nat) : Fld := ⟨Reg.VE_MEM_UE n, 31, 0⟩
@[reducible] def Fd.VE_PROG_WORD (n i : Nat) : Fld := ⟨Reg.VE_PROG n i, 63, 0⟩
@[reducible] def Fd.AE_ID_ENGINE (n : Nat) : Fld := ⟨Reg.AE_ID n, 2, 0⟩
@[reducible] def Fd.AE_STATUS_FAULT (n : Nat) : Fld := ⟨Reg.AE_STATUS n, 4, 4⟩
@[reducible] def Fd.AE_STATUS_EDIT_HELD (n : Nat) : Fld := ⟨Reg.AE_STATUS n, 3, 3⟩
@[reducible] def Fd.AE_STATUS_WALKING (n : Nat) : Fld := ⟨Reg.AE_STATUS n, 2, 2⟩
@[reducible] def Fd.AE_STATUS_WAIT_SYNC (n : Nat) : Fld := ⟨Reg.AE_STATUS n, 1, 1⟩
@[reducible] def Fd.AE_STATUS_RUN (n : Nat) : Fld := ⟨Reg.AE_STATUS n, 0, 0⟩
@[reducible] def Fd.AE_RING_BASE_ADDR (n : Nat) : Fld := ⟨Reg.AE_RING_BASE n, 31, 0⟩
@[reducible] def Fd.AE_RING_CFG_SIZE (n : Nat) : Fld := ⟨Reg.AE_RING_CFG n, 18, 16⟩
@[reducible] def Fd.AE_RING_CFG_SEM (n : Nat) : Fld := ⟨Reg.AE_RING_CFG n, 13, 0⟩
@[reducible] def Fd.AE_RING_HEAD_INDEX (n : Nat) : Fld := ⟨Reg.AE_RING_HEAD n, 7, 0⟩
@[reducible] def Fd.AE_CUR_V (n : Nat) : Fld := ⟨Reg.AE_CUR n, 31, 31⟩
@[reducible] def Fd.AE_CUR_HEAD (n : Nat) : Fld := ⟨Reg.AE_CUR n, 16, 14⟩
@[reducible] def Fd.AE_CUR_SEQ (n : Nat) : Fld := ⟨Reg.AE_CUR n, 13, 0⟩
@[reducible] def Fd.AE_FAULT_INDEX (n : Nat) : Fld := ⟨Reg.AE_FAULT n, 15, 8⟩
@[reducible] def Fd.AE_FAULT_CAUSE (n : Nat) : Fld := ⟨Reg.AE_FAULT n, 1, 0⟩
@[reducible] def Fd.AE_STEPS_COUNT (n : Nat) : Fld := ⟨Reg.AE_STEPS n, 31, 0⟩
@[reducible] def Fd.AE_PAGES_COUNT (n : Nat) : Fld := ⟨Reg.AE_PAGES n, 31, 0⟩
@[reducible] def Fd.AE_PAGE_FAIL_COUNT (n : Nat) : Fld := ⟨Reg.AE_PAGE_FAIL n, 31, 0⟩
@[reducible] def Fd.AE_NAN_SCORES_COUNT (n : Nat) : Fld := ⟨Reg.AE_NAN_SCORES n, 31, 0⟩
@[reducible] def Fd.AE_ALL_MASKED_COUNT (n : Nat) : Fld := ⟨Reg.AE_ALL_MASKED n, 31, 0⟩
@[reducible] def Fd.AE_INF_ROWS_COUNT (n : Nat) : Fld := ⟨Reg.AE_INF_ROWS n, 31, 0⟩
@[reducible] def Fd.AE_KV_SAT_COUNT (n : Nat) : Fld := ⟨Reg.AE_KV_SAT n, 31, 0⟩
@[reducible] def Fd.AE_EVICTIONS_COUNT (n : Nat) : Fld := ⟨Reg.AE_EVICTIONS n, 31, 0⟩
@[reducible] def Fd.AE_EDITS_HELD_COUNT (n : Nat) : Fld := ⟨Reg.AE_EDITS_HELD n, 31, 0⟩
@[reducible] def Fd.AE_STEP_BAD_COUNT (n : Nat) : Fld := ⟨Reg.AE_STEP_BAD n, 31, 0⟩
@[reducible] def Fd.AE0_KV_BASE_BASE : Fld := ⟨Reg.AE0_KV_BASE, 47, 40⟩
@[reducible] def Fd.AE0_KV_SEQ_BASE_ADDR : Fld := ⟨Reg.AE0_KV_SEQ_BASE, 47, 12⟩
@[reducible] def Fd.AE0_KV_POOL_TOTAL_COUNT : Fld := ⟨Reg.AE0_KV_POOL_TOTAL, 23, 0⟩
@[reducible] def Fd.AE0_KV_FREE_COUNT : Fld := ⟨Reg.AE0_KV_FREE, 23, 0⟩
@[reducible] def Fd.AE0_KV_MAPPED_COUNT : Fld := ⟨Reg.AE0_KV_MAPPED, 23, 0⟩
@[reducible] def Fd.AE0_KV_RETIRING_COUNT : Fld := ⟨Reg.AE0_KV_RETIRING, 23, 0⟩
@[reducible] def Fd.AE0_KV_REMOTE_COUNT : Fld := ⟨Reg.AE0_KV_REMOTE, 23, 0⟩
@[reducible] def Fd.AE0_KV_ACTIVE_COUNT : Fld := ⟨Reg.AE0_KV_ACTIVE, 10, 0⟩
@[reducible] def Fd.AE0_KV_TICK_SRC_CARRIER : Fld := ⟨Reg.AE0_KV_TICK_SRC, 2, 0⟩
@[reducible] def Fd.AE0_KV_ACTIVE_REFUSED_COUNT : Fld := ⟨Reg.AE0_KV_ACTIVE_REFUSED, 31, 0⟩
@[reducible] def Fd.AE0_KV_POOL_EMPTY_COUNT : Fld := ⟨Reg.AE0_KV_POOL_EMPTY, 31, 0⟩
@[reducible] def Fd.EGU_STATUS_IN_FLIGHT (n : Nat) : Fld := ⟨Reg.EGU_STATUS n, 11, 2⟩
@[reducible] def Fd.EGU_STATUS_WAIT_SYNC (n : Nat) : Fld := ⟨Reg.EGU_STATUS n, 1, 1⟩
@[reducible] def Fd.EGU_STATUS_RUN (n : Nat) : Fld := ⟨Reg.EGU_STATUS n, 0, 0⟩
@[reducible] def Fd.EGU_RING_BASE_ADDR (n : Nat) : Fld := ⟨Reg.EGU_RING_BASE n, 31, 0⟩
@[reducible] def Fd.EGU_RING_CFG_SIZE (n : Nat) : Fld := ⟨Reg.EGU_RING_CFG n, 18, 16⟩
@[reducible] def Fd.EGU_RING_CFG_SEM (n : Nat) : Fld := ⟨Reg.EGU_RING_CFG n, 13, 0⟩
@[reducible] def Fd.EGU_RING_HEAD_INDEX (n : Nat) : Fld := ⟨Reg.EGU_RING_HEAD n, 7, 0⟩
@[reducible] def Fd.EGU_GATHERS_COUNT (n : Nat) : Fld := ⟨Reg.EGU_GATHERS n, 31, 0⟩
@[reducible] def Fd.EGU_OOR_COUNT (n : Nat) : Fld := ⟨Reg.EGU_OOR n, 31, 0⟩
@[reducible] def Fd.EGU_BATCH_BAD_COUNT (n : Nat) : Fld := ⟨Reg.EGU_BATCH_BAD n, 31, 0⟩
@[reducible] def Fd.DSC_ID_FALLBACK (n : Nat) : Fld := ⟨Reg.DSC_ID n, 4, 4⟩
@[reducible] def Fd.DSC_ID_CLUSTER (n : Nat) : Fld := ⟨Reg.DSC_ID n, 3, 0⟩
@[reducible] def Fd.DSC_STATUS_FFT_BUSY (n : Nat) : Fld := ⟨Reg.DSC_STATUS n, 8, 8⟩
@[reducible] def Fd.DSC_STATUS_FAULT (n : Nat) : Fld := ⟨Reg.DSC_STATUS n, 7, 4⟩
@[reducible] def Fd.DSC_STATUS_RUN (n : Nat) : Fld := ⟨Reg.DSC_STATUS n, 3, 0⟩
@[reducible] def Fd.DSC_CORE_FAULT_PC (n c : Nat) : Fld := ⟨Reg.DSC_CORE_FAULT n c, 27, 16⟩
@[reducible] def Fd.DSC_CORE_FAULT_CAUSE (n c : Nat) : Fld := ⟨Reg.DSC_CORE_FAULT n c, 3, 0⟩
@[reducible] def Fd.DSC_ACC_SAT_COUNT (n : Nat) : Fld := ⟨Reg.DSC_ACC_SAT n, 31, 0⟩
@[reducible] def Fd.DSC_STREAM_STALL_COUNT (n : Nat) : Fld := ⟨Reg.DSC_STREAM_STALL n, 31, 0⟩
@[reducible] def Fd.DSC_FFT_DONE_COUNT (n : Nat) : Fld := ⟨Reg.DSC_FFT_DONE n, 31, 0⟩
@[reducible] def Fd.DSC_PRECODE_SAT_COUNT (n : Nat) : Fld := ⟨Reg.DSC_PRECODE_SAT n, 31, 0⟩
@[reducible] def Fd.DSC_PUCCH_DTX_COUNT (n : Nat) : Fld := ⟨Reg.DSC_PUCCH_DTX n, 31, 0⟩
@[reducible] def Fd.DSC_SWIN_LEN (n : Nat) : Fld := ⟨Reg.DSC_SWIN n, 31, 19⟩
@[reducible] def Fd.DSC_SWIN_BASE (n : Nat) : Fld := ⟨Reg.DSC_SWIN n, 13, 0⟩
@[reducible] def Fd.DSC_SBANK_BANK (n : Nat) : Fld := ⟨Reg.DSC_SBANK n, 0, 0⟩
@[reducible] def Fd.DSC_SSEASON_NUMBER (n : Nat) : Fld := ⟨Reg.DSC_SSEASON n, 31, 0⟩
@[reducible] def Fd.DSC_MEM_CE_COUNT (n : Nat) : Fld := ⟨Reg.DSC_MEM_CE n, 31, 0⟩
@[reducible] def Fd.DSC_MEM_UE_COUNT (n : Nat) : Fld := ⟨Reg.DSC_MEM_UE n, 31, 0⟩
@[reducible] def Fd.DSC_MEM_ON_BANKS (n : Nat) : Fld := ⟨Reg.DSC_MEM_ON n, 15, 0⟩
@[reducible] def Fd.DEC_LDPC_CFG_MAX_ITER (n : Nat) : Fld := ⟨Reg.DEC_LDPC_CFG n, 5, 0⟩
@[reducible] def Fd.DEC_LDPC_CB_DONE_COUNT (n : Nat) : Fld := ⟨Reg.DEC_LDPC_CB_DONE n, 31, 0⟩
@[reducible] def Fd.DEC_LDPC_CB_CRC_FAIL_COUNT (n : Nat) : Fld := ⟨Reg.DEC_LDPC_CB_CRC_FAIL n, 31, 0⟩
@[reducible] def Fd.DEC_LDPC_ITER_SUM_COUNT (n : Nat) : Fld := ⟨Reg.DEC_LDPC_ITER_SUM n, 31, 0⟩
@[reducible] def Fd.DEC_LDPC_MAX_ITER_HIT_COUNT (n : Nat) : Fld := ⟨Reg.DEC_LDPC_MAX_ITER_HIT n, 31, 0⟩
@[reducible] def Fd.DEC_LDPC_HARQ_SAT_COUNT (n : Nat) : Fld := ⟨Reg.DEC_LDPC_HARQ_SAT n, 31, 0⟩
@[reducible] def Fd.DEC_LDPC_HARQ_MISMATCH_COUNT (n : Nat) : Fld := ⟨Reg.DEC_LDPC_HARQ_MISMATCH n, 31, 0⟩
@[reducible] def Fd.DEC_LDPC_LLR_M128_COUNT (n : Nat) : Fld := ⟨Reg.DEC_LDPC_LLR_M128 n, 31, 0⟩
@[reducible] def Fd.DEC_POL_CB_DONE_COUNT (n : Nat) : Fld := ⟨Reg.DEC_POL_CB_DONE n, 31, 0⟩
@[reducible] def Fd.DEC_POL_CRC_FAIL_COUNT (n : Nat) : Fld := ⟨Reg.DEC_POL_CRC_FAIL n, 31, 0⟩
@[reducible] def Fd.DEC_POL_LLR_M128_COUNT (n : Nat) : Fld := ⟨Reg.DEC_POL_LLR_M128 n, 31, 0⟩
@[reducible] def Fd.DEC_LENC_CB_ENC_COUNT (n : Nat) : Fld := ⟨Reg.DEC_LENC_CB_ENC n, 31, 0⟩
@[reducible] def Fd.DEC_ALLOC_BAD_COUNT : Fld := ⟨Reg.DEC_ALLOC_BAD, 31, 0⟩
@[reducible] def Fd.DEC_RAMP_V (p : Nat) : Fld := ⟨Reg.DEC_RAMP p, 15, 15⟩
@[reducible] def Fd.DEC_RAMP_FLOOR (p : Nat) : Fld := ⟨Reg.DEC_RAMP p, 14, 8⟩
@[reducible] def Fd.DEC_RAMP_LEN (p : Nat) : Fld := ⟨Reg.DEC_RAMP p, 6, 0⟩
@[reducible] def Fd.FHP_CFG_MTU (n : Nat) : Fld := ⟨Reg.FHP_CFG n, 4, 4⟩
@[reducible] def Fd.FHP_CFG_CLS_EN (n : Nat) : Fld := ⟨Reg.FHP_CFG n, 3, 3⟩
@[reducible] def Fd.FHP_CFG_DROP (n : Nat) : Fld := ⟨Reg.FHP_CFG n, 2, 2⟩
@[reducible] def Fd.FHP_CFG_MODE (n : Nat) : Fld := ⟨Reg.FHP_CFG n, 1, 0⟩
@[reducible] def Fd.FHP_STATUS_CLS_BAD (n : Nat) : Fld := ⟨Reg.FHP_STATUS n, 4, 4⟩
@[reducible] def Fd.FHP_STATUS_LINK (n : Nat) : Fld := ⟨Reg.FHP_STATUS n, 3, 0⟩
@[reducible] def Fd.FHP_EAXC_FMT_RU_W (n : Nat) : Fld := ⟨Reg.FHP_EAXC_FMT n, 15, 12⟩
@[reducible] def Fd.FHP_EAXC_FMT_CC_W (n : Nat) : Fld := ⟨Reg.FHP_EAXC_FMT n, 11, 8⟩
@[reducible] def Fd.FHP_EAXC_FMT_BS_W (n : Nat) : Fld := ⟨Reg.FHP_EAXC_FMT n, 7, 4⟩
@[reducible] def Fd.FHP_EAXC_FMT_DU_W (n : Nat) : Fld := ⟨Reg.FHP_EAXC_FMT n, 3, 0⟩
@[reducible] def Fd.FHP_HRING_ADDR (n : Nat) : Fld := ⟨Reg.FHP_HRING n, 39, 12⟩
@[reducible] def Fd.FHP_HR_HEAD_INDEX (n : Nat) : Fld := ⟨Reg.FHP_HR_HEAD n, 7, 0⟩
@[reducible] def Fd.FHP_HR_TAIL_INDEX (n : Nat) : Fld := ⟨Reg.FHP_HR_TAIL n, 7, 0⟩
@[reducible] def Fd.FHP_RX_FRAMES_COUNT (n : Nat) : Fld := ⟨Reg.FHP_RX_FRAMES n, 31, 0⟩
@[reducible] def Fd.FHP_RX_DROP_COUNT (n : Nat) : Fld := ⟨Reg.FHP_RX_DROP n, 31, 0⟩
@[reducible] def Fd.FHP_CLS_NOMATCH_COUNT (n : Nat) : Fld := ⟨Reg.FHP_CLS_NOMATCH n, 31, 0⟩
@[reducible] def Fd.FHP_ECPRI_BAD_COUNT (n : Nat) : Fld := ⟨Reg.FHP_ECPRI_BAD n, 31, 0⟩
@[reducible] def Fd.FHP_SECT_BAD_COUNT (n : Nat) : Fld := ⟨Reg.FHP_SECT_BAD n, 31, 0⟩
@[reducible] def Fd.FHP_RX_EARLY_COUNT (n : Nat) : Fld := ⟨Reg.FHP_RX_EARLY n, 31, 0⟩
@[reducible] def Fd.FHP_RX_LATE_COUNT (n : Nat) : Fld := ⟨Reg.FHP_RX_LATE n, 31, 0⟩
@[reducible] def Fd.FHP_HOST_DROP_COUNT (n : Nat) : Fld := ⟨Reg.FHP_HOST_DROP n, 31, 0⟩
@[reducible] def Fd.FHP_TX_FRAMES_COUNT (n : Nat) : Fld := ⟨Reg.FHP_TX_FRAMES n, 31, 0⟩
@[reducible] def Fd.FHP_RX_FCS_COUNT (n : Nat) : Fld := ⟨Reg.FHP_RX_FCS n, 31, 0⟩
@[reducible] def Fd.FHP_CLS_INSTR (n i : Nat) : Fld := ⟨Reg.FHP_CLS n i, 63, 0⟩
@[reducible] def Fd.FHP0_CAR_CFG_NANT (c : Nat) : Fld := ⟨Reg.FHP0_CAR_CFG c, 31, 25⟩
@[reducible] def Fd.FHP0_CAR_CFG_NPRB (c : Nat) : Fld := ⟨Reg.FHP0_CAR_CFG c, 24, 16⟩
@[reducible] def Fd.FHP0_CAR_CFG_PORT (c : Nat) : Fld := ⟨Reg.FHP0_CAR_CFG c, 13, 12⟩
@[reducible] def Fd.FHP0_CAR_CFG_MAC (c : Nat) : Fld := ⟨Reg.FHP0_CAR_CFG c, 11, 10⟩
@[reducible] def Fd.FHP0_CAR_CFG_DYNHDR (c : Nat) : Fld := ⟨Reg.FHP0_CAR_CFG c, 9, 9⟩
@[reducible] def Fd.FHP0_CAR_CFG_CAT (c : Nat) : Fld := ⟨Reg.FHP0_CAR_CFG c, 8, 8⟩
@[reducible] def Fd.FHP0_CAR_CFG_IQW (c : Nat) : Fld := ⟨Reg.FHP0_CAR_CFG c, 7, 4⟩
@[reducible] def Fd.FHP0_CAR_CFG_COMP (c : Nat) : Fld := ⟨Reg.FHP0_CAR_CFG c, 3, 2⟩
@[reducible] def Fd.FHP0_CAR_CFG_V (c : Nat) : Fld := ⟨Reg.FHP0_CAR_CFG c, 0, 0⟩
@[reducible] def Fd.FHP0_CAR_RXWIN_CLOSE (c : Nat) : Fld := ⟨Reg.FHP0_CAR_RXWIN c, 31, 16⟩
@[reducible] def Fd.FHP0_CAR_RXWIN_OPEN (c : Nat) : Fld := ⟨Reg.FHP0_CAR_RXWIN c, 15, 0⟩
@[reducible] def Fd.FHP0_CAR_ADV_CP_ADV (c : Nat) : Fld := ⟨Reg.FHP0_CAR_ADV c, 31, 16⟩
@[reducible] def Fd.FHP0_CAR_ADV_UP_ADV (c : Nat) : Fld := ⟨Reg.FHP0_CAR_ADV c, 15, 0⟩
@[reducible] def Fd.FHP0_CAR_VLAN_PCP (c : Nat) : Fld := ⟨Reg.FHP0_CAR_VLAN c, 14, 12⟩
@[reducible] def Fd.FHP0_CAR_VLAN_VID (c : Nat) : Fld := ⟨Reg.FHP0_CAR_VLAN c, 11, 0⟩
@[reducible] def Fd.ILP_CFG_MAXPAY (n : Nat) : Fld := ⟨Reg.ILP_CFG n, 13, 12⟩
@[reducible] def Fd.ILP_CFG_VID (n : Nat) : Fld := ⟨Reg.ILP_CFG n, 11, 0⟩
@[reducible] def Fd.ILP_PCP_VC3 (n : Nat) : Fld := ⟨Reg.ILP_PCP n, 14, 12⟩
@[reducible] def Fd.ILP_PCP_VC2 (n : Nat) : Fld := ⟨Reg.ILP_PCP n, 10, 8⟩
@[reducible] def Fd.ILP_PCP_VC1 (n : Nat) : Fld := ⟨Reg.ILP_PCP n, 6, 4⟩
@[reducible] def Fd.ILP_PCP_VC0 (n : Nat) : Fld := ⟨Reg.ILP_PCP n, 2, 0⟩
@[reducible] def Fd.ILP_STATUS_PATHS (n : Nat) : Fld := ⟨Reg.ILP_STATUS n, 24, 16⟩
@[reducible] def Fd.ILP_STATUS_LINK (n : Nat) : Fld := ⟨Reg.ILP_STATUS n, 0, 0⟩
@[reducible] def Fd.ILP_RTO_RETRIES (n : Nat) : Fld := ⟨Reg.ILP_RTO n, 19, 16⟩
@[reducible] def Fd.ILP_RTO_TIME (n : Nat) : Fld := ⟨Reg.ILP_RTO n, 15, 0⟩
@[reducible] def Fd.ILP_TAGS_OUT (n : Nat) : Fld := ⟨Reg.ILP_TAGS n, 28, 16⟩
@[reducible] def Fd.ILP_TAGS_FREE (n : Nat) : Fld := ⟨Reg.ILP_TAGS n, 12, 0⟩
@[reducible] def Fd.ILP_CR_POOL_COUNT (n v : Nat) : Fld := ⟨Reg.ILP_CR_POOL n v, 13, 0⟩
@[reducible] def Fd.ILP_CR_FREE_COUNT (n v : Nat) : Fld := ⟨Reg.ILP_CR_FREE n v, 13, 0⟩
@[reducible] def Fd.ILP_CR_GRANTED_COUNT (n v : Nat) : Fld := ⟨Reg.ILP_CR_GRANTED n v, 13, 0⟩
@[reducible] def Fd.ILP_CR_BUSY_COUNT (n v : Nat) : Fld := ⟨Reg.ILP_CR_BUSY n v, 13, 0⟩
@[reducible] def Fd.ILP_CR_CAP_COUNT (n v : Nat) : Fld := ⟨Reg.ILP_CR_CAP n v, 13, 0⟩
@[reducible] def Fd.ILP_TX_PKTS_COUNT (n : Nat) : Fld := ⟨Reg.ILP_TX_PKTS n, 31, 0⟩
@[reducible] def Fd.ILP_RX_PKTS_COUNT (n : Nat) : Fld := ⟨Reg.ILP_RX_PKTS n, 31, 0⟩
@[reducible] def Fd.ILP_RETX_COUNT (n : Nat) : Fld := ⟨Reg.ILP_RETX n, 31, 0⟩
@[reducible] def Fd.ILP_PATH_FAIL_COUNT (n : Nat) : Fld := ⟨Reg.ILP_PATH_FAIL n, 31, 0⟩
@[reducible] def Fd.ILP_STALE_EPOCH_COUNT (n : Nat) : Fld := ⟨Reg.ILP_STALE_EPOCH n, 31, 0⟩
@[reducible] def Fd.ILP_WIN_BAD_COUNT (n : Nat) : Fld := ⟨Reg.ILP_WIN_BAD n, 31, 0⟩
@[reducible] def Fd.ILP_WIN_CLOSED_DROP_COUNT (n : Nat) : Fld := ⟨Reg.ILP_WIN_CLOSED_DROP n, 31, 0⟩
@[reducible] def Fd.ILP_PFC_RX_COUNT (n : Nat) : Fld := ⟨Reg.ILP_PFC_RX n, 31, 0⟩
@[reducible] def Fd.ILP_FCS_ERR_COUNT (n : Nat) : Fld := ⟨Reg.ILP_FCS_ERR n, 31, 0⟩
@[reducible] def Fd.ILP_WCLOSE_LAST_TIME (n : Nat) : Fld := ⟨Reg.ILP_WCLOSE_LAST n, 63, 32⟩
@[reducible] def Fd.ILP_WCLOSE_LAST_SRC (n : Nat) : Fld := ⟨Reg.ILP_WCLOSE_LAST n, 23, 12⟩
@[reducible] def Fd.ILP_WCLOSE_LAST_WINDOW (n : Nat) : Fld := ⟨Reg.ILP_WCLOSE_LAST n, 11, 0⟩
@[reducible] def Fd.ILP_ROUTE_PORT0 (k : Nat) : Fld := ⟨Reg.ILP_ROUTE k, 1, 0⟩
@[reducible] def Fd.ILP_ROUTE_V0 (k : Nat) : Fld := ⟨Reg.ILP_ROUTE k, 3, 3⟩
@[reducible] def Fd.ILP_ROUTE_PORT1 (k : Nat) : Fld := ⟨Reg.ILP_ROUTE k, 5, 4⟩
@[reducible] def Fd.ILP_ROUTE_V1 (k : Nat) : Fld := ⟨Reg.ILP_ROUTE k, 7, 7⟩
@[reducible] def Fd.ILP_ROUTE_PORT2 (k : Nat) : Fld := ⟨Reg.ILP_ROUTE k, 9, 8⟩
@[reducible] def Fd.ILP_ROUTE_V2 (k : Nat) : Fld := ⟨Reg.ILP_ROUTE k, 11, 11⟩
@[reducible] def Fd.ILP_ROUTE_PORT3 (k : Nat) : Fld := ⟨Reg.ILP_ROUTE k, 13, 12⟩
@[reducible] def Fd.ILP_ROUTE_V3 (k : Nat) : Fld := ⟨Reg.ILP_ROUTE k, 15, 15⟩
@[reducible] def Fd.ILP_ROUTE_PORT4 (k : Nat) : Fld := ⟨Reg.ILP_ROUTE k, 17, 16⟩
@[reducible] def Fd.ILP_ROUTE_V4 (k : Nat) : Fld := ⟨Reg.ILP_ROUTE k, 19, 19⟩
@[reducible] def Fd.ILP_ROUTE_PORT5 (k : Nat) : Fld := ⟨Reg.ILP_ROUTE k, 21, 20⟩
@[reducible] def Fd.ILP_ROUTE_V5 (k : Nat) : Fld := ⟨Reg.ILP_ROUTE k, 23, 23⟩
@[reducible] def Fd.ILP_ROUTE_PORT6 (k : Nat) : Fld := ⟨Reg.ILP_ROUTE k, 25, 24⟩
@[reducible] def Fd.ILP_ROUTE_V6 (k : Nat) : Fld := ⟨Reg.ILP_ROUTE k, 27, 27⟩
@[reducible] def Fd.ILP_ROUTE_PORT7 (k : Nat) : Fld := ⟨Reg.ILP_ROUTE k, 29, 28⟩
@[reducible] def Fd.ILP_ROUTE_V7 (k : Nat) : Fld := ⟨Reg.ILP_ROUTE k, 31, 31⟩
@[reducible] def Fd.ILP_ROSTER_WORD (g k : Nat) : Fld := ⟨Reg.ILP_ROSTER g k, 31, 0⟩
@[reducible] def Fd.ILP_DEVICE_ID_ID : Fld := ⟨Reg.ILP_DEVICE_ID, 11, 0⟩
@[reducible] def Fd.ILP_MAC_PREFIX_PREFIX : Fld := ⟨Reg.ILP_MAC_PREFIX, 31, 0⟩
@[reducible] def Fd.ILP_ETHERTYPE_TYPE : Fld := ⟨Reg.ILP_ETHERTYPE, 15, 0⟩
@[reducible] def Fd.ILP_CTRL_TIMEOUT_US : Fld := ⟨Reg.ILP_CTRL_TIMEOUT, 15, 0⟩
@[reducible] def Fd.ILP_GROUP_JOINED (g : Nat) : Fld := ⟨Reg.ILP_GROUP g, 31, 31⟩
@[reducible] def Fd.ILP_GROUP_KIND (g : Nat) : Fld := ⟨Reg.ILP_GROUP g, 28, 28⟩
@[reducible] def Fd.ILP_GROUP_ROOT (g : Nat) : Fld := ⟨Reg.ILP_GROUP g, 27, 16⟩
@[reducible] def Fd.ILP_GROUP_ID (g : Nat) : Fld := ⟨Reg.ILP_GROUP g, 15, 0⟩
@[reducible] def Fd.ILP_GROUP_EPOCH_EPOCH (g : Nat) : Fld := ⟨Reg.ILP_GROUP_EPOCH g, 31, 0⟩
@[reducible] def Fd.FW_REGION_BASE_ADDR (i : Nat) : Fld := ⟨Reg.FW_REGION_BASE i, 39, 12⟩
@[reducible] def Fd.FW_REGION_LIMIT_ADDR (i : Nat) : Fld := ⟨Reg.FW_REGION_LIMIT i, 39, 12⟩
@[reducible] def Fd.FW_REGION_RMASK_MASK (i : Nat) : Fld := ⟨Reg.FW_REGION_RMASK i, 63, 0⟩
@[reducible] def Fd.FW_REGION_WMASK_MASK (i : Nat) : Fld := ⟨Reg.FW_REGION_WMASK i, 63, 0⟩
@[reducible] def Fd.FW_DEFAULT_RMASK_ORIGINS : Fld := ⟨Reg.FW_DEFAULT_RMASK, 63, 0⟩
@[reducible] def Fd.FW_DEFAULT_WMASK_ORIGINS : Fld := ⟨Reg.FW_DEFAULT_WMASK, 63, 0⟩
@[reducible] def Fd.FW_LOCK_LOCKED : Fld := ⟨Reg.FW_LOCK, 0, 0⟩
@[reducible] def Fd.FW_REFUSED_COUNT : Fld := ⟨Reg.FW_REFUSED, 31, 0⟩
@[reducible] def Fd.FW_LAST_ORIGIN : Fld := ⟨Reg.FW_LAST, 21, 16⟩
@[reducible] def Fd.FW_LAST_WRITE : Fld := ⟨Reg.FW_LAST, 0, 0⟩
@[reducible] def Fd.FW_LAST_ADDR_ADDR : Fld := ⟨Reg.FW_LAST_ADDR, 39, 0⟩
@[reducible] def Fd.LOG_CTRL_STICKY_CLR : Fld := ⟨Reg.LOG_CTRL, 0, 0⟩
@[reducible] def Fd.LOG_NEXT_SEQ_SEQ : Fld := ⟨Reg.LOG_NEXT_SEQ, 31, 0⟩
@[reducible] def Fd.LOG_OLDEST_SEQ_SEQ : Fld := ⟨Reg.LOG_OLDEST_SEQ, 31, 0⟩
@[reducible] def Fd.LOG_OVERWRITTEN_COUNT : Fld := ⟨Reg.LOG_OVERWRITTEN, 31, 0⟩
@[reducible] def Fd.LOG_STICKY_COUNT_COUNT : Fld := ⟨Reg.LOG_STICKY_COUNT, 9, 0⟩
@[reducible] def Fd.LOG_STICKY_LOST_COUNT : Fld := ⟨Reg.LOG_STICKY_LOST, 31, 0⟩
@[reducible] def Fd.MEMC_CE_COUNT (c : Nat) : Fld := ⟨Reg.MEMC_CE c, 31, 0⟩
@[reducible] def Fd.MEMC_UE_COUNT (c : Nat) : Fld := ⟨Reg.MEMC_UE c, 31, 0⟩
@[reducible] def Fd.MEMC_POISONED_COUNT (c : Nat) : Fld := ⟨Reg.MEMC_POISONED c, 31, 0⟩
@[reducible] def Fd.MEMC_SCRUB_PASSES_COUNT (c : Nat) : Fld := ⟨Reg.MEMC_SCRUB_PASSES c, 31, 0⟩
@[reducible] def Fd.MEMC_LAST_UE_ADDR (c : Nat) : Fld := ⟨Reg.MEMC_LAST_UE c, 39, 6⟩
@[reducible] def Fd.SCRUB_CFG_MAXSH : Fld := ⟨Reg.SCRUB_CFG, 3, 0⟩
@[reducible] def Fd.USABLE_GIB : Fld := ⟨Reg.USABLE, 31, 0⟩

end Sys2Proof.Machine
end

