-- ==== Sys2Proof/Machine/Tbl.lean ====
section
/-! DEFINITION. Sparse tables by address: a list of (key, value) pairs in one canonical form, keys strictly rising and no
value equal to what an unlisted key reads as. Registers, memories and per-unit state are all held so. Also the
bit-field, sign-extension and byte-order helpers that the meanings use. -/

namespace Sys2Proof.Machine

/-- The value at key `k`; an unlisted key reads `d k`. -/
def Tbl.get {α : Type} (d : Nat → α) (m : List (Nat × α)) (k : Nat) : α :=
  match m with
  | [] => d k
  | (a, v) :: rest => if a = k then v else Tbl.get d rest k

/-- Remove every entry of key `k`. -/
def Tbl.erase {α : Type} (m : List (Nat × α)) (k : Nat) : List (Nat × α) :=
  m.filter (fun p => p.1 != k)

/-- Put an entry before the first entry of a greater key. -/
def Tbl.insert {α : Type} (m : List (Nat × α)) (k : Nat) (v : α) : List (Nat × α) :=
  match m with
  | [] => [(k, v)]
  | (a, w) :: rest => if k < a then (k, v) :: (a, w) :: rest else (a, w) :: Tbl.insert rest k v

/-- Write `v` at key `k`; writing what an unlisted key reads as removes the entry. -/
def Tbl.set {α : Type} [DecidableEq α] (d : Nat → α) (m : List (Nat × α)) (k : Nat) (v : α) : List (Nat × α) :=
  if v = d k then Tbl.erase m k else Tbl.insert (Tbl.erase m k) k v

/-- Remove every entry with a key in `lo ≤ key < hi`: the range reads as unlisted again. -/
def Tbl.clearRange {α : Type} (m : List (Nat × α)) (lo hi : Nat) : List (Nat × α) :=
  m.filter (fun p => !(decide (lo ≤ p.1) && decide (p.1 < hi)))

/-- The keys of a table rise strictly. -/
def Tbl.sorted {α : Type} (m : List (Nat × α)) : Bool :=
  match m with
  | [] => true
  | (a, _) :: rest => (match rest with
      | [] => true
      | (b, _) :: _ => decide (a < b)) && Tbl.sorted rest

/-- No entry repeats what its key reads as when it is unlisted. -/
def Tbl.lean {α : Type} [DecidableEq α] (d : Nat → α) (m : List (Nat × α)) : Bool :=
  m.all (fun p => decide (p.2 ≠ d p.1))

/-- The canonical form: strictly rising keys, no entry equal to the unlisted value. -/
def Tbl.wf {α : Type} [DecidableEq α] (d : Nat → α) (m : List (Nat × α)) : Bool :=
  Tbl.sorted m && Tbl.lean d m

/-- The unlisted value of a byte memory: zero (R443, R445). -/
def zeroByte (_ : Nat) : Byte := 0

/-- The unlisted value of a table of 32-bit words: zero (R443). -/
def zeroWord32 (_ : Nat) : Word32 := 0

/-! ### Bit fields -/

/-- Bits hi:lo of a natural number. -/
def bitsOf (n hi lo : Nat) : Nat := (n >>> lo) % 2 ^ (hi + 1 - lo)

/-- Bit i of a natural number. -/
def bitOf (n i : Nat) : Bool := (n >>> i) % 2 = 1

/-- 1 for true, 0 for false. -/
def b2n (b : Bool) : Nat := if b then 1 else 0

/-- The mask of the low `w` bits. -/
def lowMask (w : Nat) : Word := BitVec.ofNat 64 (2 ^ w - 1)

/-- Field hi:lo of a 64-bit value. -/
def fieldGet (v : Word) (hi lo : Nat) : Nat := ((v >>> lo) &&& lowMask (hi + 1 - lo)).toNat

/-- A 64-bit value with field hi:lo replaced by the low bits of `x`. -/
def fieldPut (v : Word) (hi lo x : Nat) : Word :=
  (v &&& ~~~(lowMask (hi + 1 - lo) <<< lo)) ||| ((BitVec.ofNat 64 x &&& lowMask (hi + 1 - lo)) <<< lo)

/-- The signed value of the low `w` bits of `n` (two's complement). -/
def signed (w n : Nat) : Int :=
  let m := n % 2 ^ w
  if m < 2 ^ (w - 1) then (m : Int) else (m : Int) - (2 ^ w : Nat)

/-- An integer modulo 2^w, as a natural number. -/
def wrapN (w : Nat) (x : Int) : Nat := (x % (2 ^ w : Nat)).toNat

/-- An integer clamped to the signed range of `w` bits. -/
def satS (w : Nat) (x : Int) : Int :=
  let hi : Int := (2 ^ (w - 1) : Nat) - 1
  let lo : Int := -((2 ^ (w - 1) : Nat) : Int)
  if x > hi then hi else if x < lo then lo else x

/-! ### Byte order: every multi-byte value of the manual is little-endian (R256 packets, Table 9.7) -/

/-- The value of a little-endian byte list. -/
def leNat : List Byte → Nat
  | [] => 0
  | b :: bs => b.toNat + 256 * leNat bs

/-- `n` little-endian bytes of a value. -/
def leBytes (n v : Nat) : List Byte :=
  match n with
  | 0 => []
  | k + 1 => BitVec.ofNat 8 v :: leBytes k (v / 256)

/-- A field of a byte record: `n` bytes at offset `o`, little-endian. -/
def leAt (bs : List Byte) (o n : Nat) : Nat := leNat ((bs.drop o).take n)

/-- `n` zero bytes. -/
def zeros (n : Nat) : List Byte := List.replicate n 0

/-- The list padded with zero bytes to `n`, or cut to it. -/
def padTo (n : Nat) (bs : List Byte) : List Byte := (bs ++ zeros n).take n

/-! ### CRCs (R293, R303, R314, R329: CRC-32 of IEEE 802.3) -/

/-- One bit step of the reflected CRC-32. -/
def crc32Bit (c : Nat) : Nat := if c % 2 = 1 then (c / 2) ^^^ 0xEDB88320 else c / 2

/-- One byte step of the reflected CRC-32. -/
def crc32Byte (c : Nat) (b : Byte) : Nat :=
  crc32Bit (crc32Bit (crc32Bit (crc32Bit (crc32Bit (crc32Bit (crc32Bit (crc32Bit (c ^^^ b.toNat))))))))

/-- CRC-32 of IEEE 802.3 over a byte list. -/
def crc32 (bs : List Byte) : Nat := (bs.foldl crc32Byte 0xFFFFFFFF) ^^^ 0xFFFFFFFF

end Sys2Proof.Machine
end

