-- ==== Sys2Proof/Machine/State.lean ====
section
/-! DEFINITION. The state of the device, the reasons a step can stop, and the state after reset. -/

namespace Sys2Proof.Machine

/-- Why the machine stops with a fault. -/
inductive Fault where
  /-- Raised by every command after REFCLK has stopped: the device is undefined until a cold reset (R470). Safe: the
  model stops where the device may do anything. -/
  | clockLost
  deriving DecidableEq, Repr

/-- Why a command has no meaning in the model. -/
inductive Refusal where
  /-- A command of the opcode table without a meaning yet; raised by `exec` alone. Safe. -/
  | notModelled (mnemonic : String)
  deriving DecidableEq, Repr

/-- What the whole device is doing: running, held in reset (R318, R457), without supplies (R456), without REFCLK (R470). -/
inductive Phase where
  | running | held | off | clockLost
  deriving DecidableEq, Repr

/-- A record of the error log (Table 13.5). -/
structure LogRec where
  seq : Nat
  kind : Nat
  origin : Nat
  sticky : Bool
  write : Bool
  unit : Nat
  addr : Nat
  data : Nat
  time : Nat
  deriving DecidableEq, Repr

/-- A 32-byte reply record (Table 10.2) before its phase bit is known; `w1` to `w3` are its last three words. -/
structure Reply where
  port : Fin 2
  queue : Fin 32
  opcode : Nat
  status : Nat
  tag : Nat
  index : Nat
  kind : Nat
  detail : Nat
  w1 : Word
  w2 : Word
  w3 : Word
  /-- raises the queue's interrupt source when it is written -/
  irq : Bool
  deriving DecidableEq, Repr

/-- How far a command in flight has come (R255): fetched but not begun, executing, or complete with its reply held. -/
inductive CmdPhase where
  | fetched | executing | replied
  deriving DecidableEq, Repr

/-- A command in flight. -/
structure Cmd where
  opcode : Nat
  pkt : Pkt
  phase : CmdPhase
  /-- ended by a port reset while executing: its reply becomes PORT_RESET with DETAIL 1 (R272) -/
  portReset : Bool
  /-- what an executing command still waits for, per opcode: a carrier mask, a count, a frame epoch -/
  aux : Nat
  deriving DecidableEq, Repr

/-- A wait in progress at SYN (R274, R275). -/
structure Waiter where
  obj : Nat
  agent : Agent
  /-- the wait has a deadline: the object's is not 0 and the unit has latched a slot -/
  deadline : Bool
  /-- the deadline has passed and has been reported -/
  missed : Bool
  deriving DecidableEq, Repr

/-- What a read or an access returned to its initiator. -/
inductive Resp where
  | none
  /-- a register value -/
  | value (v : Word)
  /-- data, with the PCIe poisoned (EP) bit (Table 9.6) -/
  | data (bytes : List Byte) (poisoned : Bool)
  /-- an Unsupported Request completion (R310, R407) -/
  | unsupported
  /-- not acknowledged on the SMBus (R479) -/
  | nack
  /-- the cells that SAMPLE/PRELOAD sampled (R482) -/
  | cells (l : List Bool)
  deriving DecidableEq, Repr

/-- One level's coalescer (R423): latches since its last delivery, its timer started and at which elapsed time, and whether the level
is ready. -/
structure Coal where
  count : Nat
  timer : Bool
  start : Nat
  ready : Bool
  deriving DecidableEq, Repr

/-- A statistics record (R108): count, sum, sum of squares. -/
structure StatRec where
  count : Nat
  sum : Int
  sumsq : Nat
  deriving DecidableEq, Repr

/-- The front-end statistics of one antenna (R173, Table 8.1): resource elements, the sums of the raw samples, the sum of
their squared magnitudes, and over the pairs k, -k the sum of y_k y_-k and of the squared magnitudes. -/
structure Radio where
  count : Nat
  re : Int
  im : Int
  power : Nat
  imgRe : Int
  imgIm : Int
  imgDen : Nat
  deriving DecidableEq, Repr

/-- The radio values of a season for one antenna (Table 8.3): dc, beta in Q1.15, gain correction in UQ2.14. -/
structure Comp where
  dcRe : Int
  dcIm : Int
  bRe : Int
  bIm : Int
  gain : Nat
  deriving DecidableEq, Repr

/-- An antenna that no season has corrected: no offset, no image, gain 1. -/
def compReset (_ : Nat) : Comp := ⟨0, 0, 0, 0, 0x4000⟩

/-- A record without samples. -/
def statReset (_ : Nat) : StatRec := ⟨0, 0, 0⟩

/-- No statistics. -/
def radioReset (_ : Nat) : Radio := ⟨0, 0, 0, 0, 0, 0, 0⟩

/-- An allocation record of a slot configuration entry (Table 10.7a). -/
structure Alloc where
  type : Nat
  flags : Nat
  ue : Nat
  prb0 : Nat
  nprb : Nat
  sym0 : Nat
  nsym : Nat
  layer0 : Nat
  layers : Nat
  qm : Nat
  dmrs : Nat
  tbs : Nat
  code : Nat
  harq : Nat
  format : Nat
  softbuf : Nat
  dataVa : Nat
  precoderVa : Nat
  amp : Nat
  prg : Nat
  deriving DecidableEq, Repr

/-- A decoded code block: its bits of the transport block, whether its CRC held, the iterations run, its decoder (R184). -/
structure CbOut where
  bits : List Bool
  crcOk : Bool
  iters : Nat
  dec : Nat
  deriving DecidableEq, Repr

/-- What SAF released for a code block (R295). -/
inductive Release where
  | learned | fallback | notDecoded
  deriving DecidableEq, Repr

/-- An entry of SAF's code-block table (R299). -/
structure CodeBlock where
  /-- number within the carrier's slot (R488) -/
  num : Nat
  /-- allocation of the slot entry -/
  alloc : Nat
  /-- number within its transport block, and how many it has -/
  inTb : Nat
  ofTb : Nat
  /-- layers that carry it, a mask -/
  layers : Nat
  /-- the doubt word (Table 12.2) -/
  doubt : Nat
  /-- elapsed time of the first bit, in twelfths of a REFCLK cycle (R302) -/
  doubtAt : Nat
  learned : Option CbOut
  fallback : Option CbOut
  /-- when the fallback output was ready -/
  fbAt : Nat
  released : Option Release
  deriving DecidableEq, Repr

/-- A task supervisor (Table 12.7); windows in units of 8 ns. -/
structure Sup where
  safe : Bool
  carrier : Nat
  start : Nat
  finish : Nat
  layers : Nat
  startOpen : Nat
  startClose : Nat
  finishOpen : Nat
  finishClose : Nat
  deriving DecidableEq, Repr

/-- The safety configuration of a carrier (Table 12.6). -/
structure SafeCar where
  fbEn : Bool
  ffdEn : Bool
  ffdAction : Bool
  layers : List Nat
  /-- named antennas; none: the default set of R187 -/
  antennas : Option (List Nat)
  deriving DecidableEq, Repr

/-- An uplink section as FHP hands it on (R355): FHP port, eAxC ID, antenna, symbol, first PRB and count, the exponent of each
PRB and its 24 parts; whether its verdict was other than OK (R303). -/
structure RxSect where
  port : Nat
  eaxc : Nat
  ant : Nat
  sym : Nat
  prb0 : Nat
  nprb : Nat
  exps : List Int
  parts : List Int
  bad : Bool
  deriving DecidableEq, Repr

/-- A key of FFD's history (R304) with the frames and CRCs held for it, oldest first. -/
structure FfdKey where
  port : Nat
  eaxc : Nat
  slot : Nat
  sym : Nat
  prb0 : Nat
  nprb : Nat
  held : List (Nat × Nat)
  deriving DecidableEq, Repr

/-- A frame in an ingress queue (R363): its carrier, the time of its last byte in twelfths of a REFCLK cycle, the bytes from its
EtherType on. -/
structure RxFrame where
  carrier : Nat
  at_ : Nat
  size : Nat
  body : List Byte
  deriving DecidableEq, Repr

/-- A slot context (R29) and what SAF keeps of the slot until its reply is written. -/
structure SlotCtx where
  /-- number of the tick on its carrier -/
  id : Nat
  /-- absolute slot number since the PTP epoch -/
  abs : Nat
  sfn : Nat
  slot : Nat
  /-- SEQ of the latched entry -/
  seq : Nat
  /-- the tick, or in deterministic mode the tick beat, in twelfths of a REFCLK cycle of elapsed time (R284, R306, R389) -/
  t0 : Nat
  season : Nat
  bank : Nat
  ramp : Nat
  ul : Bool
  dl : Bool
  pshift : Nat
  dtx : Nat
  qrep : Nat
  allocs : List Alloc
  /-- physical arrays doubtful on their known-answer tests at the tick (R313) -/
  katDoubt : List Nat
  fbLayers : List Nat
  fbEn : Bool
  /-- TSU.CAR.V and FHP0.CAR.CFG.V both 1 at the tick (R28) -/
  configured : Bool
  ffdEn : Bool
  ffdAction : Bool
  late : Bool
  /-- on the learned path (R265) -/
  learned : Bool
  /-- last synchronisation points of the slot that units have passed (R265) -/
  passed : List (Bool × Nat × Nat)
  /-- front-end statistics of the slot, by antenna (R173, R210) -/
  radio : List (Nat × Radio)
  /-- its slot reply has been written or held -/
  replied : Bool
  /-- index of the first dropped allocation (R171, R263) -/
  dropped : Option Nat
  /-- code-block table full at the tick, or both outputs missed (R299, Table 1.6) -/
  deadline : Bool
  cbs : List CodeBlock
  /-- port, queue and binding of its reply, as at the tick -/
  route : Fin 2 × Fin 32 × Nat
  /-- the fallback's antennas (R187) -/
  fbAnts : List Nat
  /-- its task supervisors (R306) -/
  sups : List (Nat × Sup)
  /-- supervisors whose START, and FINISH, was signalled for the slot -/
  supStart : List Nat
  supFinish : List Nat
  /-- supervisors whose START, and FINISH, window has closed -/
  supStartEnd : List Nat
  supFinishEnd : List Nat
  /-- sections announced by the C-plane and not yet arrived: FHP port, antenna, symbol, first PRB, PRBs (R303) -/
  due : List (Nat × Nat × Nat × Nat × Nat)
  /-- what CAL takes of the statistics of the slot's passes: keyed 2,048 × array + output index (R108, R199) -/
  recs : List (Nat × StatRec)
  /-- front-end sums of each allocation: S and N in units of 2^-80 of a squared sample unit (R191) -/
  feSums : List (Nat × Nat × Nat)
  /-- the fallback's sums of each allocation: SINR and its number of elements; error and reference power (R190, R191) -/
  fbSums : List (Nat × ((Nat × Nat) × (Nat × Nat)))
  /-- preambles that the fallback found on its PRACH allocations: number, delay, energy (R187) -/
  prach : List (Nat × List (Nat × Nat × Nat))
  /-- sections that have arrived for it (R173, R187) -/
  sects : List RxSect
  /-- control information decided for its PUCCH allocations; none: DTX (R172) -/
  uci : List (Nat × Option (List Bool))
  /-- LLRs that the fallback has produced: code block, scale code, values (R188) -/
  fbLlrs : List (Nat × Nat × List Int)
  deriving DecidableEq, Repr

/-- A slot reply that is owed, in slot order (R262): the slot's number, and its record once it is ready. -/
structure SlotOut where
  id : Nat
  ready : Option Reply
  deriving DecidableEq, Repr

/-- One carrier: its binding (R261), its ticks and its slots in flight. -/
structure Car where
  /-- handle of the job it is bound to, 0 none -/
  job : Nat
  /-- owning port of that job and its reply queue -/
  port : Fin 2
  queue : Fin 32
  /-- slot objects with their number of waiters (R202, R274) -/
  objs : List (Nat × Nat)
  /-- entries consumed since the binding (R262) -/
  seq : Nat
  /-- slot ticks so far, and the absolute slot of the last one (R390) -/
  ticks : Nat
  lastAbs : Option Nat
  slots : List SlotCtx
  /-- consumed entries whose replies are neither written nor held, in slot order (R262) -/
  out : List SlotOut
  /-- slot replies waiting for a ring place (R264) -/
  held : List Reply
  /-- bindings so far; a slot reply carries it in `w3`, which is not written -/
  binding : Nat
  /-- a tick found the holding queue full: passed entries are consumed when space frees (R264) -/
  blocked : Bool
  deriving DecidableEq, Repr

/-- A slot tick that was raised and takes effect at its tick beat (R284). -/
structure TickPend where
  /-- the tick beat's instant, in twelfths of a REFCLK cycle of elapsed time -/
  due : Nat
  carrier : Nat
  abs : Nat
  beat : Nat
  /-- a JOB_START or JOB_RESUME waited for this tick when it was raised (R283) -/
  starts : Bool
  deriving DecidableEq, Repr

/-- The safety configuration (R314, R315). -/
structure SafeCfg where
  cars : List (Nat × SafeCar)
  sups : List (Nat × Sup)
  /-- KAT_INTERVAL in ms -/
  katInterval : Nat
  /-- FB_MAX_ITER, for LDPC12 to LDPC15 -/
  fbMaxIter : Nat
  deriving DecidableEq, Repr

/-- A SAFETY_CONFIG that takes effect carrier by carrier (R315): the carriers still to tick. -/
structure SafePending where
  cfg : SafeCfg
  carriers : List Nat
  /-- the words of its calibration section (R212, R314) -/
  limits : List Nat
  crc : Nat
  lock : Bool
  deriving DecidableEq, Repr

/-- What each array, engine or stream has latched: carrier and slot number (R202). -/
abbrev SlotRef := Nat × Nat

/-- The configuration after a warm, cold or power-on reset (R315): fallback and detector on, layers 0 to 7, the antennas
of R187, no supervisors. -/
def safeCarInitial : SafeCar := ⟨true, true, false, [0, 1, 2, 3, 4, 5, 6, 7], none⟩

/-- See `safeCarInitial`. -/
def SafeCfg.initial : SafeCfg := ⟨[], [], 50, 4⟩

/-- A carrier nothing is bound to and that has not ticked. -/
def carReset (_ : Nat) : Car := ⟨0, 0, 0, [], 0, 0, none, [], [], [], 0, false⟩

/-- A 4 KiB frame of the KV pool: local at a device physical page, or a page of a remote window (R160, R162). -/
structure Frame where
  remote : Bool
  window : Nat
  page : Nat
  deriving DecidableEq, Repr

/-- A frame mapped to a block of a head of a sequence (R160). -/
structure KvPage where
  seq : Nat
  head : Nat
  block : Nat
  frame : Frame
  deriving DecidableEq, Repr

/-- Frames unmapped at an epoch that wait to be free, or to leave the pool (R165, POOL_REMOVE). -/
structure KvRetire where
  epoch : Nat
  frames : List Frame
  remove : Bool
  deriving DecidableEq, Repr


/-- A weight tile as the feeder staged it (R62): the format in force at the WLOAD and the bytes of each output channel. -/
structure Tile where
  wfmt : Nat
  cplx : Bool
  rows : List (List Byte)
  deriving DecidableEq, Repr

/-- The scales that SCALES points at: activation scale address and stride, weight scale address (R45). -/
structure ScalePtr where
  act : Nat
  stride : Nat
  weight : Nat
  deriving DecidableEq, Repr

/-- The destination that DQOUT sets (Table 3.7). -/
structure DqDest where
  addr : Nat
  stride : Nat
  scale : Nat
  scaleStride : Nat
  ssp : Bool
  deriving DecidableEq, Repr

/-- A pass in the queue (R85): what its PASS, and the settings in force when it issued, say of it. -/
structure Pass where
  /-- address of its PASS instruction (R488) -/
  pc : Nat
  addr : Nat
  stride : Nat
  base : Nat
  rows : Nat
  acc : Bool
  dq : Bool
  pmode : Nat
  scales : ScalePtr
  dest : DqDest
  /-- DQ_MODE, DQ_G, DQ_H, DQ_SOUT -/
  dqMode : Nat
  g : Nat
  h : Nat
  sout : Nat
  /-- it installs the oldest staged tile (R64) -/
  neww : Bool
  /-- the weights it computes with; none: undefined (R327) -/
  tile : Option Tile
  /-- the slot into which it draws: the one its array had latched when it was queued (R488) -/
  slot : Option SlotRef
  /-- passes of the layer completed before it (R102) -/
  count : Nat
  /-- the layer it belongs to: DQCFGs issued before it -/
  layer : Nat
  /-- next M row to drain -/
  next : Nat
  /-- a checksum comparison of it has failed (R72) -/
  mismatched : Bool
  deriving DecidableEq, Repr

/-- What a pass contributed to an output block of 256 channels that two passes of a layer form (R51): the pass, its activation scale and
weight scales, its rows with their final sums or running values, and whether its scale was clamped. -/
structure Half where
  pass : Pass
  act : Nat
  weights : List Byte
  rows : List (Nat × List Int)
  clamped : Bool
  deriving DecidableEq, Repr

/-- What an array keeps at its last slot point (R339): program counter, registers, spill count and bindings. -/
structure Snapshot where
  pc : Nat
  regs : List (Nat × Word)
  deriving DecidableEq, Repr

/-- An array beside its registers. -/
structure Arr where
  /-- staged tiles that no commit has installed, oldest first; two buffers (R62) -/
  staged : List Tile
  /-- how many of them queued passes with NEWW will install (R64) -/
  claimed : Nat
  /-- the active weight registers (R57); none: undefined after a slice (R327) -/
  active : Option Tile
  /-- the transit registers (R57, R63): the tile pushed last -/
  transit : Tile
  passes : List Pass
  scales : ScalePtr
  dest : DqDest
  /-- passes of the layer issued since its DQCFG (R102) -/
  layerPasses : Nat
  /-- DQCFGs issued: the number of the layer (R102) -/
  layers : Nat
  /-- final sums of the block of 16 M rows being gathered for a dynamic scale (R51): row, sums -/
  block : List (Nat × List Int)
  /-- halves of blocks that await the other half (R51) -/
  halves : List Half
  snap : Option Snapshot
  /-- objects signalled or waited on since the last slot point (R339) -/
  sinceSlot : List Nat
  deriving DecidableEq, Repr

/-- Weight registers that hold zero in every slot. -/
def tileZero : Tile := ⟨0, false, []⟩

/-- An array with nothing staged and nothing queued, its weight registers zero. DESIGN CHOICE, log entry 3. -/
def arrReset (_ : Nat) : Arr := ⟨[], 0, some tileZero, tileZero, [], ⟨0, 0, 0⟩, ⟨0, 0, 0, 0, false⟩, 0, 0, [], [], none, []⟩

/-- An array whose job has ended: the weight registers keep what they hold (R57, R443). -/
def Arr.emptied (a : Arr) : Arr := { arrReset 0 with active := a.active, transit := a.transit }

/-- A VGET or VPUT in progress (R122): engine, direction, engine address, virtual address, bytes. -/
structure VeXfer where
  engine : Nat
  put : Bool
  local_ : Nat
  va : Nat
  len : Nat
  /-- DMMU.EPOCH when it took its translations (R236) -/
  epoch : Nat
  /-- address of its instruction -/
  pc : Nat
  deriving DecidableEq, Repr

/-- A piece of the memory that a request reads or writes: device physical, host memory behind a port, or a remote window. -/
inductive Piece where
  | phys (a n : Nat)
  | host (p a n : Nat)
  | remote (w off n : Nat)
  deriving DecidableEq, Repr

/-- A request of a stream in flight (R240, R241): the copy it belongs to, what it reads and writes as its translations gave
it, and DMMU.EPOCH when it took them (R236). -/
structure SdeReq where
  run : Nat
  src : List Piece
  dst : List Piece
  id : Nat
  /-- Iferik packets of it that have not been answered; the bytes of remote pieces that have arrived; its writes have begun -/
  out : Nat
  got : List (Nat × List Byte)
  writing : Bool
  deriving DecidableEq, Repr

/-- A descriptor that has begun and not ended (R240). -/
structure StreamRun where
  /-- number of the run in its stream -/
  id : Nat
  /-- descriptor index -/
  index : Nat
  /-- the descriptor as it was read (Table 9.9) -/
  desc : List Byte
  /-- the slot its deadline counts from -/
  slot : Option SlotRef
  /-- bytes issued and bytes completed -/
  issued : Nat
  done : Nat
  /-- its deadline has passed; it is skipped (R242) -/
  missed : Bool
  skip : Bool
  /-- the epoch at which it took its first translation (R236) -/
  epoch : Option Nat
  deriving DecidableEq, Repr

/-- A running stream (R238 to R244) beside its registers. -/
structure Stream where
  num : Fin 128
  /-- loop descriptors with the jumps they have made -/
  loops : List (Nat × Nat)
  /-- the descriptors begun and not ended, oldest first -/
  runs : List StreamRun
  nextRun : Nat
  /-- the run that is the descriptor at PC -/
  cur : Option Nat
  /-- requests in flight, oldest first -/
  reqs : List SdeReq
  /-- records waiting for a place in the completion ring (R243) -/
  records : List (List Byte)
  /-- elapsed time at which the ring was found full -/
  stallFrom : Nat
  /-- the stream ends with the descriptor in progress: status and flags of its FINAL record -/
  stop : Option (Nat × Nat)
  /-- nothing more is issued: a request failed, or a descriptor was bad -/
  abort : Bool
  /-- the FINAL record is written or waits for a place -/
  final : Bool
  /-- an arm that waits (R244): program, ring address, ring space, LOG2N -/
  pendingArm : Option (Nat × Nat × Nat × Nat)
  deriving DecidableEq, Repr

/-- What one lane and sub-pass put out in a captured entry of the grid: sub-pass, lane, the 128 data outputs O, their sum T, the checksum output
C (R332). -/
structure LaneCapture where
  sub : Nat
  lane : Nat
  outs : List Int
  t : Int
  c : Int
  deriving DecidableEq, Repr

/-- The capture of a checksum mismatch (R332): PMODE, sub-passes, the tile, the activation words of the M row, every lane and sub-pass. -/
structure Capture where
  pmode : Nat
  subs : Nat
  tile : Option Tile
  words : List (List Byte)
  lanes : List LaneCapture
  deriving DecidableEq, Repr

/-- An open decision (R332 to R336). -/
structure Decision where
  unit : Nat
  ve : Bool
  /-- 1: repeat; 2: adjudicate; 3: known-answer route; 4: repeat of a failed set; 5: full year of an engine -/
  step : Nat
  /-- the failed sets so far, a mask -/
  failed : Nat
  /-- PASS address, M row, T and C of the captured mismatch -/
  pc : Nat
  row : Nat
  t : Nat
  c : Nat
  /-- adjudicator in use, or tried and void -/
  adjudicators : List Nat
  /-- what the drain captured of a checksum mismatch -/
  capture : Option Capture
  deriving DecidableEq, Repr


/-- An entry of the translation buffer (R234): virtual page number and page size in bits, the leaf entry. -/
structure TbEntry where
  page : Nat
  bits : Nat
  entry : Word
  pinned : Bool
  deriving DecidableEq, Repr

/-- A remote window that this device imports (R376 to R378). -/
structure Import where
  num : Nat
  owner : Nat
  port : Nat
  len : Nat
  read : Bool
  write : Bool
  isOpen : Bool
  deriving DecidableEq, Repr

/-- The stand-in of a logical array whose physical array was fenced (R339): what it has still to do of its release list, and
whether it begins the list again (R340). -/
structure StandIn where
  la : Nat
  /-- objects in order; the flag: a wait -/
  left : List (Nat × Bool)
  whole : List (Nat × Bool)
  again : Bool
  deriving DecidableEq, Repr

/-- A DSP core (R173): the registers its distinctive instructions use, keyed by number, unlisted 0; its active blocks, outermost
first: first and last address, repetitions left; its stream ports. -/
structure DspCore where
  pc : Nat
  g : List (Nat × Word32)
  v : List (Nat × List (Int × Int))
  a : List (Nat × List (Int × Int))
  bx : Nat
  loops : List (Nat × Nat × Nat)
  sp : List (Nat × List (Int × Int))
  deriving DecidableEq, Repr

/-- A core before its program begins. -/
def dspReset (_ : Nat) : DspCore := ⟨0, [], [], [], 0, [], []⟩

/-- The code block that a soft buffer of the fallback belongs to (R182): carrier, UE, HARQ process, code block of its transport block. -/
structure SoftKey where
  carrier : Nat
  ue : Nat
  harq : Nat
  cb : Nat
  deriving DecidableEq, Repr

/-- Precoded parts of one stream that wait for the rest of a shaped symbol (R195): symbol, allocation, stream, first PRB and how many. -/
structure HeldPart where
  sym : Nat
  alloc : Nat
  stream : Nat
  prb0 : Nat
  nprb : Nat
  parts : List Int
  deriving DecidableEq, Repr

/-- A published downlink entry (R192, R194): carrier, absolute slot, PSHIFT, RAMP, its allocations, those dropped of type 0; start and end of its downlink
symbols in 2^-48 ns; LEN and FLOOR of its burst's profile once latched. -/
structure DlSlot where
  carrier : Nat
  abs : Nat
  pshift : Nat
  ramp : Nat
  allocs : List Alloc
  t1 : Nat
  t2 : Nat
  prof : Option (Nat × Nat)
  held : List HeldPart
  deriving DecidableEq, Repr
/-- The completion ring of a stream (R243): space and address, entries, HEAD and TAIL. -/
structure CrRing where
  space : Nat
  addr : Nat
  log2n : Nat
  head : Nat
  tail : Nat
  deriving DecidableEq, Repr

/-- Records of a stream whose job is lost that wait for a place in its ring (R243, R487). -/
structure CrHeld where
  stream : Nat
  ring : CrRing
  records : List (List Byte)
  deriving DecidableEq, Repr

/-- What JOB_SAVE wrote to the save area (R269): the registers, banks and live memory of the job's units by logical number,
its streams; and what stays where it is, owned by the job: page tables, the KV pool. -/
structure SavedJob where
  /-- registers of units: logical block offset and value -/
  regs : List (Nat × Word)
  /-- live ranges: memory (0 LSP, 1 SSP, 2 engine memory), logical unit, offset, bytes -/
  mem : List (Nat × Nat × Nat × List Byte)
  /-- live OAB entries, keyed 32,768 × LA + entry -/
  oab : List (Nat × Word32)
  /-- season banks, keyed by logical unit -/
  banks : List Host.Cell
  arrs : List (Nat × Arr)
  /-- units that had ended their programs: logical arrays, 96 + logical engines -/
  done : List Nat
  streams : List Stream
  tb : List TbEntry
  kvFree : List Frame
  kvPages : List KvPage
  kvRetiring : List KvRetire
  kvActive : List Nat
  /-- the DSP cores of DSC0 to DSC11 and the block exponents of their last transforms -/
  dsp : List (Nat × DspCore)
  fftExp : List (Nat × Int)
  aeStage : List (Nat × Nat)
  eguStage : List (Nat × Nat)
  /-- latched slots, keyed as in State but by logical array and engine -/
  unitSlot : List (Nat × Option SlotRef)
  /-- CAL's season state (R269) -/
  seasonAt : List (Nat × Nat)
  comp : List (Nat × Comp)
  candidate : List Byte
  shadowLeft : Nat
  deriving DecidableEq, Repr

/-- A job in the device (R267): its image, its mapping and its reserve pool. Its state, port and handle are in JOB[i]. -/
structure Job where
  /-- index of its JOB[i] entry -/
  entry : Nat
  handle : Nat
  image : JobImage
  /-- P2 of its JOB_LOAD: the job seed (R102, R132) -/
  seed : Nat
  /-- customer key index of its JOB_LOAD (R442) -/
  key : Nat
  /-- logical to physical arrays; a logical array left without one (R340) is not listed -/
  la : List (Nat × Nat)
  /-- logical to physical vector engines -/
  lv : List (Nat × Nat)
  /-- physical arrays of the reserve pool, ascending -/
  reserve : List Nat
  /-- reserve arrays its JOB_LOAD asked for -/
  asked : Nat
  /-- physical arrays fenced from it, which return to its pool (R341) -/
  fencedFrom : List Nat
  saved : Option SavedJob
  /-- firewall regions it holds (R309) -/
  regions : List Nat
  /-- a JOB_PAUSE is pending (R268) -/
  pausing : Bool
  /-- device time at which its last pause was complete, RESULT0 of JOB_PAUSE -/
  stopTime : Word
  deriving DecidableEq, Repr


/-- A fronthaul frame that the device sends (R352, R357): a U-plane or C-plane message of a carrier, or a delay measurement
or PTP message of the TSU. -/
structure TxFrame where
  /-- 0 U-plane, 1 C-plane, 2 one-way delay measurement -/
  kind : Nat
  /-- priority and VLAN identifier of its tag (R351) -/
  pcp : Nat
  vid : Nat
  carrier : Nat
  eaxc : Nat
  /-- absolute slot of the carrier, symbol, symbols -/
  abs : Nat
  sym : Nat
  nsym : Nat
  /-- C-plane: section type, and whether it announces a downlink section -/
  sect : Nat
  dl : Bool
  prb0 : Nat
  nprb : Nat
  /-- C-plane, category B: the precoder of section extension 1, exponent and mantissas for each PRB group of the allocation -/
  beam : List (Nat × List Int)
  /-- U-plane: exponent and 24 mantissas of each PRB (R356) -/
  prbs : List (Nat × List Int)
  /-- one-way delay measurement: the eCPRI payload -/
  msg : List Byte
  deriving DecidableEq, Repr

/-- An entry of a launch queue (R399): launch time in 2^-48 ns; the time had passed when the frame reached the head. -/
structure Launch where
  time : Nat
  late : Bool
  frame : TxFrame
  deriving DecidableEq, Repr

/-- What a TX_ON event does (R401). -/
inductive TxEdgeKind where
  | txonRise | paRise | paFall | txonFall
  deriving DecidableEq, Repr

/-- An event of an output TX_ON[n] or PAENV[n] (R401): its time in 2^-48 ns, passed or not, and the ramp profile. -/
structure TxEdge where
  time : Nat
  late : Bool
  kind : TxEdgeKind
  len : Nat
  floor : Nat
  deriving DecidableEq, Repr

/-- The power-amplifier envelope of an output: on or off, and the profile of its last ramp (R401). -/
structure Envelope where
  on : Bool
  len : Nat
  floor : Nat
  /-- carrier whose sample period its ramps take, and device time at which the last one began -/
  carrier : Nat
  start : Nat
  /-- what the sigma-delta modulator carries, in 2^-15, and the bits it put out last, two in a REFCLK cycle -/
  acc : Nat
  bits : Bool × Bool
  deriving DecidableEq, Repr

/-- What the TSU keeps beside its registers. -/
structure TsuState where
  /-- the servo's integral term, binary64 (R393) -/
  integral : Nat
  /-- consecutive offsets within LOCK_THRESH -/
  inLock : Nat
  /-- elapsed time of the last offset written -/
  lastOffset : Option Nat
  /-- elapsed time from which HOLD_AFTER counts (R397) -/
  holdFrom : Nat
  /-- rate samples, oldest first (R397) -/
  rates : List Int
  /-- elapsed time, and device time, of the last PPS_IN edge (R396, R403) -/
  ppsIn : Option (Nat × Nat)
  /-- elapsed time at which the PPS_OUT pulse ends; none: low (R402) -/
  ppsOut : Option Nat
  /-- second labelled by the PPS_OUT edge whose time-of-day message has not been sent, and elapsed time of the edge (R403) -/
  todDue : Option (Nat × Nat)
  /-- the last time-of-day message sent (R403) -/
  todTx : List Byte
  /-- the last PTP frame delivered: MAC, low 64 bits of its timestamp, frame (R396) -/
  ptpIn : Option (Nat × Nat × List Byte)
  /-- the message of the last PPS_IN edge was discarded: the servo does not use the edge (R403) -/
  ppsVoid : Bool
  /-- whole seconds of elapsed time at the last rate sample (R397) -/
  rateSec : Nat
  deriving DecidableEq, Repr

/-- An envelope that is off. -/
def envelopeReset (_ : Nat) : Envelope := ⟨false, 0, 0, 0, 0, 0, (false, false)⟩

/-- The TSU at power-on. -/
def TsuState.reset : TsuState := ⟨0, 0, none, 0, [], none, none, none, [], none, false, 0⟩
/-- A brownout hold (R311): elapsed time at its start, whether VDD_SRAM caused it, whether it has escalated. -/
structure Hold where
  start : Nat
  sram : Bool
  escalated : Bool
  /-- elapsed time of the last dip: the supplies have stood above their levels since -/
  clear : Nat
  deriving DecidableEq, Repr

/-- A customer key (R441): its index, its parameter set, its public key. -/
structure CustomerKey where
  index : Nat
  set : SlhSet
  key : List Byte
  deriving DecidableEq, Repr

/-- One virtual channel of a path (R368, R370, R371). -/
structure PathVc where
  /-- credits this end holds at the peer -/
  credits : Nat
  /-- credits the peer holds here -/
  granted : Nat
  /-- credits returned and not yet carried in a CRED field -/
  owed : Nat
  /-- packets sent, and accepted: PSNs are these counts modulo 2^24 -/
  sent : Nat
  accepted : Nat
  /-- the out-of-order packet has been answered with a NAK -/
  nakSent : Bool
  /-- the peer has asked for credits -/
  asks : Bool
  /-- packets accepted and not acknowledged -/
  unacked : Nat
  deriving DecidableEq, Repr

/-- A control packet (R373 to R382): the spec names them and gives no numbers. -/
inductive Ctrl where
  | openPath (grants : List Nat)
  | closePath
  | announce (window len : Nat) (read write : Bool)
  | accept (window : Nat) (ok : Bool)
  | revoke (window : Nat)
  | revokeAck (window : Nat)
  /-- with the joiner's job image digest, job seed and digest of the adapted tensors in force (R213) -/
  | join (group : Nat) (image : List Byte) (seed : Nat) (tensors : List Byte)
  | refuseJoin (group : Nat)
  | leave (group : Nat)
  | leaveAck (group : Nat)
  | epoch (group root epoch : Nat) (members : List Nat)
  | digest (season : Nat) (value : List Byte)
  | verdict (season : Nat) (agreed : Option (List Byte)) (arrived : Bool)
  deriving DecidableEq, Repr

/-- What an Iferik packet is for (TYPE of Table 14.4). -/
inductive PktBody where
  | nop
  | write (window off : Nat) (payload : List Byte)
  | readReq (window off len : Nat)
  | readRsp (tag status : Nat) (payload : List Byte)
  | writeRsp (tag status : Nat)
  | reduce (slot lane number chunk node : Nat) (result : Bool) (payload : List Byte)
  | ctrl (c : Ctrl)
  deriving DecidableEq, Repr

/-- The request of a stream that a packet belongs to: stream, request, piece. -/
structure ReqRef where
  stream : Nat
  req : Nat
  piece : Nat
  deriving DecidableEq, Repr

/-- A packet to send, or sent, on a path (Table 14.4). -/
structure OutPkt where
  vc : Nat
  body : PktBody
  ref : Option ReqRef
  /-- PSN, first tag, acknowledgement, NAK, CRQ and the credits returned: set when it is sent -/
  psn : Nat
  tag : Nat
  ack : Option Nat
  nak : Bool
  crq : Bool
  cred : Nat × Nat
  /-- the Ethernet frame but for its FCS (R364); empty before it is sent -/
  frame : List Byte
  deriving DecidableEq, Repr

/-- A unit's access to an imported window that has not left yet: window, offset, virtual channel, bytes. -/
structure WinWrite where
  window : Nat
  off : Nat
  vc : Nat
  bytes : List Byte
  /-- bytes that a unit reads there instead; 0: a write -/
  want : Nat
  deriving DecidableEq, Repr

/-- A path to a peer (R367). -/
structure Path where
  port : Nat
  peer : Nat
  epoch : Nat
  /-- its CTRL OPEN has not been answered -/
  opening : Bool
  /-- it closes once everything is acknowledged; CTRL CLOSE has been sent (R375) -/
  closing : Bool
  closeSent : Bool
  vcs : List PathVc
  /-- sent and not acknowledged, oldest first -/
  unacked : List OutPkt
  /-- waiting for credits or tags, oldest first -/
  queue : List OutPkt
  /-- consecutive timeouts without progress -/
  retries : Nat
  deriving DecidableEq, Repr

/-- Tags in use (R369): port, peer, first tag, count, and the request; none: a REDUCE, whose acknowledgement returns them. -/
structure TagRun where
  port : Nat
  peer : Nat
  tag : Nat
  count : Nat
  vc : Nat
  psn : Nat
  ref : Option ReqRef
  deriving DecidableEq, Repr

/-- How far an exported window is (R376, R377). -/
inductive WinState where
  | opening | isOpen | closing
  deriving DecidableEq, Repr

/-- A window that this device owns (R376). -/
structure Window where
  num : Nat
  peer : Nat
  port : Nat
  base : Nat
  len : Nat
  read : Bool
  write : Bool
  /-- handle it was opened with, 0 none -/
  job : Nat
  state : WinState
  deriving DecidableEq, Repr

/-- A node of the tree of R25 whose value this device holds: its level, its place in the level, its lanes. -/
structure RedNode where
  level : Nat
  index : Nat
  lanes : List Nat
  deriving DecidableEq, Repr

/-- A fabric reduction in progress on this device (R382): group slot, lane format (Table 14.4), number, the participants on each member in
the order of device IDs, the lanes of a value, and the nodes held here; none held: the result is awaited. -/
structure Reduction where
  slot : Nat
  lane : Nat
  number : Nat
  counts : List Nat
  width : Nat
  nodes : List RedNode
  deriving DecidableEq, Repr

/-- A REDUCE packet that has arrived (R382). -/
structure RedIn where
  slot : Nat
  number : Nat
  chunk : Nat
  node : Nat
  result : Bool
  src : Nat
  payload : List Byte
  deriving DecidableEq, Repr

set_option maxRecDepth 1000 in
/-- The state of the device. Every register of the manual's tables is in `regs` at its control-space offset; the other
fields hold what the registers do not show. -/
structure State where
  /-- the commands that wait, first in, first out (the model's own) -/
  pending : List Instr
  /-- running, held in reset, off, or without a clock -/
  phase : Phase
  /-- every control-space register, by offset; an unlisted one holds its reset value (R8, R461) -/
  regs : List (Nat × Word)
  /-- the device physical memories of Table 9.1, control space apart; an unlisted byte is 0 (R443, R445) -/
  mem : List Host.Cell
  /-- the OAB entries, keyed 32,768 × PA + entry (Table 9.2); unlisted 0 -/
  oab : List (Nat × Word32)
  /-- OAB entries that are poisoned, keyed as oab (R226) -/
  oabPoison : List Nat
  /-- host memory behind HP0, by bus address -/
  host0 : List Host.Cell
  /-- host memory behind HP1, by bus address -/
  host1 : List Host.Cell
  /-- addresses of poisoned 64-byte lines (R226, R231) -/
  poison : List Nat
  /-- 64 KiB granules of LPDDR5X pending zeroing, as intervals first ≤ g < last (R445) -/
  zeroing : List (Nat × Nat)
  /-- register values held by a latching read until they are read (R276, R404, R294) -/
  latched : List (Nat × Word)
  /-- the main log, oldest first (R346) -/
  mainLog : List LogRec
  /-- the sticky log, oldest first (R346) -/
  stickyLog : List LogRec
  /-- the commands in flight, oldest first (R255) -/
  cmds : List Cmd
  /-- the replies and records held for a full or disabled ring, in completion order (R254, R272) -/
  held : List Reply
  /-- the port the next fetch turns to first (R255) -/
  fetchPort : Nat
  /-- per port the queue the next fetch turns to first (R255) -/
  fetchQueue : List (Nat × Nat)
  /-- the waits in progress at SYN, in order of arrival (R274) -/
  waiters : List Waiter
  /-- device time in units of 2^-48 ns (R387, R388) -/
  devTime : Nat
  /-- the model's own counter: it numbers the free values taken so far -/
  freeCtr : Nat
  /-- what the last read or access returned to its initiator -/
  resp : Resp
  /-- the coalescer of level v of ICN target t, keyed 16t + v (R423) -/
  coal : List (Nat × Coal)
  /-- the unmasked MSI-X vectors, 16p + v (R422); all masked at reset -/
  msixOn : List Nat
  /-- the MSI-X pending bits, 16p + v (R422) -/
  pba : List Nat
  /-- queues 32p + q whose replies wait for ENABLE after a port reset (R272) -/
  holdQueues : List Nat
  /-- the carriers: bindings, ticks, slots in flight (R261, R262) -/
  cars : List (Nat × Car)
  /-- the slot each unit has latched (R202), by island number of Table 11.4; gather unit n at 900 + n, stream s at 1,000 + s, a stand-in at 2,000 + LA -/
  unitSlot : List (Nat × Option SlotRef)
  /-- by slot object, the signals whose counts may not be taken yet, oldest first: carrier, tick number, season (R202) -/
  slotSigs : List (Nat × List (Nat × Nat × Nat))
  /-- units, numbered the same, that have latched a slot since JOB_START or JOB_RESUME (R275) -/
  slotFresh : List Nat
  /-- the safety configuration in force (R315) -/
  safe : SafeCfg
  /-- a safety configuration that takes effect at the carriers' next ticks (R315) -/
  safePend : Option SafePending
  /-- carriers with a new configuration that takes effect at their next tick: their section and their supervisors (R315) -/
  safeLate : List (Nat × SafeCar × List (Nat × Sup))
  /-- the jobs in the device (R267) -/
  jobs : List Job
  /-- the handle given out last (R267) -/
  lastHandle : Nat
  /-- handles of killed and lost jobs, answered JOB_LOST until given out again (R271, R487) -/
  lostHandles : List Nat
  /-- per attention engine how far its next step has come: 0 awaits the ring semaphore, 1 awaits the descriptor's object, 2 may run (R147) -/
  aeStage : List (Nat × Nat)
  /-- per attention engine the descriptor it has taken for its step, empty while none (R147) -/
  aeDesc : List (Nat × List Byte)
  /-- the held edits in the order of their arrival, each with the engines whose next step comes after it (R167) -/
  editHeld : List (Pkt × List Nat)
  /-- the same per gather unit (R245) -/
  eguStage : List (Nat × Nat)
  /-- streams whose WAIT has been satisfied and not yet ended (R240) -/
  streamOk : List Nat
  /-- what each physical array holds beside its registers: staged tiles, queued passes (R61, R62, R85) -/
  arr : List (Nat × Arr)
  /-- the VGET and VPUT transfers in progress, in issue order (R122) -/
  veXfers : List VeXfer
  /-- the streams that run: their loop counts, requests and deadlines (R238) -/
  streams : List Stream
  /-- the open decisions of KAT (R332, R336) -/
  decisions : List Decision
  /-- arrays n and vector engines 96 + n whose program counter a satisfied WAIT took past 1,023: the next issue faults (R86) -/
  pcOut : List Nat
  /-- the translation buffer, most recently used first (R234) -/
  tb : List TbEntry
  /-- the remote windows that this device imports (R376) -/
  imports : List Import
  /-- vector engines whose RES_MISMATCH has stopped counting after a checker fault (R336) -/
  resStopped : List Nat
  /-- handles of jobs with a faulty vector engine: every slot that ticks on their carriers carries the check source of doubt (R336) -/
  checkJobs : List Nat
  /-- the free list of the KV pool (R160) -/
  kvFree : List Frame
  /-- the frames mapped to blocks (R160) -/
  kvPages : List KvPage
  /-- the frames that await epochs (R165) -/
  kvRetiring : List KvRetire
  /-- the active sequences (R140) -/
  kvActive : List Nat
  /-- the epoch each attention engine took at the start of its query step (R165) -/
  aeEpoch : List (Nat × Nat)
  /-- the season banks (R201): keyed 2^18 × (2u + bank) + offset in the window, u an array or 96 + DSP cluster; unlisted 0 -/
  banks : List Host.Cell
  /-- elapsed time at the beat origin, in REFCLK cycles (R17) -/
  originEdge : Nat
  /-- the customer keys (R441) -/
  keys : List CustomerKey
  /-- the a_t of a season's scale entries: keyed (256 × bank + LA) × 65,536 + offset, FP32 bits; unlisted 0 (Table 8.3) -/
  seasonAt : List (Nat × Nat)
  /-- the radio values of the season banks: keyed (8 × bank + carrier) × 128 + antenna (Table 8.3) -/
  comp : List (Nat × Comp)
  /-- the collection window's activation records: keyed 65,536 × tensor + output index (R199) -/
  calRecs : List (Nat × StatRec)
  /-- the collection window's radio sums: keyed 128 × carrier + antenna (R199) -/
  calRadio : List (Nat × Radio)
  /-- slots of the reference carrier in the collection window (R199) -/
  calSlots : Nat
  /-- the candidate season record that CAL built last (R200, Table 8.2) -/
  candidate : List Byte
  /-- consecutive passing slots of each carrier (R210) -/
  rangePass : List (Nat × Nat)
  /-- what CAL takes of the statistics of shadow slots, keyed as a slot's (R206) -/
  shadowRecs : List (Nat × StatRec)
  /-- the staged season was judged odd (R218) -/
  oddStage : Bool
  /-- shadow slots of the staged season that have not completed (R206) -/
  shadowLeft : Nat
  /-- verdict on the latest digest season: 0 none, 1 agreed, 2 odd (DIGEST_REPORT) -/
  verdict : Nat
  /-- season of the latest digest (R216) -/
  digestSeason : Nat
  /-- the stand-ins of fenced arrays (R339, R340) -/
  standIns : List StandIn
  /-- sets passed by KAT_RUN since the fence of a unit, keyed 256 × instance + kind, a checksum path with its array (R331) -/
  fenceYear : List (Nat × Nat)
  /-- vector engines that are fenced when their job ends (R336) -/
  veFaulty : List Nat
  /-- the servo, the rate samples, PPS and time of day (R391 to R403) -/
  tsu : TsuState
  /-- the launch queue of fronthaul MAC 4n + m (R399) -/
  launch : List (Nat × List Launch)
  /-- frames that FHP waits to insert in a full launch queue (R399) -/
  launchWait : List (Nat × List Launch)
  /-- the events queued for outputs TX_ON[n] and PAENV[n] (R401) -/
  txq : List (Nat × List TxEdge)
  /-- outputs TX_ON[7:0] (R401) -/
  txOn : Nat
  /-- outputs PAENV[7:0] (R401) -/
  paenv : List (Nat × Envelope)
  /-- the frame that fronthaul MAC 4n + m sent last -/
  wire : List (Nat × Option TxFrame)
  /-- end of the last downlink burst that was queued on each carrier, in 2^-48 ns, 0 none (R401) -/
  burstEnd : List (Nat × Nat)
  /-- the last 64 slots that ticked on each carrier: carrier, absolute slot, tick in twelfths of a REFCLK cycle of elapsed time (R362, R389) -/
  rxTicks : List (Nat × Nat × Nat)
  /-- sections of slots that have not latched an entry: carrier, absolute slot (R362) -/
  rxEarly : List (Nat × Nat × RxSect)
  /-- last SEQ_ID + 1 of each stream, keyed 65,536 × FHP port + eAxC ID (R303) -/
  ffdSeq : List (Nat × Nat)
  /-- the history of FFD (R304) -/
  ffdHist : List FfdKey
  /-- the ingress queue of each FHP, oldest first (R363) -/
  ingress : List (Nat × List RxFrame)
  /-- core c of cluster n, keyed 4n + c (R173) -/
  dsp : List (Nat × DspCore)
  /-- block exponent of the last transform of each cluster (R179) -/
  fftExp : List (Nat × Int)
  /-- first byte of the fallback's soft buffers, which Shaeth assigns at boot; 0 before (R182) -/
  fbSoftBase : Nat
  /-- bytes of that range (R182) -/
  fbSoftLen : Nat
  /-- whose soft buffer each place of that range holds (R182) -/
  fbSoft : List SoftKey
  /-- downlink entries published and not yet over (R192, R194) -/
  dlSlots : List DlSlot
  /-- the coded bits of the transport block that each encoder encoded last (R186) -/
  coded : List (Nat × List Bool)
  /-- the birth record of the on-package NOR, once a boot has met it; nothing ever changes it (R429) -/
  birth : Option BirthRecord
  /-- the identity key pair derived at boot (R437), SK.seed, SK.prf, PK.seed, PK.root; its secret part never shows (R435) -/
  identity : Option (List Byte)
  /-- the identity certificate of the birth record (R438) -/
  cert : List Byte
  /-- SHA-256 of the customer key table in force, empty without one (R439, R441) -/
  keyDigest : List Byte
  /-- output THERM_N is driven low (R477) -/
  thermLow : Bool
  /-- output SMB_ALERT_N is driven low (R478) -/
  alertLow : Bool
  /-- SMB_ADDR[1:0] as sampled at power-on reset (R479) -/
  smbAddr : Nat
  /-- the brownout hold in progress (R311) -/
  hold : Option Hold
  /-- groups of arrays that resume after a hold: group, elapsed time in twelfths of a REFCLK cycle (R469) -/
  resume : List (Nat × Nat)
  /-- elapsed time of the last step of the VDD_CORE target (R458) -/
  avsAt : Option Nat
  /-- the VDD_CORE target in mV before that step (R458) -/
  avsOld : Nat
  /-- arrays that have not passed a year since the return to Run: JOB_START waits for them (R450) -/
  yearWait : List Nat
  /-- WAKE writes of other origins that LOG records when the control complex runs again (R452) -/
  wakeLog : List (Nat × Nat)
  /-- the open Iferik paths (R367) -/
  paths : List Path
  /-- epoch of the last path to each peer, keyed 4,096 × port + peer; unlisted 0 (R373) -/
  pathEpochs : List (Nat × Nat)
  /-- the tags in use at each Iferik port (R369) -/
  tagRuns : List TagRun
  /-- the packet that each Iferik port sent last -/
  ilpSent : List (Nat × OutPkt)
  /-- when sending on a PCP of a port may go on, keyed 8 × port + PCP, in twelfths of a REFCLK cycle of elapsed time (R364) -/
  ilpPause : List (Nat × Nat)
  /-- the remote windows that this device owns (R376) -/
  windows : List Window
  /-- the members of the group joined in each slot, ascending (R379 to R381) -/
  groups : List (Nat × List Nat)
  /-- by group slot, the lanes of the last reduction of a reduction group (R104, R382) -/
  redOut : List (Nat × List Nat)
  /-- the fabric reductions in progress (R382) -/
  reductions : List Reduction
  /-- REDUCE packets that have arrived and are not used yet (R382) -/
  redIn : List RedIn
  /-- the model's own: number of the next stream request -/
  nextReq : Nat
  /-- the adaptation group's latest agreed digest, none yet where empty (R213) -/
  agreed : List Byte
  /-- the ports whose PERST# is asserted (R417) -/
  perst : List Nat
  /-- the ports in D3hot (R405) -/
  d3 : List Nat
  /-- log2 of the BAR2 size in GiB by port, unlisted 7: 128 GiB (R406) -/
  barLog : List (Nat × Nat)
  /-- the completion timeout range of each port, unlisted 0 (R405, R409) -/
  cplRange : List (Nat × Nat)
  /-- payload and read-request size of each port in Device Control, as powers of two times 128 bytes, unlisted (0, 2) (R405) -/
  devCtl : List (Nat × (Nat × Nat))
  /-- the AER uncorrectable error status of each port, unlisted 0 (R409) -/
  aer : List (Nat × Nat)
  /-- the ports whose MSI-X function is masked (R422) -/
  fnMasked : List Nat
  /-- address and data words of the MSI-X table, keyed 4 × (16p + v) + word (R406) -/
  msix : List (Nat × Nat)
  /-- the MSI-X message that each port sent last: address, data (R422) -/
  msixSent : List (Nat × (Nat × Nat))
  /-- the TAP's instruction register: IDCODE at Test-Logic-Reset (R482) -/
  tapIr : BitVec 8
  /-- the boundary register as it was preloaded last; the spec does not give its cells (R482) -/
  boundary : List Bool
  /-- slot ticks raised in deterministic mode that wait for their tick beats (R284) -/
  tickPend : List TickPend
  /-- window writes of units and of MOVE that have not left yet, oldest first (R162) -/
  winOut : List WinWrite
  /-- memory words that a disturbance has hit and nothing has read yet: two bad bits, or one (R226, R227) -/
  upsets : List (Nat × Bool)
  /-- the next line that scrub visits, by memory; unlisted the first (R231) -/
  scrubPos : List (Nat × Nat)
  /-- banks 0 to 6 of the control memories, which hold the firmware (R435, Table 9.2); bank 7 is the main log; unlisted 0 -/
  ctlMem : List Host.Cell
  /-- 64-bit words of the control memories that are poisoned (R226) -/
  ctlPoison : List Nat
  /-- completion records of lost jobs that wait for places in their rings (R243, R487) -/
  crHeld : List CrHeld
  /-- when an array's known-answer interval began, in twelfths of a REFCLK cycle; unlisted 0 (R313) -/
  katFrom : List (Nat × Nat)
  /-- sets that a unit other than an array or a vector engine has passed in its year, keyed 256 × instance + kind (R329) -/
  otherYear : List (Nat × Nat)
  deriving DecidableEq, Repr

/-- The device right after reset: every register at its reset column (R8), memories zero, the ROM about to self-test
(BOOT.STATE 0), device time 0 (R387). Values the manual does not give are named in the assumption log. -/
def State.reset : State where
  pending := []
  phase := .running
  regs := []
  mem := []
  oab := []
  oabPoison := []
  host0 := []
  host1 := []
  poison := []
  zeroing := []
  latched := []
  mainLog := []
  stickyLog := []
  cmds := []
  held := []
  fetchPort := 0
  fetchQueue := []
  waiters := []
  devTime := 0
  freeCtr := 0
  resp := Resp.none
  coal := []
  msixOn := []
  pba := []
  holdQueues := []
  cars := []
  unitSlot := []
  slotSigs := []
  slotFresh := []
  safe := SafeCfg.initial
  safePend := none
  safeLate := []
  jobs := []
  lastHandle := 0
  lostHandles := []
  aeStage := []
  aeDesc := []
  editHeld := []
  eguStage := []
  streamOk := []
  arr := []
  veXfers := []
  streams := []
  decisions := []
  pcOut := []
  tb := []
  imports := []
  resStopped := []
  checkJobs := []
  kvFree := []
  kvPages := []
  kvRetiring := []
  kvActive := []
  aeEpoch := []
  banks := []
  originEdge := 0
  keys := []
  seasonAt := []
  comp := []
  calRecs := []
  calRadio := []
  calSlots := 0
  candidate := []
  rangePass := []
  shadowRecs := []
  oddStage := false
  shadowLeft := 0
  verdict := 0
  digestSeason := 0
  standIns := []
  fenceYear := []
  veFaulty := []
  tsu := TsuState.reset
  launch := []
  launchWait := []
  txq := []
  txOn := 0
  paenv := []
  wire := []
  burstEnd := []
  rxTicks := []
  rxEarly := []
  ffdSeq := []
  ffdHist := []
  ingress := []
  dsp := []
  fftExp := []
  fbSoftBase := 0
  fbSoftLen := 0
  fbSoft := []
  dlSlots := []
  coded := []
  birth := none
  identity := none
  cert := []
  keyDigest := []
  thermLow := false
  alertLow := false
  smbAddr := 0
  hold := none
  resume := []
  avsAt := none
  avsOld := 750
  yearWait := []
  wakeLog := []
  paths := []
  pathEpochs := []
  tagRuns := []
  ilpSent := []
  ilpPause := []
  windows := []
  groups := []
  redOut := []
  reductions := []
  redIn := []
  nextReq := 0
  agreed := []
  perst := []
  d3 := []
  barLog := []
  cplRange := []
  devCtl := []
  aer := []
  fnMasked := []
  msix := []
  msixSent := []
  tapIr := 2
  boundary := []
  tickPend := []
  winOut := []
  upsets := []
  scrubPos := []
  ctlMem := []
  ctlPoison := []
  crHeld := []
  katFrom := []
  otherYear := []

end Sys2Proof.Machine
end

