-- ==== Sys2Proof/Machine/Ops.lean ====
section
/-! DEFINITION. The operations every meaning shares: registers and counters, device time, the error log, the count of
timing-dependent choices, interrupt latching, the firewall and the physical memories, reply records. -/

namespace Sys2Proof.Machine

/-! ### Registers (R8 to R11) -/

/-- The index of offset `d` in a family's dimensions; none where the offset falls between its registers. -/
def dimIndex : List (Nat × Nat) → Nat → Option (List Nat)
  | [], d => if d = 0 then some [] else none
  | (stride, count) :: rest, d =>
    if d / stride < count then (dimIndex rest (d % stride)).map (d / stride :: ·) else none

/-- The register families of the block that holds an offset (R461). -/
def regFams (off : Nat) : List RegFam :=
  match regBlocks.find? (fun b => decide (b.1 ≤ off) && decide (off < b.1 + b.2.1)) with
  | some b => b.2.2
  | none => []

/-- Does a family hold a register at exactly this offset? -/
def RegFam.hits (f : RegFam) (off : Nat) : Bool :=
  decide (f.base ≤ off) && (dimIndex f.dims (off - f.base)).isSome

/-- The register family at exactly this offset; none: unassigned (R11). -/
def regLookup (off : Nat) : Option RegFam := (regFams off).find? (fun f => f.hits off)

/-- Reset values that depend on a register's number: the ID registers, the decoders' iteration limits (Table 7.13), the
credit pools and caps by virtual channel (Table 14.9), the power domains (Table 18.9). -/
def regResetByIndex (off : Nat) : Option Nat :=
  if 0x400000 ≤ off ∧ off < 0x580000 then
    if off % 0x4000 = 0 then some ((off - 0x400000) / 0x4000) else none
  else if 0x600000 ≤ off ∧ off < 0x660000 then
    if off % 0x4000 = 0 then some ((off - 0x600000) / 0x4000) else none
  else if 0x680000 ≤ off ∧ off < 0x6A0000 then
    if off % 0x4000 = 0 then some ((off - 0x680000) / 0x4000) else none
  else if 0x700000 ≤ off ∧ off < 0x800000 then
    if off % 0x10000 = 0 then
      some (if (off - 0x700000) / 0x10000 < 12 then (off - 0x700000) / 0x10000
            else 0x10 + (off - 0x700000) / 0x10000)
    else none
  else if 0x200000 ≤ off ∧ off < 0x220000 then
    if off % 0x1000 = 0 then some ((off - 0x200000) / 0x1000) else none
  else if 0x800000 ≤ off ∧ off < 0x801000 then
    if off % 0x100 = 0 ∧ off < 0x801000 then some (if (off - 0x800000) / 0x100 < 12 then 8 else 4) else none
  else if 0xA00000 ≤ off ∧ off < 0xA10000 ∧ off % 0x4000 < 0x80 then
    let r := off % 0x4000
    if r = 0x20 ∨ r = 0x24 then some 256
    else if r = 0x30 ∨ r = 0x34 then some 2048
    else if r = 0x40 ∨ r = 0x44 then some 4096
    else if r = 0x50 ∨ r = 0x54 then some 1792
    else if r = 0x60 then some 16
    else if r = 0x64 then some 2048
    else if r = 0x68 then some 4096
    else if r = 0x6C then some 256
    else none
  else if 0x160010 ≤ off ∧ off ≤ 0x160020 ∧ off % 4 = 0 then some 0xFFFFFFFF
  else if off = 0x160024 then some 3
  else none

/-- The value of a register after power-on and cold reset (R8). -/
def regReset (off : Nat) : Word :=
  match regResetByIndex off with
  | some v => BitVec.ofNat 64 v
  | none =>
    match regLookup off with
    | some f => BitVec.ofNat 64 (f.fields.foldl (fun a g => a + g.rst <<< g.lo) 0)
    | none => 0

/-- A register's value. -/
def State.reg (s : State) (off : Nat) : Word := Tbl.get regReset s.regs off

/-- A register's value as a number. -/
def State.regN (s : State) (off : Nat) : Nat := (s.reg off).toNat

/-- The hardware sets a register. -/
def State.setReg (s : State) (off : Nat) (v : Word) : State :=
  { s with regs := Tbl.set regReset s.regs off v }

/-- The hardware sets a register to a number, modulo 2^64. -/
def State.setRegN (s : State) (off n : Nat) : State := s.setReg off (BitVec.ofNat 64 n)

/-- A field's value. -/
def State.fld (s : State) (f : Fld) : Nat := fieldGet (s.reg f.off) f.hi f.lo

/-- A one-bit field is set. -/
def State.flag (s : State) (f : Fld) : Bool := s.fld f == 1

/-- The hardware sets a field; the register's other bits stay. -/
def State.setFld (s : State) (f : Fld) (x : Nat) : State := s.setReg f.off (fieldPut (s.reg f.off) f.hi f.lo x)

/-- Bit i of a register. -/
def State.regBit (s : State) (off i : Nat) : Bool := bitOf (s.regN off) i

/-- The hardware sets bit i of a register. -/
def State.setRegBit (s : State) (off i : Nat) (b : Bool) : State := s.setFld ⟨off, i, i⟩ (b2n b)

/-- A 32-bit event counter counts `n` and saturates at 0xFFFF_FFFF (R112, R134, R138 and the other counter rules). -/
def State.bumpBy (s : State) (off n : Nat) : State := s.setRegN off (min (s.regN off + n) 0xFFFFFFFF)

/-- A 32-bit event counter counts once. -/
def State.bump (s : State) (off : Nat) : State := s.bumpBy off 1

/-- A counter of `w` bits that counts `n` modulo 2^w. -/
def State.countMod (s : State) (off w n : Nat) : State := s.setRegN off ((s.regN off + n) % 2 ^ w)

/-- A level register counts down, not below 0. -/
def State.countDown (s : State) (off n : Nat) : State := s.setRegN off (s.regN off - n)

/-- The next free value (DESIGN CHOICE, log entry 2): the step takes it and counts on. -/
def State.free (s : State) : Word × State := (Config.freeValue s.freeCtr, { s with freeCtr := s.freeCtr + 1 })

/-! ### Device time (R387, R388) -/

/-- One second in units of 2^-48 ns. -/
def secondUnits : Nat := 1000000000 * 2 ^ 48

/-- Device time in whole units of 2^-16 ns. -/
def State.time16 (s : State) : Nat := s.devTime / 2 ^ 32

/-- Seconds of device time. -/
def State.timeSec (s : State) : Nat := s.devTime / secondUnits % 2 ^ 48

/-- Nanoseconds of device time. -/
def State.timeNs (s : State) : Nat := s.devTime % secondUnits / 2 ^ 48

/-- Fraction of a nanosecond, units of 2^-16 ns. -/
def State.timeFrac (s : State) : Nat := s.devTime % 2 ^ 48 / 2 ^ 32

/-- The low 64 bits of device time (R387). -/
def State.time64 (s : State) : Word :=
  BitVec.ofNat 64 ((s.timeSec % 65536) * 2 ^ 48 + s.timeNs * 2 ^ 16 + s.timeFrac)

/-- Elapsed time in REFCLK cycles (R388). -/
def State.elapsed (s : State) : Nat := s.regN Reg.TSU_ELAPSED

/-! ### Interrupts: latching (R420, R423) -/

/-- The coalescer of an unused level. -/
def coalReset (_ : Nat) : Coal := ⟨0, false, 0, false⟩

/-- The coalescer of level v of target t. -/
def State.coalOf (s : State) (t v : Nat) : Coal := Tbl.get coalReset s.coal (16 * t + v)

/-- A latch at level v of target t: the count rises, the timer starts, and COUNT makes the level ready (R423). -/
def latchLevel (s : State) (t v : Nat) : State :=
  let c := s.coalOf t v
  let n := c.count + 1
  let c1 : Coal := ⟨n, true, if c.timer then c.start else s.elapsed, c.ready || decide (s.fld (Fd.TGT_COAL_COUNT t v) ≤ n)⟩
  { s with coal := Tbl.set coalReset s.coal (16 * t + v) c1 }

/-- The level of private source `src` of target t. -/
def privLevel (s : State) (t src : Nat) : Nat := bitsOf (s.regN (Reg.TGT_PRIV_LEVEL t (src / 8))) (4 * (src % 8) + 3) (4 * (src % 8))

/-- A private source of target t rises (R420). -/
def raisePriv (s : State) (t src : Nat) : State :=
  if s.regBit (Reg.TGT_PRIV_PEND t) src then s.bump (Reg.TGT_MERGED t)
  else
    let s1 := s.setRegBit (Reg.TGT_PRIV_PEND t) src true
    if s.regBit (Reg.TGT_PRIV_EN t) src then latchLevel s1 t (privLevel s t src) else s1

/-- A shared source rises at the target its ROUTE names (R419, R420). -/
def raiseShared (s : State) (src : Nat) : State :=
  let t := s.fld (Fd.ICN_ROUTE_TARGET src)
  let off := Reg.ICN_SH_PEND (src / 32)
  if s.regBit off (src % 32) then s.bump (Reg.TGT_MERGED t)
  else
    let s1 := s.setRegBit off (src % 32) true
    if s.regBit (Reg.ICN_SH_EN (src / 32)) (src % 32) then latchLevel s1 t (s.fld (Fd.ICN_ROUTE_LEVEL src)) else s1

/-! ### The error log (R344 to R346) -/

/-- LOG kinds that are also written to the sticky log (Table 13.6). -/
def stickyKinds : List Nat := [0x07, 0x08, 0x0A, 0x0C, 0x0D, 0x0E, 0x0F]

/-- The UNIT field of a record: bits 27:12 of the offset of the unit's register block (Table 13.5). DESIGN CHOICE, log entry 21. -/
def unitOf (block : Nat) : Nat := (block / 0x1000) % 0x10000

/-- One more record of the main log; a full one loses its oldest (R346). -/
def mainLogAdd (s : State) (r : LogRec) : State :=
  let full := decide (8192 ≤ s.mainLog.length)
  let kept := if full then s.mainLog.drop 1 else s.mainLog
  let log := kept ++ [r]
  let s1 : State := { s with mainLog := log }
  let s2 := if full then s1.bump Reg.LOG_OVERWRITTEN else s1
  s2.setRegN Reg.LOG_OLDEST_SEQ (match log with | [] => r.seq | o :: _ => o.seq)

/-- One more record of the sticky log; a full one keeps it out (R346). A record kept raises shared source 284. -/
def stickyLogAdd (s : State) (r : LogRec) : State :=
  if 512 ≤ s.stickyLog.length then s.bump Reg.LOG_STICKY_LOST
  else
    let s1 : State := { s with stickyLog := s.stickyLog ++ [r] }
    raiseShared (s1.setRegN Reg.LOG_STICKY_COUNT (s.stickyLog.length + 1)) 284

/-- Write a LOG record (R344, R345); `block` is the offset of the unit's register block. DESIGN CHOICE, log entry 21. -/
def State.log (s : State) (kind origin block addr data : Nat) (write : Bool := false) : State :=
  let sticky := stickyKinds.contains kind
  let kept := sticky && decide (s.stickyLog.length < 512)
  let seq := s.regN Reg.LOG_NEXT_SEQ
  let r : LogRec := ⟨seq, kind, origin, kept, write, unitOf block, addr % 2 ^ 64, data % 2 ^ 64, s.time64.toNat⟩
  let s1 := mainLogAdd (s.setRegN Reg.LOG_NEXT_SEQ ((seq + 1) % 2 ^ 32)) r
  if sticky then stickyLogAdd s1 r else s1

/-- Span of one instance of the block that begins at an offset (Table 19.1); 0: the block has one instance. -/
def blockStride (base : Nat) : Nat :=
  match base with
  | 0x200000 => 0x1000
  | 0x400000 => 0x4000
  | 0x600000 => 0x4000
  | 0x680000 => 0x4000
  | 0x6A0000 => 0x4000
  | 0x700000 => 0x10000
  | 0x900000 => 0x4000
  | 0xA00000 => 0x4000
  | _ => 0

/-- The offset of the unit's register block that an offset lies in; 0 outside every block. -/
def unitBlock (off : Nat) : Nat :=
  match regBlocks.find? (fun b => decide (b.1 ≤ off) && decide (off < b.1 + b.2.1)) with
  | some b => if blockStride b.1 = 0 then b.1 else off - (off - b.1) % blockStride b.1
  | none => 0

/-- A write that a register ignores and records: LOG kind 0x02 with the register's device physical address (Table 13.6). -/
def logIgnored (s : State) (origin off value : Nat) : State :=
  s.log 0x02 origin (unitBlock off) (0x6000000000 + off) value true

/-! ### Timing-dependent choices (R289) -/

/-- Is the device in deterministic mode (R281)? -/
def State.det (s : State) : Bool := s.flag Fd.DET_CTRL_MODE

/-- The relative beat DET.LAST records; before the reference beat, the beat since the origin (Table 11.6). DESIGN CHOICE, log entry 109. -/
def relBeat (s : State) : Nat :=
  if s.flag Fd.DET_STATUS_REF_V then (s.regN Reg.DET_BEAT + 2 ^ 32 - s.regN Reg.DET_REF_BEAT % 2 ^ 32) % 2 ^ 32
  else s.regN Reg.DET_BEAT % 2 ^ 32

/-- A timing-dependent choice of a kind of Table 11.3 at a source island. -/
def countTdc (s : State) (kind island : Nat) : State :=
  let s1 := (s.bump Reg.DET_TDC).bump (Reg.DET_SRC island)
  let s2 := if kind = 4 ∨ 6 ≤ kind then s1.bump Reg.DET_TDC_VAL else s1
  s2.setRegN Reg.DET_LAST ((relBeat s % 65536) * 65536 + kind * 256 + island)

/-! ### Physical addresses, the firewall and the memories (R221 to R231, R309, R310) -/

/-- What lies at a device physical address (Table 9.1). -/
inductive Place where
  | lpddr
  | lsp (pa : Nat)
  | ssp (bank : Nat)
  | ve (n : Nat)
  | dsc (n : Nat)
  | control
  | nothing
  deriving DecidableEq, Repr

/-- First address of the LSP of PA n. -/
def lspBase (n : Nat) : Nat := 0x4000000000 + 0x100000 * n
/-- First address of the SSP. -/
def sspBase : Nat := 0x4100000000
/-- First address of the memory of VE n. -/
def veBase (n : Nat) : Nat := 0x4200000000 + 0x40000 * n
/-- First address of the memory of DSC n. -/
def dscBase (n : Nat) : Nat := 0x4300000000 + 0x100000 * n
/-- First address of the control space. -/
def ctlBase : Nat := 0x6000000000

/-- The place of a device physical address. -/
def placeOf (a : Nat) : Place :=
  if a < 0x1E00000000 then .lpddr
  else if lspBase 0 ≤ a ∧ a < lspBase 96 then .lsp ((a - lspBase 0) / 0x100000)
  else if sspBase ≤ a ∧ a < sspBase + 48 * 0x100000 then .ssp ((a - sspBase) / 0x100000)
  else if veBase 0 ≤ a ∧ a < veBase 24 then .ve ((a - veBase 0) / 0x40000)
  else if dscBase 0 ≤ a ∧ a < dscBase 16 then .dsc ((a - dscBase 0) / 0x100000)
  else if ctlBase ≤ a ∧ a < ctlBase + 0x4000000 then .control
  else .nothing

/-- Is the bank at an address powered (R225)? -/
def bankOn (s : State) (a : Nat) : Bool :=
  match placeOf a with
  | .lsp n => s.regBit (Reg.MA_LSP_ON n) (a % 0x100000 / 0x10000)
  | .ssp b => s.regBit Reg.DMMU_SSP_ON b
  | .dsc n => s.regBit (Reg.DSC_MEM_ON n) (a % 0x100000 / 0x10000)
  | .lpddr | .ve _ | .control => true
  | .nothing => false

/-- Is an address in the on-chip memory that an SRAM clear covers (R443)? -/
def sramCleared (a : Nat) : Bool :=
  match placeOf a with
  | .lsp _ | .ssp _ | .ve _ => true
  | .dsc n => decide (n < 12)
  | _ => false

/-- The register block whose counters report an address's memory. -/
def placeBlock (a : Nat) : Nat :=
  match placeOf a with
  | .lpddr => 0x1000000
  | .lsp n => 0x400000 + 0x4000 * n
  | .ssp _ => 0x180000
  | .ve n => 0x600000 + 0x4000 * n
  | .dsc n => 0x700000 + 0x10000 * n
  | .control | .nothing => 0

/-- Numbers of the FW regions that some register configures: a region whose four words are all 0 is not in use (DESIGN CHOICE, log
entry 9). -/
def fwInUse (s : State) : List Nat :=
  (s.regs.filter (fun p => decide (0xB00000 ≤ p.1) && decide (p.1 < 0xB02000))).map (fun p => (p.1 - 0xB00000) / 32)

/-- Does region i contain an address (R309)? -/
def fwContains (s : State) (i a : Nat) : Bool :=
  decide (s.fld (Fd.FW_REGION_BASE_ADDR i) ≤ a / 4096) && decide (a / 4096 ≤ s.fld (Fd.FW_REGION_LIMIT_ADDR i))

/-- The lowest-numbered region that contains an address (R309). -/
def fwRegion (s : State) (a : Nat) : Option Nat := (fwInUse s).find? (fun i => fwContains s i a)

/-- The origin masks of the control space (Table 19.1, R462): FW by origin 0, CAP without a write origin, the rest by
origins 0 to 6. -/
def ctlAllows (off origin : Nat) (write : Bool) : Bool :=
  if 0xB00000 ≤ off ∧ off < 0xB10000 then decide (origin = 0)
  else if off < 0x10000 then !write && decide (origin ≤ 6)
  else decide (origin ≤ 6)

/-- The boot region that covers a control-space offset (R462). -/
def ctlRegion (off : Nat) : Nat := if 0xB00000 ≤ off ∧ off < 0xB10000 then 0 else if off < 0x10000 then 1 else 2

/-- Does the firewall allow an access (R309, R462): the lowest region that contains the address, else the default masks; before Shaeth has
installed the regions of Table 19.1, the control space has their masks. An unassigned origin is refused everywhere, and only SC writes FW. DESIGN CHOICE, log entry 9. -/
def fwAllows (s : State) (origin a : Nat) (write : Bool) : Bool :=
  if 42 ≤ origin then false
  else if write && origin != 0 && decide (ctlBase + 0xB00000 ≤ a) && decide (a < ctlBase + 0xB10000) then false
  else match fwRegion s a with
    | some i => s.regBit (if write then Reg.FW_REGION_WMASK i else Reg.FW_REGION_RMASK i) origin
    | none => if placeOf a = .control then ctlAllows (a - ctlBase) origin write
        else s.regBit (if write then Reg.FW_DEFAULT_WMASK else Reg.FW_DEFAULT_RMASK) origin

/-- A refused access: counted, recorded, without another effect (R310). -/
def fwRefuse (s : State) (origin a : Nat) (write : Bool) : State :=
  let region := match fwRegion s a with
    | some i => i
    | none => if placeOf a = .control then ctlRegion (a - ctlBase) else 0xFFFF
  let s1 := s.bump Reg.FW_REFUSED
  let s2 := s1.setRegN Reg.FW_LAST (origin * 65536 + b2n write)
  (s2.setRegN Reg.FW_LAST_ADDR (a % 2 ^ 40)).log 0x03 origin 0xB00000 a region write

/-- A port reports an error through AER (R409): a bit of its uncorrectable error status, 12 a poisoned packet, 14 a completion timeout.
PRESUMED, log entry 100. -/
def aerNote (s : State) (p bit : Nat) : State :=
  { s with aer := Tbl.set (fun _ => 0) s.aer p (Tbl.get (fun _ => 0) s.aer p ||| 2 ^ bit) }

/-- Does a host port carry nothing: its PERST# is asserted (R417), or it is in D3hot and issues no requests (R405)? DESIGN CHOICE, log entry 96. -/
def portQuiet (s : State) (p : Nat) : Bool := s.perst.contains p || s.d3.contains p

/-- Is an initiator a host port that is held in reset? Nothing arrives from it. DESIGN CHOICE, log entry 96. -/
def hostInReset (s : State) (origin : Nat) : Bool := decide (5 ≤ origin) && s.perst.contains (origin - 5)

/-- In Retain the control space reaches the SEM, PMU and SUP blocks only (R451). -/
def retainReach (s : State) (off : Nat) : Bool :=
  s.fld Fd.PMU_STATE_STATE != 2 || (decide (0x10000 ≤ off) && decide (off < 0x20000)) ||
    (decide (0x160000 ≤ off) && decide (off < 0x180000))

/-- A write of a control-space register: nothing in Retain beyond R451, the firewall (R310, R462), then the register's own
rule. DEDUCED, log entry 97. -/
def ctlGate (s : State) (origin off : Nat) (f : State → State) : State :=
  if hostInReset s origin || !(retainReach s off) then s
  else if fwAllows s origin (ctlBase + off) true then f s
  else fwRefuse s origin (ctlBase + off) true

/-- Is a granule of LPDDR5X pending zeroing (R445)? DEDUCED, log entry 105. -/
def granulePending (s : State) (a : Nat) : Bool :=
  decide (a < 0x1E00000000) && s.zeroing.any (fun p => decide (p.1 ≤ a / 65536) && decide (a / 65536 < p.2))

/-- Take granule g out of the pending intervals. DEDUCED, log entry 105. -/
def dropGranule (l : List (Nat × Nat)) (g : Nat) : List (Nat × Nat) :=
  l.flatMap (fun p => if p.1 ≤ g ∧ g < p.2 then
    ((if p.1 < g then [(p.1, g)] else []) ++ (if g + 1 < p.2 then [(g + 1, p.2)] else [])) else [p])

/-- Number of granules pending. -/
def pendingCount (l : List (Nat × Nat)) : Nat := (l.map (fun p => p.2 - p.1)).sum

/-- The LPDDR5X channel of a data address (R227). -/
def channelOf (a : Nat) : Nat := a / 64 / 15 % 32

/-- Bytes that one poison entry covers: a 64-byte line of LPDDR5X, a 64-bit word on chip (R226, R231). -/
def poisonSpan (a : Nat) : Nat := if a < 0x1E00000000 then 64 else 8

/-- Bytes under one set of check bits: a 32-byte half of a line of LPDDR5X, a 64-bit word on chip (R226, R227). -/
def checkSpan (a : Nat) : Nat := if a < 0x1E00000000 then 32 else 8

/-- Does a range meet the half line or word at `u` with its own check bits? -/
def checkMeets (a n u : Nat) : Bool := decide (u < a + n) && decide (a < u + checkSpan u)

/-- Does a range hold it whole? -/
def checkHeld (a n u : Nat) : Bool := decide (a ≤ u) && decide (u + checkSpan u ≤ a + n)

/-- Does a range meet the line or word at `p`? -/
def spanMeets (a n p : Nat) : Bool := decide (p < a + n) && decide (a < p + poisonSpan p)

/-- Does a range hold the line or word at `p` whole? -/
def spanHeld (a n p : Nat) : Bool := decide (a ≤ p) && decide (p + poisonSpan p ≤ a + n)

/-- Is some byte of a range poisoned, or in a half line or word with two bad bits (R226, R227)? -/
def poisoned (s : State) (a n : Nat) : Bool :=
  s.poison.any (spanMeets a n) || s.upsets.any (fun u => u.2 && checkMeets a n u.1)

/-- The poisoned lines or words that a range meets, in ascending order. -/
def poisonedUnits (s : State) (a n : Nat) : List Nat :=
  let span := poisonSpan a
  ((List.range ((a % span + n + span - 1) / span)).map (fun k => a / span * span + span * k)).filter (fun u =>
    poisoned s (max a u) (min (a + n) (u + span) - max a u))

/-- The CE counter of the memory at an address (Tables 9.15, 9.18, 9.19). -/
def ceCounter (a : Nat) : Nat :=
  match placeOf a with
  | .lpddr => Reg.MEMC_CE (channelOf a)
  | .lsp n => Reg.MA_LSP_CE n
  | .ssp b => Reg.DMMU_SSP_CE b
  | .ve n => Reg.VE_MEM_CE n
  | .dsc n => Reg.DSC_MEM_CE n
  | .control | .nothing => Reg.MEMC_CE 0

/-- A read corrects the half lines and words of a range with one bad bit: they are counted and written back (R226). -/
def correctWords (s : State) (a n : Nat) : State :=
  let hit (u : Nat × Bool) : Bool := !u.2 && checkMeets a n u.1
  (s.upsets.filter hit).foldl (fun t u => t.bump (ceCounter u.1)) { s with upsets := s.upsets.filter (fun u => !(hit u)) }

/-- Keys of `upsets` (R226): a half line or word of device physical memory by its address, 64-bit word w of the OAB of array n, word w of the
control memories. -/
def oabWordKey (n w : Nat) : Nat := 2 ^ 40 + 16384 * n + w
/-- Word w of the control memories. -/
def ctlWordKey (w : Nat) : Nat := 2 ^ 41 + w

/-- Is one of c OAB entries of array n from e poisoned, or in a word with two bad bits (R226)? DESIGN CHOICE, log entry 30. -/
def oabBad (s : State) (n e c : Nat) : Bool :=
  s.oabPoison.any (fun k => decide (32768 * n + e ≤ k) && decide (k < 32768 * n + e + c)) ||
    s.upsets.any (fun u => u.2 && decide (oabWordKey n (e / 2) ≤ u.1) && decide (u.1 < oabWordKey n ((e + c + 1) / 2)))

/-- A read of c OAB entries of array n from e corrects words with one bad bit: counted, written back (R226). -/
def oabCorrect (s : State) (n e c : Nat) : State :=
  let hit (u : Nat × Bool) : Bool := !u.2 && decide (oabWordKey n (e / 2) ≤ u.1) && decide (u.1 < oabWordKey n ((e + c + 1) / 2))
  (s.upsets.filter hit).foldl (fun t _ => t.bump (Reg.MA_OAB_CE n)) { s with upsets := s.upsets.filter (fun u => !(hit u)) }

/-- A disturbance from outside hits a memory word: one bad bit, or two, as two hits on one word are. DESIGN CHOICE, log entry 116. -/
def upsetWord (l : List (Nat × Bool)) (k : Nat) (two : Bool) : List (Nat × Bool) :=
  let u := if k < 2 ^ 40 then k / checkSpan k * checkSpan k else k
  (u, two || l.any (fun p => p.1 == u)) :: l.filter (fun p => p.1 != u)

/-- The disturbance that an edge of REFCLK brings, if any: Config says which word, no proof can. DESIGN CHOICE, log entry 116. -/
def upsetsAt (s : State) : List (Nat × Bool) :=
  match Config.upset s.elapsed with
  | some (k, two) => upsetWord s.upsets k two
  | none => s.upsets

/-- Lift the poison of the units that a write covers whole (R230), and what was wrong with them; a line of LPDDR5X leaves its channel's
count. -/
def unpoison (s : State) (a n : Nat) : State :=
  let covered := s.poison.filter (spanHeld a n)
  let s1 : State := { s with
    poison := s.poison.filter (fun p => !(covered.contains p))
    upsets := s.upsets.filter (fun u => !(checkHeld a n u.1)) }
  covered.foldl (fun t p => if p < 0x1E00000000 then t.countDown (Reg.MEMC_POISONED (channelOf p)) 1 else t) s1

/-- The zero engine clears granule g: zeros with valid check bits, poison lifted (R445). -/
def clearGranule (s : State) (g : Nat) : State :=
  let z := dropGranule s.zeroing g
  let s1 : State := { s with zeroing := z, mem := Tbl.clearRange s.mem (g * 65536) ((g + 1) * 65536) }
  (unpoison s1 (g * 65536) 65536).setFld Fd.BOOT_ZERO_PENDING (pendingCount z)

/-- What names frames that are pending waits until the zero engine has cleared them, which it does first (R445): granules
lo to hi − 1 are no longer pending. DEDUCED, log entry 105. -/
def clearPending (s : State) (lo hi : Nat) : State :=
  (s.zeroing.flatMap (fun p => (List.range (min p.2 hi - max p.1 lo)).map (fun k => max p.1 lo + k))).foldl clearGranule s

/-- The bytes of a memory from an address. -/
def memRead (m : List Host.Cell) (a : Nat) : Nat → List Byte
  | 0 => []
  | n + 1 => Tbl.get zeroByte m a :: memRead m (a + 1) n

/-- A memory with bytes written from an address. -/
def memWrite (m : List Host.Cell) (a : Nat) : List Byte → List Host.Cell
  | [] => m
  | b :: bs => memWrite (Tbl.set zeroByte m a b) (a + 1) bs

/-- Device physical bytes as the memories hold them; a pending granule reads zeros (R445). -/
def State.bytes (s : State) (a n : Nat) : List Byte :=
  if granulePending s a then zeros n else memRead s.mem a n

/-- A little-endian number in device physical memory. -/
def State.leMem (s : State) (a n : Nat) : Nat := leNat (s.bytes a n)

/-- Key of an offset in bank `b` of the season window of unit u: array u, or DSP cluster u - 96 (R201). DEDUCED, log entry 38. -/
def bankKey (u b off : Nat) : Nat := 2 ^ 18 * (2 * u + b) + off

/-- Bytes of a season bank. -/
def State.bankBytes (s : State) (u b off n : Nat) : List Byte := memRead s.banks (bankKey u b off) n

/-- CAL writes a season bank. -/
def State.putBank (s : State) (u b off : Nat) (bs : List Byte) : State :=
  { s with banks := memWrite s.banks (bankKey u b off) bs }

/-- Store bytes in device physical memory: a pending granule is cleared first (R445), poison of whole units lifted. -/
def State.putBytes (s : State) (a : Nat) (bs : List Byte) : State :=
  let s1 := if granulePending s a then clearGranule s (a / 65536) else s
  let s2 := unpoison s1 a bs.length
  { s2 with mem := memWrite s2.mem a bs }

/-- What a read over the NOC returns. -/
structure BusRead where
  bytes : List Byte
  poisoned : Bool
  refused : Bool
  state : State

/-- The UE counter of the memory at an address (Tables 9.15, 9.18, 9.19). -/
def ueCounter (a : Nat) : Nat :=
  match placeOf a with
  | .lpddr => Reg.MEMC_UE (channelOf a)
  | .lsp n => Reg.MA_LSP_UE n
  | .ssp b => Reg.DMMU_SSP_UE b
  | .ve n => Reg.VE_MEM_UE n
  | .dsc n => Reg.DSC_MEM_UE n
  | .control | .nothing => Reg.MEMC_UE 0

/-- SAF_FAULT_N is driven low (R318). -/
def faultPin (s : State) (low : Bool) : State := s.setFld Fd.SAF_STATUS_FAULT_PIN (b2n low)

/-- A fallback fault (R301): FB_DOWN, its cause and unit, the count, the pin, LOG; the rise of FB_DOWN raises source
281. -/
def fallbackFault (s : State) (cause unit : Nat) : State :=
  let s1 := if s.flag Fd.SAF_STATUS_FB_DOWN then s else raiseShared (s.setFld Fd.SAF_STATUS_FB_DOWN 1) 281
  let s2 := (s1.setRegN Reg.SAF_FB_FAULT (unit % 256 * 256 + cause)).bump Reg.SAF_FB_FAULTS
  (faultPin s2 true).log 0x0A 7 0x110000 unit (unit % 256 * 256 + cause)

/-- Does an address lie in memory of the fallback partition other than a soft buffer: DSC12 to DSC15, FFD's history (R27, R301)? -/
def fallbackMemory (s : State) (a : Nat) : Bool :=
  match placeOf a with
  | .dsc n => decide (12 ≤ n)
  | .lpddr => let h := s.regN Reg.FFD_HIST_BASE; h != 0 && decide (h ≤ a) && decide (a < h + 2 ^ 24)
  | _ => false

/-- A poisoned read of that memory is a fallback fault of the cluster (R301); FFD is no unit that FB_FAULT names, and its number is free. -/
def poisonedFallback (s : State) (a : Nat) : State :=
  match placeOf a with
  | .dsc n => fallbackFault s 3 n
  | _ => let (v, t) := s.free; fallbackFault t 3 (v.toNat % 256)

/-- A poisoned line or word that a read meets is counted and recorded (R226, R250, Table 9.6). -/
def noteUnit (origin : Nat) (s : State) (a : Nat) : State :=
  let u := a / poisonSpan a * poisonSpan a
  let s1 := s.bump (ueCounter u)
  let s2 := if u < 0x1E00000000 then s1.setRegN (Reg.MEMC_LAST_UE (channelOf u)) u else s1
  s2.log 0x04 origin (placeBlock u) u origin

/-- A poisoned read: each poisoned line or word of its range is counted and recorded; in memory of the fallback partition the read is a
fallback fault (R301). -/
def notePoison (s : State) (origin a n : Nat) : State :=
  let us := poisonedUnits s a n
  let t := us.foldl (noteUnit origin) s
  match us.find? (fallbackMemory s) with
  | some u => poisonedFallback t u
  | none => t

/-- A read of `n` bytes at a device physical address, past the firewall or on a memory's internal port: 0 and logged
outside the map or in a powered-down bank (R222, R225), 0 during an SRAM clear (R443), else the bytes with their
poison. -/
def portRead (s : State) (origin a n : Nat) : BusRead :=
  if !(bankOn s a) then ⟨zeros n, false, false, s.log 0x01 origin (placeBlock a) a 0⟩
  else if s.flag Fd.BOOT_ZERO_SRAM_BUSY && sramCleared a then ⟨zeros n, false, false, s⟩
  else if granulePending s a then ⟨s.bytes a n, false, false, s⟩
  else
    let t := correctWords s a n
    if poisoned t a n then ⟨s.bytes a n, true, false, notePoison t origin a n⟩ else ⟨s.bytes a n, false, false, t⟩

/-- A write at a device physical address, past the firewall or on an internal port, with the same cases; discarded and
counted during an SRAM clear (R443). -/
def portWrite (s : State) (origin a : Nat) (bs : List Byte) : State :=
  if !(bankOn s a) then s.log 0x01 origin (placeBlock a) a 0 true
  else if s.flag Fd.BOOT_ZERO_SRAM_BUSY && sramCleared a then s.bump Reg.BOOT_ZERO_BLOCKED
  else s.putBytes a bs

/-- A read over the NOC: the firewall first (R310). -/
def busRead (s : State) (origin a n : Nat) : BusRead :=
  if fwAllows s origin a false then portRead s origin a n else ⟨zeros n, false, true, fwRefuse s origin a false⟩

/-- A write over the NOC: the firewall first (R310). -/
def busWrite (s : State) (origin a : Nat) (bs : List Byte) : State :=
  if fwAllows s origin a true then portWrite s origin a bs else fwRefuse s origin a true

/-- Bytes of the host memory behind port p. DESIGN CHOICE, log entry 14. -/
def State.hostBytes (s : State) (p a n : Nat) : List Byte := memRead (if p = 0 then s.host0 else s.host1) a n

/-- Store bytes in the host memory behind port p. -/
def State.putHost (s : State) (p a : Nat) (bs : List Byte) : State :=
  if p = 0 then { s with host0 := memWrite s.host0 a bs } else { s with host1 := memWrite s.host1 a bs }

/-! ### Port semaphores (R412) -/

/-- Does port p hold semaphore i? -/
def holdsSem (s : State) (p i : Nat) : Bool := s.regBit (if p = 0 then Reg.SEM_HELD_HP0 else Reg.SEM_HELD_HP1) i

/-! ### Reply records (R254 to R256) -/

/-- Entries of the rings of queue q of port p. -/
def ringSize (s : State) (p q : Nat) : Nat := 2 ^ s.fld (Fd.Q_CFG_LOG2N p q)

/-- Is the reply ring full (R254)? -/
def ringFull (s : State) (p q : Nat) : Bool :=
  (s.fld (Fd.Q_RQ_TAIL_INDEX p q) + 1) % ringSize s p q == s.fld (Fd.Q_RQ_HEAD_INDEX p q)

/-- Are records of this queue held? -/
def hasHeld (s : State) (p q : Nat) : Bool := s.held.any (fun r => r.port == p && r.queue == q)

/-- Has a record to wait: a full ring, records held before it, a queue that a port reset stopped (R272), a port in D3hot
(R405), an event record for a disabled queue (R271)? -/
def mustHold (s : State) (r : Reply) : Bool :=
  ringFull s r.port r.queue || s.holdQueues.contains (32 * r.port + r.queue) || portQuiet s r.port ||
    (r.kind == 3 && s.fld (Fd.Q_CFG_ENABLE r.port r.queue) == 0)

/-- The 32 bytes of a record with its phase bit (Table 10.2). -/
def replyBytes (r : Reply) (phase : Nat) (time : Word) : List Byte :=
  leBytes 1 r.opcode ++ leBytes 1 r.status ++ leBytes 2 r.tag ++ leBytes 2 r.index ++
    leBytes 1 (r.queue + 32 * r.kind + 128 * phase) ++ leBytes 1 r.detail ++
    leBytes 8 r.w1.toNat ++ leBytes 8 r.w2.toNat ++ leBytes 8 (if r.kind = 2 then r.w3 else time).toNat

/-- A command leaves the port: its slot is free, its queue counts a reply (R255, R276). -/
def retireCmd (s : State) (p q : Nat) : State :=
  let s1 := (s.countDown (Reg.Q_IN_FLIGHT p q) 1).countMod (Reg.Q_REPLIED p q) 32 1
  let s2 := s1.setFld (Fd.Q_STATUS_DRAINED p q) (b2n (decide (s1.regN (Reg.Q_IN_FLIGHT p q) = 0)))
  let n := s2.fld (Fd.PORT_CMD_IN_FLIGHT p) - 1
  (s2.setFld (Fd.PORT_CMD_IN_FLIGHT p) n).setFld (Fd.PORT_CMD_FREE p) (1024 - n)

/-- Is a command in flight the one that a command reply answers? -/
def Cmd.answers (c : Cmd) (r : Reply) : Bool :=
  c.pkt.port.val == r.port && c.pkt.queue.val == r.queue && c.pkt.tag.toNat == r.tag && c.pkt.index.val == r.index

/-- Write one record at RQ_TAIL, advance the tail, invert the phase on a wrap (R254), raise the queue's source. -/
def writeReply (s : State) (r : Reply) : State :=
  let p := r.port
  let q := r.queue
  let i := s.fld (Fd.Q_RQ_TAIL_INDEX p q)
  let ph := s.fld (Fd.Q_RQ_TAIL_PHASE p q)
  let s1 := s.putHost p (s.fld (Fd.Q_RQ_BASE_ADDR p q) * 64 + 32 * i) (replyBytes r ph s.time64)
  let wrap := decide (i + 1 = ringSize s p q)
  let s2 := s1.setRegN (Reg.Q_RQ_TAIL p q) ((if wrap then 1 - ph else ph) * 2 ^ 31 + (if wrap then 0 else i + 1))
  let s3 := if r.kind = 0 then
      retireCmd { s2 with cmds := s2.cmds.eraseP (fun c => c.phase == .replied && c.answers r) } p q
    else s2
  if r.irq then raisePriv s3 p q else s3

/-- The command that a reply answers has completed: of two alike the later one that has not, for the earlier one is in flight still (R256). -/
def markFirst (p : Cmd → Bool) : List Cmd → List Cmd
  | [] => []
  | c :: cs => if p c then { c with phase := .replied } :: cs else c :: markFirst p cs

/-- Mark the command that a reply answers. -/
def State.markReplied (s : State) (r : Reply) : State :=
  { s with cmds := (markFirst (fun c => c.phase != .replied && c.answers r) s.cmds.reverse).reverse }

/-- Hold a record; a queue that begins to hold sets STATUS.HELD and raises source 34 of its port (Table 16.4). -/
def holdReply (s : State) (r : Reply) : State :=
  let s1 : State := { s with held := s.held ++ [r] }
  if s.flag (Fd.Q_STATUS_HELD r.port r.queue) then s1
  else raisePriv (s1.setFld (Fd.Q_STATUS_HELD r.port r.queue) 1) r.port 34

/-- Post a record: written at once, or held in completion order (R254). DESIGN CHOICE, log entry 20. -/
def postReply (s : State) (r : Reply) : State :=
  if mustHold s r || hasHeld s r.port r.queue then holdReply s r else writeReply s r

/-- One held record of a pass over the held ones: written when its ring has a place, else kept. -/
def flushOne (s : State) (r : Reply) : State :=
  if mustHold s r || hasHeld s r.port r.queue then { s with held := s.held ++ [r] } else writeReply s r

/-- Write the held records that have places, in completion order; HELD clears where none remain (R254). DESIGN CHOICE, log entry 20. -/
def flushHeld (s : State) : State :=
  let s1 := s.held.foldl flushOne { s with held := [] }
  s.held.foldl (fun t r => if hasHeld t r.port r.queue then t else t.setFld (Fd.Q_STATUS_HELD r.port r.queue) 0) s1

/-! ### The capability block's own registers (R4, R464) -/

/-- CAP.EPOCH (R464). -/
@[reducible] def Reg.CAP_EPOCH : Nat := 0x4
/-- CAP.STATUS (Table 19.3). -/
@[reducible] def Reg.CAP_STATUS : Nat := 0x1000
/-- CAP.STATUS.VALID. -/
@[reducible] def Fd.CAP_STATUS_VALID : Fld := ⟨0x1000, 0, 0⟩
/-- CAP.STATUS.PLAN. -/
@[reducible] def Fd.CAP_STATUS_PLAN : Fld := ⟨0x1000, 1, 1⟩
/-- CAP.STATUS.PLAN_V. -/
@[reducible] def Fd.CAP_STATUS_PLAN_V : Fld := ⟨0x1000, 2, 2⟩

/-- A change of the fields that report fencing: EPOCH increments once (R4, R464). -/
def capChanged (s : State) : State := s.countMod Reg.CAP_EPOCH 32 1

/-! ### Running, and what stops it -/

/-- A device with the effect of an ordinary command on it: the queue, what the whole device is doing, and the TAP are not such a command's
to change. -/
def State.after (s t : State) : State :=
  { t with pending := s.pending, phase := s.phase, tapIr := s.tapIr, boundary := s.boundary }

/-- The effect of a command on a device that runs; one that is held in reset or without supplies ignores it (DESIGN
CHOICE, log entry 8); one whose REFCLK has stopped is undefined until a cold reset (R470). -/
def up (s : State) (f : State → State) : Host.Outcome State Fault Refusal :=
  match s.phase with
  | .running => .next (s.after (f s))
  | .held | .off => .next s
  | .clockLost => .fault .clockLost

/-! ### The units as agents of the synchronisation objects (R274) -/

/-- Array n. -/
def seqAgent (n : Nat) : Agent := .seq (Fin.ofNat 96 n)
/-- Vector engine n. -/
def veAgent (n : Nat) : Agent := .ve (Fin.ofNat 24 n)
/-- Attention engine n. -/
def aeAgent (n : Nat) : Agent := .ae (Fin.ofNat 8 n)
/-- Gather unit n. -/
def eguAgent (n : Nat) : Agent := .egu (Fin.ofNat 4 n)
/-- Stream n. -/
def streamAgent (n : Nat) : Agent := .stream (Fin.ofNat 128 n)

end Sys2Proof.Machine
end

