-- ==== Sys2Proof/Machine/Flags.lean ====
section
/-! DEFINITION. Doubt: the doubt word of a code block and its sources (Table 12.2), supervisor violations (R306, R307),
the fallback fault (R301), and which code blocks draw on a pass (R488). -/

namespace Sys2Proof.Machine

/-- Carrier c. -/
def State.car (s : State) (c : Nat) : Car := Tbl.get carReset s.cars c

/-- Set carrier c. -/
def State.setCar (s : State) (c : Nat) (x : Car) : State := { s with cars := Tbl.set carReset s.cars c x }

/-- The safety configuration of carrier c. -/
def State.safeCar (s : State) (c : Nat) : SafeCar := Tbl.get (fun _ => safeCarInitial) s.safe.cars c

/-- The slot a unit has latched (R202). -/
def State.slotOf (s : State) (unit : Nat) : Option SlotRef := Tbl.get (fun _ => none) s.unitSlot unit

/-- A unit latches a slot. -/
def State.setSlotOf (s : State) (unit : Nat) (r : Option SlotRef) : State :=
  { s with unitSlot := Tbl.set (fun _ => none) s.unitSlot unit r }

/-- The job with a handle. -/
def State.job (s : State) (h : Nat) : Option Job := s.jobs.find? (fun j => j.handle == h)

/-- The job that owns the compute. -/
def State.owner (s : State) : Option Job := s.job (s.fld Fd.COMPUTE_OWNER)

/-- State of a job: 1 LOADED, 2 RUNNING, 3 PAUSED, 4 SAVED (Table 10.13). -/
def State.jobState (s : State) (j : Job) : Nat := s.fld (Fd.JOB_STATE j.entry)

/-- Port that owns a job (R258). -/
def State.jobPort (s : State) (j : Job) : Nat := s.fld (Fd.JOB_PORT j.entry)

/-- Replace a job's record. -/
def State.setJob (s : State) (j : Job) : State :=
  { s with jobs := s.jobs.map (fun k => if k.handle = j.handle then j else k) }

/-- The job that physical array n is mapped to, and its logical number. -/
def State.arrayJob (s : State) (n : Nat) : Option (Job × Nat) :=
  s.jobs.findSome? (fun j => (j.la.find? (fun p => p.2 == n)).map (fun p => (j, p.1)))

/-- Elapsed time in twelfths of a REFCLK cycle. -/
def nowT (s : State) : Nat := 12 * s.elapsed

/-- Set one bit of the doubt word of a code block; the first bit records when (R302). A released one keeps its word
(R297). -/
def CodeBlock.mark (b : CodeBlock) (bit now : Nat) : CodeBlock :=
  if b.released.isSome then b
  else { b with doubt := b.doubt ||| 2 ^ bit, doubtAt := if b.doubt = 0 then now else b.doubtAt }

/-- Mark the code blocks of a slot that a test selects. -/
def markSlot (s : State) (c id bit : Nat) (sel : CodeBlock → Bool) : State :=
  let k := s.car c
  let now := nowT s
  s.setCar c { k with slots := k.slots.map (fun x => if x.id = id then
      { x with cbs := x.cbs.map (fun b => if sel b then b.mark bit now else b) } else x) }

/-- Mark every code block of the slots of a carrier that a test selects. -/
def markSlots (s : State) (c bit : Nat) (sel : SlotCtx → Bool) : State :=
  let k := s.car c
  let now := nowT s
  s.setCar c { k with slots := k.slots.map (fun x => if sel x then
      { x with cbs := x.cbs.map (fun b => b.mark bit now) } else x) }

/-- Carriers of a job's slot table. -/
def Job.carriers (j : Job) : List Nat := j.image.slotTable.map (fun b => b.carrier.val)

/-- Mark every code block of every slot in flight on a job's carriers (the CHECK bit of Table 12.2). -/
def markJobCarriers (s : State) (j : Job) (bit : Nat) : State :=
  j.carriers.foldl (fun t c => markSlots t c bit (fun _ => true)) s

/-- Slots per frame of carrier c: 10 × 2^μ. -/
def slotsPerFrame (s : State) (c : Nat) : Nat := 10 * 2 ^ s.fld (Fd.TSU_CAR_MU c)

/-- The slots in flight of carrier d that are the slot `id` of carrier c: that slot itself, or on another carrier those that
by frame and slot number lie in its time. DEDUCED, log entry 42. -/
def sameSlots (s : State) (c id d : Nat) : List Nat :=
  if d = c then [id]
  else match (s.car c).slots.find? (fun x => x.id == id) with
    | none => []
    | some x =>
      let n := slotsPerFrame s c
      let m := slotsPerFrame s d
      ((s.car d).slots.filter (fun y => decide (x.abs * m < (y.abs + 1) * n) && decide (y.abs * n < (x.abs + 1) * m))).map (fun y => y.id)

/-- Mark code blocks of carrier d in the slot `id` of carrier c. -/
def markSame (s : State) (c id d bit : Nat) (sel : CodeBlock → Bool) : State :=
  (sameSlots s c id d).foldl (fun t i => markSlot t d i bit sel) s

/-- Does a draw entry name a code block of its carrier? -/
def drawNames (d : Draw) (b : CodeBlock) : Bool :=
  decide (d.cbLo ≤ b.num) && decide (b.num ≤ d.cbHi) && (b.layers &&& d.layers != 0)

/-- Mark what draw entries name, in the slot `id` of carrier c. -/
def markEntries (s : State) (c id bit : Nat) (es : List Draw) : State :=
  es.foldl (fun t d => markSame t c id d.carrier bit (drawNames d)) s

/-- Mark every code block of every carrier of a job, in the slot `id` of carrier c. -/
def markWhole (s : State) (j : Job) (c id bit : Nat) : State :=
  j.carriers.foldl (fun t d => markSame t c id d bit (fun _ => true)) s

/-- The draw entries that rows lo to hi - 1 of a pass of logical array `la` feed (R488): none where no entry covers one of the rows, which then
feeds every code block of every carrier of the slot table. -/
def drawn (j : Job) (la pc lo hi : Nat) : Option (List Draw) :=
  let es := j.image.draws.filter (fun d => d.la == la && d.pc == pc && decide (d.rowLo < hi) && decide (lo ≤ d.rowHi))
  if (List.range (hi - lo)).all (fun k => es.any (fun d => decide (d.rowLo ≤ lo + k) && decide (lo + k ≤ d.rowHi))) then some es else none

/-- Mark the code blocks that rows lo to hi - 1 of a pass feed, in the slot into which the pass draws. -/
def markRows (s : State) (j : Job) (la : Nat) (slot : Option SlotRef) (pc lo hi bit : Nat) : State :=
  match slot with
  | none => s
  | some (c, id) => match drawn j la pc lo hi with
    | none => markWhole s j c id bit
    | some es => markEntries s c id bit es

/-- Mark the code blocks that draw on one row of a pass of array PA n (R488). -/
def markDraw (s : State) (n : Nat) (slot : Option SlotRef) (pc row bit : Nat) : State :=
  match s.arrayJob n with
  | some (j, la) => markRows s j la slot pc row (row + 1) bit
  | none => s

/-- Addresses of the PASS instructions of a logical array's program. -/
def passPlaces (g : JobImage) (la : Nat) : List Nat :=
  (((g.seqProgs.getD la []).zipIdx).filter (fun p => bitsOf p.1.toNat 31 26 == 0x13)).map (fun p => p.2)

/-- A supervisor violation (R306, R307) for a carrier's slot. -/
def violation (s : State) (i kind : Nat) (sup : Sup) (id slot : Nat) : State :=
  let s1 := (s.bump Reg.SAF_SUP_VIOL).setRegN Reg.SAF_SUP_LAST (i % 256 * 256 + kind)
  let s2 := s1.log 0x0B 7 0x110000 i (kind + 256 * slot)
  if sup.safe then fallbackFault s2 2 i
  else markSlot s2 sup.carrier id 2 (fun b => b.layers &&& sup.layers != 0)

/-- A window bound in units of 8 ns after a slot's tick, in twelfths of a REFCLK cycle: 8 ns are 15 of them (R306). -/
def windowAt (x : SlotCtx) (bound : Nat) : Nat := x.t0 + 15 * bound

/-- The slot of a carrier with a tick number. -/
def State.slotCtx (s : State) (c id : Nat) : Option SlotCtx := (s.car c).slots.find? (fun x => x.id == id)

/-- Replace a slot context. -/
def State.setSlotCtx (s : State) (c : Nat) (x : SlotCtx) : State :=
  let k := s.car c
  s.setCar c { k with slots := k.slots.map (fun y => if y.id = x.id then x else y) }

/-- A slot leaves the learned path (R265); its context goes once its reply has been written too. -/
def endLearned (s : State) (c : Nat) (x : SlotCtx) : State :=
  let k := s.car c
  let s1 := if x.learned then s.countDown (Reg.SLOT_STATE c) 1 else s
  let rest := if x.replied then k.slots.filter (fun y => y.id != x.id)
    else k.slots.map (fun y => if y.id = x.id then { x with learned := false } else y)
  s1.setCar c { k with slots := rest }

/-- The physical unit `n` passes the synchronisation point at program address `pc`: the last one of all units of its slot
ends the slot's learned path (R204, R265). -/
def passPoint (s : State) (seq : Bool) (n pc : Nat) : State :=
  let lu := s.owner.bind (fun j => ((if seq then j.la else j.lv).find? (fun p => p.2 == n)).map (fun p => (j, p.1)))
  match lu, s.slotOf (if seq then n else 96 + n) with
  | some (j, u), some (c, id) =>
    match j.image.slotTable.find? (fun b => b.carrier.val == c), s.slotCtx c id with
    | some b, some x =>
      if b.last.contains (seq, u, pc) && x.learned then
        let y := { x with passed := (seq, u, pc) :: x.passed }
        if b.last.all (fun q => y.passed.contains q) then endLearned s c y else s.setSlotCtx c y
      else s
    | _, _ => s
  | _, _ => s

/-- A START or FINISH signal that a supervisor sees for a slot: early is a violation of kind 1 or 3; a signal after the
close counts for nothing (R306). -/
def superviseOne (s : State) (p : Nat × Sup) (c id obj : Nat) : State :=
  if p.2.carrier ≠ c then s
  else match s.slotCtx c id with
    | none => s
    | some x =>
      let s1 := if p.2.start = obj ∧ !(x.supStart.contains p.1) ∧ nowT s ≤ windowAt x p.2.startClose then
          let t := s.setSlotCtx c { x with supStart := p.1 :: x.supStart }
          if nowT s < windowAt x p.2.startOpen then violation t p.1 1 p.2 id x.slot else t
        else s
      match s1.slotCtx c id with
      | none => s1
      | some y =>
        if p.2.finish = obj ∧ !(y.supFinish.contains p.1) ∧ nowT s ≤ windowAt y p.2.finishClose then
          let t := s1.setSlotCtx c { y with supFinish := p.1 :: y.supFinish }
          if nowT s < windowAt y p.2.finishOpen then violation t p.1 3 p.2 id y.slot else t
        else s1

/-- The task supervisors observe a signal of an object by a unit that has latched a slot (R306). -/
def supervise (s : State) (ref : Option SlotRef) (obj : Nat) : State :=
  match ref with
  | none => s
  | some (c, id) => match s.slotCtx c id with
    | some x => x.sups.foldl (fun t p => superviseOne t p c id obj) s
    | none => s

/-- Show an array's doubt: failed or overdue (R313). -/
def showDoubt (s : State) (n : Nat) : State :=
  s.setRegBit (Reg.SAF_ARRAY_DOUBT (n / 32)) (n % 32) (s.flag (Fd.KAT_ARRAY_FAILED n) || s.flag (Fd.KAT_ARRAY_KAT_OVERDUE n))

end Sys2Proof.Machine
end

