-- ==== Sys2Proof/Machine/Syn.lean ====
section
/-! DEFINITION. Synchronisation objects (R273 to R275): signals, waits, the waking of the unit that waited; and the reply
to a command in flight, which a satisfied SYNC_WAIT posts. -/

namespace Sys2Proof.Machine

/-! ### Answers to commands in flight -/

/-- Status codes (Table 10.4). -/
@[reducible] def St.ok : Nat := 0x00
@[reducible] def St.busy : Nat := 0x10
@[reducible] def St.queueFull : Nat := 0x11
@[reducible] def St.streamBusy : Nat := 0x12
@[reducible] def St.badOpcode : Nat := 0x20
@[reducible] def St.badParam : Nat := 0x21
@[reducible] def St.notOwner : Nat := 0x22
@[reducible] def St.windowClosed : Nat := 0x30
@[reducible] def St.staleGeneration : Nat := 0x31
@[reducible] def St.deadlineMissed : Nat := 0x40
@[reducible] def St.fallbackActive : Nat := 0x41
@[reducible] def St.unitFenced : Nat := 0x50
@[reducible] def St.checkMismatch : Nat := 0x51
@[reducible] def St.authFailed : Nat := 0x60
@[reducible] def St.jobLost : Nat := 0x70
@[reducible] def St.portReset : Nat := 0x71
@[reducible] def St.internal : Nat := 0x7F

/-- The record of a command's reply (Table 10.2). A command that a port reset ended while it executed answers PORT_RESET
with DETAIL 1 and its own results (R272). -/
def replyOf (c : Cmd) (status detail : Nat) (r0 r1 : Word) : Reply :=
  { port := c.pkt.port, queue := c.pkt.queue, opcode := c.opcode,
    status := if c.portReset then St.portReset else status, tag := c.pkt.tag.toNat, index := c.pkt.index.val,
    kind := 0, detail := if c.portReset then 1 else detail, w1 := r0, w2 := r1, w3 := 0, irq := c.pkt.irq }

/-- A command in flight completes: its reply is posted (R256); QUEUE_FULL and PORT_RESET are counted for the port. -/
def finishCmd (s : State) (c : Cmd) (status detail : Nat) (r0 r1 : Word) : State :=
  let s1 := if status = St.queueFull then s.bump (Reg.PORT_QFULL c.pkt.port.val) else s
  let s2 := if c.portReset then s1.bump (Reg.PORT_RESET_ENDED c.pkt.port.val) else s1
  let r := replyOf c status detail r0 r1
  postReply (s2.markReplied r) r

/-- The executing command of an opcode that a test selects, oldest first. -/
def State.executing (s : State) (opcode : Nat) (sel : Cmd → Bool) : Option Cmd :=
  s.cmds.find? (fun c => c.opcode == opcode && c.phase == .executing && sel c)

/-- Finish the executing command that a test selects, if there is one. -/
def finishWhere (s : State) (opcode : Nat) (sel : Cmd → Bool) (status detail : Nat) (r0 r1 : Word) : State :=
  match s.executing opcode sel with
  | some c => finishCmd s c status detail r0 r1
  | none => s

/-! ### Objects -/

/-- An object's type: 0 free, 1 semaphore, 2 event, 3 barrier (Table 10.14). -/
def objType (s : State) (o : Nat) : Nat := s.fld (Fd.SYN_OBJ_W0_TYPE o)
/-- An object's owner (R273). -/
def objOwner (s : State) (o : Nat) : Nat := s.fld (Fd.SYN_OBJ_W0_OWNER o)
/-- Is an object owned by the job of a handle (R274)? -/
def objOfJob (s : State) (o h : Nat) : Bool := decide (objType s o ≠ 0) && objOwner s o == h && h != 0
/-- Count, event state, or arrivals. -/
def objValue (s : State) (o : Nat) : Nat := s.fld (Fd.SYN_OBJ_W1_VALUE o)
/-- Barrier generation. -/
def objGen (s : State) (o : Nat) : Nat := s.fld (Fd.SYN_OBJ_W2_GEN o)
/-- Barrier size. -/
def objSize (s : State) (o : Nat) : Nat := s.fld (Fd.SYN_OBJ_W2_N o)
/-- Wait deadline in units of 8 ns, 0 none. -/
def objDeadline (s : State) (o : Nat) : Nat := s.fld (Fd.SYN_OBJ_W3_DEADLINE o)

/-- Set an object's value. -/
def setObjValue (s : State) (o v : Nat) : State := s.setFld (Fd.SYN_OBJ_W1_VALUE o) v

/-- Island of a waiter, the source of its timing-dependent choices (R275, Table 11.4). -/
def agentIsland : Agent → Nat
  | .seq pa => pa
  | .ve n => 96 + n
  | .ae n => 120 + n
  | .egu _ => 144
  | .stream _ => 144
  | .host p _ _ => 149 + p
  | .standIn _ => 159

/-- Origin ID of a waiter (Table 12.5). -/
def agentOrigin : Agent → Nat
  | .seq _ => 32
  | .ve _ => 33
  | .ae n => 24 + n
  | .egu _ => 35
  | .stream _ => 34
  | .host p _ _ => 5 + p
  | .standIn _ => 9

/-- The key of a unit's latched slot in `unitSlot`. -/
def agentSlotKey : Agent → Nat
  | .egu n => 900 + n
  | .stream n => 1000 + n
  | .standIn la => 2000 + la
  | a => agentIsland a

/-- The carrier whose slot object an object is (R202); 8 stands for the shadow slot object. -/
def slotObject (s : State) (o : Nat) : Option Nat :=
  match s.owner with
  | none => none
  | some j =>
    match j.image.slotTable.find? (fun b => b.objs.any (fun p => p.1 == o)) with
    | some b => some b.carrier.val
    | none => if j.image.shadowObj.any (fun p => p.1 == o) then some 8 else none

/-- The slot that a satisfied wait on a slot object stands for: of a semaphore the oldest signal whose count was not taken before this one,
else the newest signal. -/
def signalledSlot (s : State) (o : Nat) : Option (Nat × Nat × Nat) :=
  let l := Tbl.get (fun _ => []) s.slotSigs o
  if objType s o = 1 then (l.drop (l.length - (objValue s o + 1))).head? else l.getLast?

/-- A unit latches a slot, with its season: an array takes the season's bank. -/
def latchSlot (s : State) (a : Agent) (r : SlotRef) (season : Nat) : State :=
  let k := agentSlotKey a
  let s0 := s.setSlotOf k (some r)
  let s1 : State := { s0 with slotFresh := k :: s0.slotFresh.filter (fun m => m != k) }
  match a with
  | .seq n => (s1.setRegN (Reg.MA_SBANK n) (season % 2)).setRegN (Reg.MA_SSEASON n) season
  | _ => s1

/-- A unit latches the slot of a slot object: the one that was signalled, with the season of its context (R202); for the shadow slot object the
staged season, as carrier 8, numbered for the unit (R206). -/
def latchSlotObject (s : State) (a : Agent) (o : Nat) : State :=
  match slotObject s o with
  | none => s
  | some 8 =>
    let k := match s.slotOf (agentSlotKey a) with
      | some (8, k) => k + 1
      | _ => 0
    latchSlot s a (8, k) ((s.regN Reg.CAL_SEASON + 1) % 2 ^ 32)
  | some _ => match signalledSlot s o with
    | none => s
    | some (c, id, season) => latchSlot s a (c, id) season

/-- A satisfied wait lets its unit go on (R87, R123, R240); a host's SYNC_WAIT is answered. -/
def wake (s : State) (w : Waiter) (result : Nat) : State :=
  let s0 := match w.agent with
    | .seq n => passPoint s true n (s.regN (Reg.MA_SEQ_PC n))
    | .ve n => passPoint s false n (s.regN (Reg.VE_PC n))
    | _ => s
  let s1 := latchSlotObject s0 w.agent w.obj
  match w.agent with
  | .seq n =>
    if s1.regN (Reg.MA_SEQ_PC n) = 1023 then { s1 with pcOut := n :: s1.pcOut }
    else s1.setRegN (Reg.MA_SEQ_PC n) (s1.regN (Reg.MA_SEQ_PC n) + 1)
  | .ve n =>
    let s2 := s1.setFld (Fd.VE_STATUS_WAIT_SYNC n) 0
    if s2.regN (Reg.VE_PC n) = 1023 then { s2 with pcOut := (96 + n) :: s2.pcOut }
    else s2.setRegN (Reg.VE_PC n) (s2.regN (Reg.VE_PC n) + 1)
  | .ae n => { s1.setFld (Fd.AE_STATUS_WAIT_SYNC n) 0 with
      aeStage := Tbl.set (fun _ => 0) s1.aeStage n (Tbl.get (fun _ => 0) s1.aeStage n + 1) }
  | .egu n => { s1.setFld (Fd.EGU_STATUS_WAIT_SYNC n) 0 with
      eguStage := Tbl.set (fun _ => 0) s1.eguStage n (Tbl.get (fun _ => 0) s1.eguStage n + 1) }
  | .stream n => { s1.setFld (Fd.SDE_CTX_STATE_WAITING (n / 4) (n % 4)) 0 with streamOk := n :: s1.streamOk }
  | .host p q t => finishWhere s1 0x42 (fun c => c.pkt.port.val == p && c.pkt.queue.val == q && c.pkt.tag.toNat == t)
      St.ok 0 (BitVec.ofNat 64 result) 0
  | .standIn _ => s1

/-- Take a waiter off the list. -/
def dropWaiter (s : State) (w : Waiter) : State := { s with waiters := s.waiters.filter (fun x => !(x == w)) }

/-- One waiter of a semaphore takes a count, while there is one (Table 10.10). -/
def takeOne (s : State) (w : Waiter) : State :=
  let v := objValue s w.obj
  if v = 0 then s
  else
    let s1 := setObjValue (dropWaiter s w) w.obj (v - 1)
    let s2 := (s1.countMod Reg.SYN_TAKE_TOTAL 64 1).countDown Reg.SYN_COUNT_SUM 1
    wake s2 w (v - 1)

/-- The waiters of an object, in order of arrival (R274). -/
def waitersOf (s : State) (o : Nat) : List Waiter := s.waiters.filter (fun w => w.obj == o)

/-- Release every waiter of an object with one result. -/
def wakeAll (s : State) (o result : Nat) : State :=
  (waitersOf s o).foldl (fun t w => wake (dropWaiter t w) w result) s

/-- The N-th arrival of a barrier's generation: all its waiters go on and the generation rises (Table 10.10). -/
def barrierRelease (s : State) (o : Nat) : State :=
  let g := objGen s o
  let s1 := (setObjValue s o 0).setFld (Fd.SYN_OBJ_W2_GEN o) ((g + 1) % 65536)
  wakeAll s1 o g

/-- One arrival at a barrier without a wait. DEDUCED, log entry 11. -/
def barrierArrive (s : State) (o : Nat) : State :=
  let v := objValue s o + 1
  if objSize s o ≤ v then barrierRelease s o else setObjValue s o v

/-- Does a signal of count n go past the largest count (R274)? -/
def signalOverflows (s : State) (o n : Nat) : Bool := objType s o == 1 && decide (2 ^ 24 - 1 < objValue s o + n)

/-- Is an object the retention object of the job that owns the compute (R205)? -/
def isRetention (s : State) (o : Nat) : Bool :=
  match s.owner with
  | some j => match j.image.retention with
    | some r => r.obj == o
    | none => false
  | none => false

/-- CAL consumes the count of the retention object: one retained slot each (R205). -/
def consumeRetained (s : State) (o : Nat) : State :=
  let v := objValue s o
  let s1 := ((setObjValue s o 0).countMod Reg.SYN_TAKE_TOTAL 64 v).countDown Reg.SYN_COUNT_SUM v
  s1.bumpBy Reg.CAL_RETAINED v

/-- Signal an object (Table 10.10): a semaphore's count rises by n and satisfies waiters in order of arrival; an event is
set, or cleared; a barrier has one arrival (DEDUCED, log entry 11). A count beyond 2^24 - 1 changes nothing and is counted. -/
def signalObj (s : State) (o n : Nat) (clear : Bool) : State :=
  if signalOverflows s o n then s.bump Reg.SYN_SIG_REFUSED
  else match objType s o with
  | 1 =>
    let s1 := setObjValue s o (objValue s o + n)
    let s2 := (s1.countMod Reg.SYN_SIG_TOTAL 64 n).countMod Reg.SYN_COUNT_SUM 64 n
    if isRetention s o then consumeRetained s2 o else (waitersOf s2 o).foldl takeOne s2
  | 2 => if clear then setObjValue s o 0 else wakeAll (setObjValue s o 1) o 1
  | 3 => barrierArrive s o
  | _ => s

/-- Is a wait satisfied at once? On a barrier: would this arrival be the N-th? -/
def waitSatisfied (s : State) (o : Nat) : Bool :=
  match objType s o with
  | 1 => decide (0 < objValue s o) && (waitersOf s o).isEmpty
  | 2 => objValue s o == 1
  | 3 => decide (objSize s o ≤ objValue s o + 1)
  | _ => false

/-- The effect of a wait that is satisfied at once, without the waking of its unit (Table 10.10). -/
def consumeWait (s : State) (o : Nat) : State :=
  match objType s o with
  | 1 => ((setObjValue s o (objValue s o - 1)).countMod Reg.SYN_TAKE_TOTAL 64 1).countDown Reg.SYN_COUNT_SUM 1
  | 3 => barrierRelease s o
  | _ => s

/-- The result of a wait that is satisfied at once: the count left, the event, the generation released. DESIGN CHOICE, log entry 24. -/
def waitResult (s : State) (o : Nat) : Nat :=
  match objType s o with
  | 1 => objValue s o - 1
  | 2 => objValue s o
  | 3 => objGen s o
  | _ => 0

/-- A wait arrives at SYN (R274, R275): satisfied at once its unit goes on, else it joins the object's waiters; on a
barrier it counts as an arrival. -/
def waitObj (s : State) (a : Agent) (o : Nat) : State :=
  let w : Waiter := ⟨o, a, objDeadline s o != 0 && s.slotFresh.contains (agentSlotKey a), false⟩
  if waitSatisfied s o then wake (consumeWait s o) w (waitResult s o)
  else
    let s1 : State := { s with waiters := s.waiters ++ [w] }
    if objType s o = 3 then setObjValue s1 o (objValue s o + 1) else s1

/-- A signal by a unit that has latched a slot: the supervisors see it, then the object takes it; one that overflows a
semaphore is recorded in LOG (R274, R306). -/
def unitSignal (s : State) (a : Agent) (o n : Nat) (clear : Bool) : State :=
  let s1 := supervise s (s.slotOf (agentSlotKey a)) o
  if signalOverflows s1 o n then (s1.bump Reg.SYN_SIG_REFUSED).log 0x11 (agentOrigin a) 0x80000 o n
  else signalObj s1 o n clear

/-- Retire a semaphore's count (R273). -/
def retireCount (s : State) (o : Nat) : State :=
  if objType s o = 1 then
    (s.countMod Reg.SYN_RETIRED_TOTAL 64 (objValue s o)).countDown Reg.SYN_COUNT_SUM (objValue s o)
  else s

/-- Set an object's type, owner, initial value and deadline; a previous semaphore count is retired (R273). -/
def initObj (s : State) (o type owner init deadline : Nat) : State :=
  let s1 := { retireCount s o with slotSigs := Tbl.set (fun _ => []) s.slotSigs o [] }
  let s2 := s1.setRegN (Reg.SYN_OBJ_W0 o) (type * 2 ^ 30 + owner * 2 ^ 20)
  let s3 := s2.setRegN (Reg.SYN_OBJ_W1 o) (if type = 3 then 0 else init)
  let s4 := s3.setRegN (Reg.SYN_OBJ_W2 o) (if type = 3 then init else 0)
  let s5 := s4.setRegN (Reg.SYN_OBJ_W3 o) deadline
  if type = 1 then (s5.countMod Reg.SYN_INIT_TOTAL 64 init).countMod Reg.SYN_COUNT_SUM 64 init else s5

/-- Free an object: its count is retired, its waiters are gone (R273). DESIGN CHOICE, log entry 26. -/
def freeObj (s : State) (o : Nat) : State :=
  initObj { s with waiters := s.waiters.filter (fun w => w.obj != o) } o 0 0 0 0

/-- The values SYNC_INIT and an image may give an object (R273). -/
def objInitOk (type init deadline : Nat) : Bool :=
  match type with
  | 1 => decide (init < 2 ^ 24)
  | 2 => decide (init ≤ 1)
  | 3 => decide (1 ≤ init) && decide (init ≤ 4096)
  | _ => decide (init = 0) && decide (deadline = 0)

end Sys2Proof.Machine
end

