-- ==== Sys2Proof/Machine/Memory.lean ====
section
/-! DEFINITION. Address translation (R232 to R237): the translation buffer, table walks, faults, epochs; and the reads and
writes of job units in the spaces of Table 9.9. -/

namespace Sys2Proof.Machine

/-- The canonical form of a byte memory: addresses strictly rising, no entry that reads as an unlisted byte does. -/
def Memory.wf (m : List Host.Cell) : Bool := Tbl.wf zeroByte m

/-- What a translation gives: a device physical address, an offset in a remote window, or a fault cause (Table 9.8). -/
inductive Xlate where
  | phys (a : Nat)
  | remote (window off : Nat)
  | fault (cause : Nat)
  deriving DecidableEq, Repr

/-- Reserved bits of an entry (Table 9.7). -/
def entryReserved (e : Word) : Bool := fieldGet e 11 6 != 0 || fieldGet e 63 52 != 0

/-- A leaf entry used for an access: permissions, then where its frame lies (R232, R378). `bits` is the page size. -/
def leafUse (s : State) (e : Word) (bits va : Nat) (write : Bool) : Xlate :=
  let allowed := if write then bitOf e.toNat 3 else bitOf e.toNat 2
  let group := bits == 12 && bitOf e.toNat 4
  let size := if group then 16 else bits
  let frame := fieldGet e 39 12 * 4096
  let a := frame / 2 ^ size * 2 ^ size + va % 2 ^ size
  if !(bitOf e.toNat 0) then .fault 1
  else if !allowed then .fault 2
  else if bitOf e.toNat 5 then
    let w := fieldGet e 51 40
    if s.imports.any (fun i => i.num == w && i.isOpen) then .remote w a else .fault 5
  else .phys a

/-- The entry that level `lvl` (3 to 0) reads for an address in the table at `table`. -/
def entryAddr (table va lvl : Nat) : Nat := table + 8 * (va / 2 ^ (12 + 9 * lvl) % 512)

/-- What a walk finds: the leaf and its page size, or a fault. -/
inductive Walk where
  | leaf (e : Word) (bits : Nat)
  | fault (cause : Nat)
  deriving DecidableEq, Repr

/-- Origin of the walker (Table 12.5). -/
@[reducible] def walkOrigin : Nat := 11

/-- One entry of a walk at level `lvl`: a fault, a leaf, or the next table (R232, Table 9.8). The walker reads it over the NOC
under its own origin; a poisoned entry is counted and recorded there (R226). -/
def walkEntry (s : State) (va table lvl : Nat) (next : State → Nat → Walk × State) : Walk × State :=
  let r := busRead s walkOrigin (entryAddr table va lvl) 8
  let e : Word := BitVec.ofNat 64 (leNat r.bytes)
  if r.poisoned then (.fault 4, r.state)
  else if !(bitOf e.toNat 0) then (.fault 1, r.state)
  else if entryReserved e then (.fault 3, r.state)
  else if bitOf e.toNat 1 then next r.state (fieldGet e 39 12 * 4096)
  else if lvl ≤ 1 then (.leaf e (12 + 9 * lvl), r.state)
  else (.fault 3, r.state)

/-- Walk the tables from a level down; a table pointer at L0 is a fault. -/
def walkFrom (va : Nat) : Nat → State → Nat → Walk × State
  | 0, s, table => walkEntry s va table 0 (fun t _ => (.fault 3, t))
  | k + 1, s, table => walkEntry s va table (k + 1) (fun t a => walkFrom va k t a)

/-- The buffered translation of an address. -/
def tbLookup (s : State) (va : Nat) : Option TbEntry := s.tb.find? (fun t => t.page == va / 2 ^ t.bits)

/-- A hit comes to the front, unless the buffer is pinned (R234). -/
def tbTouch (s : State) (t : TbEntry) : State := if s.det then s else { s with tb := t :: s.tb.filter (fun x => x != t) }

/-- Bits of the page that a leaf maps: an entry of a 64 KiB group maps all of it (R232, R234). -/
def leafBits (e : Word) (bits : Nat) : Nat := if bits == 12 && bitOf e.toNat 4 then 16 else bits

/-- A walk fills the buffer in throughput mode; 8,192 translations of any page size stay (R234). -/
def tbFill (s : State) (va : Nat) (e : Word) (bits : Nat) : State :=
  let b := leafBits e bits
  if s.det then s else { s with tb := (⟨va / 2 ^ b, b, e, false⟩ :: s.tb).take 8192 }

/-- Translate one address of a job's virtual space. -/
def translate (s : State) (va : Nat) (write : Bool) : Xlate × State :=
  match tbLookup s va with
  | some t => (leafUse s t.entry t.bits va write, tbTouch s t)
  | none =>
    let s1 := (s.bump Reg.DMMU_TB_MISS).bump Reg.DMMU_WALKS
    let (w, s2) := walkFrom va 3 s1 (s1.fld Fd.DMMU_TTB_ADDR * 4096)
    match w with
    | .fault c => (.fault c, s2)
    | .leaf e bits => (leafUse s2 e bits va write, tbFill s2 va e bits)

/-- Record a translation fault (R237): the first since FAULT was read; source 288. -/
def recordFault (s : State) (origin va cause : Nat) : State :=
  let s2 := s.bump Reg.DMMU_FAULTS
  if s2.flag Fd.DMMU_FAULT_V then s2
  else
    let s3 := s2.setRegN Reg.DMMU_FAULT (2 ^ 31 + origin * 65536 + cause)
    raiseShared (s3.setRegN Reg.DMMU_FAULT_VA (va % 2 ^ 48)) 288

/-! ### Epochs (R236) -/

/-- The epochs held: of transfers of vector engines, of streams, of query steps. -/
def heldEpochs (s : State) : List Nat :=
  s.veXfers.map (fun x => x.epoch) ++ s.streams.flatMap (fun x => x.runs.filterMap (fun r => r.epoch)) ++
    s.aeEpoch.map (fun x => x.2)

/-- The least epoch held; 0xFFFF_FFFF when none. -/
def epochMin (s : State) : Nat := (heldEpochs s).foldl min 0xFFFFFFFF

/-- EPOCH_MIN shows the least epoch held. -/
def showEpochs (s : State) : State := s.setRegN Reg.DMMU_EPOCH_MIN (epochMin s)

/-- Epoch and frames of an edit that waits for its frames (kept in `aux`). -/
def unmapAux (epoch frames : Nat) : Nat := epoch * 2 ^ 32 + frames

/-- Take the epoch of an unmap: it is recorded and EPOCH increments (R236). -/
def takeEpoch (s : State) : Nat × State :=
  let e := s.regN Reg.DMMU_EPOCH
  (e, s.setRegN Reg.DMMU_EPOCH ((e + 1) % 2 ^ 32))

/-- An edit of the entry that maps a page: a pinned translation is updated in place, a buffered one removed (R234, R236). -/
def tbEdit (s : State) (va len : Nat) (entry : Word) : State :=
  let own (t : TbEntry) : Bool := t.pinned && t.page * 2 ^ t.bits == va && 2 ^ t.bits == len
  let meets (t : TbEntry) : Bool := decide (t.page * 2 ^ t.bits < va + len) && decide (va < (t.page + 1) * 2 ^ t.bits)
  let l := s.tb.map (fun t => if own t then { t with entry := entry } else t)
  { s with tb := l.filter (fun t => own t || !(meets t)) }

/-- A walk to the table that holds an address's entry at a level (0: 4 KiB and 64 KiB pages, 1: 2 MiB); none where a level
above has no table. -/
def tableSlot (s : State) (va : Nat) : Nat → Nat → Nat → Option Nat
  | 0, _, _ => none
  | fuel + 1, table, lvl =>
    let a := entryAddr table va lvl
    if fuel = 0 then some a
    else
      let e : Word := BitVec.ofNat 64 (s.leMem a 8)
      if bitOf e.toNat 0 && bitOf e.toNat 1 && !(entryReserved e) then tableSlot s va fuel (fieldGet e 39 12 * 4096) (lvl - 1)
      else none

/-- The address of the entry that maps a page of a size: 0 and 1 at L0, 2 at L1. -/
def leafSlot (s : State) (va size : Nat) : Option Nat :=
  tableSlot s va (if size = 2 then 3 else 4) (s.fld Fd.DMMU_TTB_ADDR * 4096) 3

/-! ### Reads and writes of job units -/

/-- What a unit's read or write came to. -/
structure Access where
  bytes : List Byte
  poisoned : Bool
  /-- a translation fault cause -/
  fault : Option Nat
  state : State

/-- Free bytes: what a remote device's memory holds is not state of this one (DESIGN CHOICE, log entry 13). -/
def freeBytes (s : State) (n : Nat) : List Byte × State :=
  (List.range ((n + 7) / 8)).foldl (fun (a : List Byte × State) k =>
    let (v, t) := a.2.free
    (a.1 ++ (leBytes 8 v.toNat).take (n - 8 * k), t)) ([], s)

/-- A unit fills a range with bytes that the spec does not give (DESIGN CHOICE, log entry 106). -/
def scribble (s : State) (a n : Nat) : State :=
  let (bs, t) := freeBytes s n
  t.putBytes a bs

/-- The diagnostic area of an array (kinds 0 and 1) or a vector engine (kind 2) takes test data or a capture (R325, R332); during an SRAM
clear the write is discarded and counted (R443). -/
def diagFill (s : State) (kind inst : Nat) : State :=
  if 3 ≤ kind then s
  else if s.flag Fd.BOOT_ZERO_SRAM_BUSY then s.bump Reg.BOOT_ZERO_BLOCKED
  else if kind ≤ 1 then scribble s (lspBase inst + 0xF0000) 0x10000
  else if kind = 2 then scribble s (veBase inst + 0x3C000) 0x4000
  else s

/-- Lengths of the pieces of a range that lie in one 4 KiB page each. -/
def pageChunks (va n : Nat) : List (Nat × Nat) :=
  (List.range ((va % 4096 + n + 4095) / 4096)).map (fun k =>
    let lo := if k = 0 then va else (va / 4096 + k) * 4096
    (lo, min (va + n) ((va / 4096 + k + 1) * 4096) - lo))

/-- The season window of the unit in whose memory a device address lies: its bank key, its address and its bytes (R201). -/
def seasonWindow (s : State) (a : Nat) : Option (Nat × Nat × Nat) :=
  match placeOf a with
  | .lsp n => some (n, lspBase n + s.fld (Fd.MA_SWIN_BASE n) * 64, s.fld (Fd.MA_SWIN_LEN n) * 64)
  | .dsc n => if n < 12 then some (96 + n, dscBase n + s.fld (Fd.DSC_SWIN_BASE n) * 64, s.fld (Fd.DSC_SWIN_LEN n) * 64) else none
  | _ => none

/-- Does a device range meet a season window? -/
def meetsSeason (s : State) (a n : Nat) : Bool :=
  match seasonWindow s a with
  | some (_, w, len) => decide (a < w + len) && decide (w < a + n)
  | none => false

/-- The bank that a unit's season window shows: that of the slot it has latched (R201, R202). -/
def shownBank (s : State) (u : Nat) : Nat := if u < 96 then s.fld (Fd.MA_SBANK_BANK u) else s.regN (Reg.DSC_SBANK (u - 96)) % 2

/-- Bytes of a device range as a job read takes them: in a season window those of the bank. DEDUCED, log entry 38. -/
def seasonBytes (s : State) (a : Nat) (bs : List Byte) : List Byte :=
  match seasonWindow s a with
  | some (u, w, len) => if meetsSeason s a bs.length then bs.zipIdx.map (fun p =>
      if w ≤ a + p.2 ∧ a + p.2 < w + len then (s.bankBytes u (shownBank s u) (a + p.2 - w) 1).headD 0 else p.1) else bs
  | none => bs

/-- A job's read over the NOC: the firewall first, a season window reads its bank (R201, R310). -/
def jobRead (s : State) (origin a n : Nat) : BusRead :=
  let r := busRead s origin a n
  if r.refused then r else { r with bytes := seasonBytes s a r.bytes }

/-- A unit reads `n` bytes of a remote window: a READ_REQ waits to leave (R369), and the bytes are free. DESIGN CHOICE, log entry 13. -/
def windowRead (s : State) (w o n : Nat) : List Byte × State := freeBytes { s with winOut := s.winOut ++ [⟨w, o, 0, [], n⟩] } n

/-- Read a piece inside one page. -/
def readChunk (s : State) (origin va n : Nat) : Access :=
  let (x, s1) := translate s va false
  match x with
  | .phys a => let r := jobRead s1 origin a n; ⟨r.bytes, r.poisoned, none, r.state⟩
  | .remote w o => let (bs, s2) := windowRead s1 w o n; ⟨bs, false, none, s2⟩
  | .fault c => ⟨zeros n, false, some c, recordFault s1 origin va c⟩

/-- Read `n` bytes of a job's virtual space; a fault ends it. DESIGN CHOICE, log entry 13. -/
def virtRead (s : State) (origin va n : Nat) : Access :=
  (pageChunks va n).foldl (fun a c =>
    if a.fault.isSome then a
    else let r := readChunk a.state origin c.1 c.2; ⟨a.bytes ++ r.bytes, a.poisoned || r.poisoned, r.fault, r.state⟩)
    ⟨[], false, none, s⟩

/-- Queue a write to a remote window on a virtual channel (Table 14.5): it leaves whole, in one packet (R162). DESIGN CHOICE, log entry 13. -/
def windowWrite (s : State) (w o vc : Nat) (bs : List Byte) : State := { s with winOut := s.winOut ++ [⟨w, o, vc, bs, 0⟩] }

/-- Write a piece inside one page: into a season window it is a fault (R201). What goes to a remote window leaves the device. DEDUCED, log
entry 38. -/
def writeChunk (s : State) (origin va : Nat) (bs : List Byte) : Access :=
  let (x, s1) := translate s va true
  match x with
  | .phys a => if meetsSeason s1 a bs.length then ⟨[], false, some 2, s1⟩ else ⟨[], false, none, busWrite s1 origin a bs⟩
  | .remote w o => ⟨[], false, none, windowWrite s1 w o 2 bs⟩
  | .fault c => ⟨[], false, some c, recordFault s1 origin va c⟩

/-- Write bytes to a job's virtual space; pages before a fault are written. -/
def virtWrite (s : State) (origin va : Nat) (bs : List Byte) : Access :=
  (pageChunks va bs.length).foldl (fun a c =>
    if a.fault.isSome then a else writeChunk a.state origin c.1 ((bs.drop (c.1 - va)).take c.2))
    ⟨[], false, none, s⟩

/-- Is a space the host memory of a port that issues no requests (R405, R417)? -/
def spaceQuiet (s : State) (sp : Nat) : Bool := (sp == 1 && portQuiet s 0) || (sp == 2 && portQuiet s 1)

/-- Read in a space of Table 9.9: 0 job virtual, 1 and 2 host bus addresses, 3 device physical. -/
def spaceRead (s : State) (origin space a n : Nat) : Access :=
  match space with
  | 0 => virtRead s origin a n
  | 1 => ⟨s.hostBytes 0 a n, false, none, s⟩
  | 2 => ⟨s.hostBytes 1 a n, false, none, s⟩
  | _ => let r := busRead s origin a n; ⟨r.bytes, r.poisoned, none, r.state⟩

/-- Write in a space of Table 9.9. -/
def spaceWrite (s : State) (origin space a : Nat) (bs : List Byte) : Access :=
  match space with
  | 0 => virtWrite s origin a bs
  | 1 => ⟨[], false, none, s.putHost 0 a bs⟩
  | 2 => ⟨[], false, none, s.putHost 1 a bs⟩
  | _ => ⟨[], false, none, busWrite s origin a bs⟩

end Sys2Proof.Machine
end

