-- ==== Sys2Proof/Machine/SlotRing.lean ====
section
/-! DEFINITION. Slot configuration rings and slot replies (R261 to R264): the entries of a ring, entries that name no slot to
come, the replies owed, held and written in slot order. -/

namespace Sys2Proof.Machine

/-! ### Entries (Table 10.7) -/

/-- The header of a slot configuration entry. -/
structure EntryHdr where
  seq : Nat
  sfn : Nat
  /-- a reserved bit of SFN is set -/
  sfnRsv : Bool
  slot : Nat
  valid : Bool
  ramp : Nat
  ul : Bool
  dl : Bool
  nalloc : Nat
  pshift : Nat
  dtx : Nat
  qrep : Nat
  deriving DecidableEq, Repr

/-- Entries of the ring of carrier c. -/
def slotRingSize (s : State) (c : Nat) : Nat := 2 ^ s.fld (Fd.SLOT_RING_LOG2N c)

/-- Device physical address of entry i of the ring of carrier c: entries lie 16 KiB apart, a header and 255 records. -/
def slotEntryAddr (s : State) (c i : Nat) : Nat := (s.fld (Fd.SLOT_RING_BASE c) + i) * 16384

/-- Read a header's bytes. -/
def entryHdr (bs : List Byte) : EntryHdr :=
  let f := leAt bs 7 1
  { seq := leAt bs 0 4, sfn := leAt bs 4 2 % 1024, sfnRsv := decide (1024 ≤ leAt bs 4 2), slot := leAt bs 6 1 % 128
    valid := bitOf f 0, ramp := bitsOf f 3 1, ul := bitOf f 4, dl := bitOf f 5, nalloc := leAt bs 8 1
    pshift := leAt bs 9 1 % 8, dtx := leAt bs 12 4, qrep := leAt bs 16 8 }

/-- How far ahead of the absolute slot `cur` an entry's SFN and SLOT lie, modulo the 1,024 frames of SFN. -/
def entryAhead (s : State) (c : Nat) (h : EntryHdr) (cur : Nat) : Nat :=
  let n := 1024 * slotsPerFrame s c
  (h.sfn * slotsPerFrame s c + h.slot + n - cur % n) % n

/-- Does an entry name no slot still to come (R262 step 2)? `after`: slot `cur` itself has ticked already. -/
def entryStale (s : State) (c : Nat) (h : EntryHdr) (cur : Nat) (after : Bool) : Bool :=
  let d := entryAhead s c h cur
  !h.valid || h.seq != (s.car c).seq || h.sfnRsv || decide (slotsPerFrame s c ≤ h.slot) ||
    decide (512 * slotsPerFrame s c ≤ d) || (after && d == 0)

/-- The entry at HEAD of a bound carrier: none where the ring is empty (R262 step 1). DEDUCED, log entry 66. -/
def peekEntry (s : State) (c : Nat) : Option (EntryHdr × State) :=
  if (s.car c).job = 0 ∨ s.fld (Fd.SLOT_HEAD_INDEX c) = s.fld (Fd.SLOT_TAIL_INDEX c) then none
  else
    let r := busRead s 7 (slotEntryAddr s c (s.fld (Fd.SLOT_HEAD_INDEX c))) 64
    some (entryHdr r.bytes, r.state)

/-- An entry is consumed: HEAD and the next sequence number advance, it is counted, and it owes a reply (R262). -/
def consumeEntry (s : State) (c : Nat) : State :=
  let k := s.car c
  let s1 := s.setCar c { k with seq := (k.seq + 1) % 2 ^ 32 }
  let s2 := s1.setFld (Fd.SLOT_HEAD_INDEX c) ((s1.fld (Fd.SLOT_HEAD_INDEX c) + 1) % slotRingSize s1 c)
  (s2.countMod (Reg.SLOT_CONSUMED c) 32 1).setFld (Fd.SLOT_ACTIVE_COUNT c) (s2.fld (Fd.SLOT_ACTIVE_COUNT c) + 1)

/-! ### Replies (R262 to R264) -/

/-- A slot reply of carrier c (Table 10.2); its last word is the binding it belongs to. -/
def slotReply (route : Fin 2 × Fin 32 × Nat) (c status seq : Nat) (r0 r1 : Word) : Reply :=
  { port := route.1, queue := route.2.1, opcode := 0, status := status, tag := seq % 65536, index := c, kind := 1, detail := 0,
    w1 := r0, w2 := r1, w3 := BitVec.ofNat 64 route.2.2, irq := true }

/-- Replies that are ready move to the holding queue in slot order, 64 at most (R264). -/
def holdReady (s : State) (c : Nat) : State :=
  let k := s.car c
  let ready := ((k.out.takeWhile (fun o => o.ready.isSome)).take (64 - k.held.length))
  let n := ready.length
  let s1 := s.setCar c { k with out := k.out.drop n, held := k.held ++ ready.filterMap (fun o => o.ready) }
  let s2 := s1.setFld (Fd.SLOT_ACTIVE_COUNT c) (s1.fld (Fd.SLOT_ACTIVE_COUNT c) - n)
  s2.setFld (Fd.SLOT_STATE_HELD c) (s2.fld (Fd.SLOT_STATE_HELD c) + n)

/-- Write the oldest held reply of carrier c; DONE passes its entry while its binding lasts. -/
def writeSlotReply (s : State) (c : Nat) (r : Reply) : State :=
  let s1 := writeReply s r
  let k := s1.car c
  let s2 := (s1.setCar c { k with held := k.held.drop 1 }).setFld (Fd.SLOT_STATE_HELD c) (s1.fld (Fd.SLOT_STATE_HELD c) - 1)
  let s3 := s2.countMod (Reg.SLOT_REPLIED c) 32 1
  if k.job ≠ 0 ∧ r.w3 = BitVec.ofNat 64 k.binding then
    s3.setFld (Fd.SLOT_DONE_INDEX c) ((s3.fld (Fd.SLOT_DONE_INDEX c) + 1) % slotRingSize s3 c)
  else s3

/-- One held reply of a pass over them: written when it is the oldest and its ring has a place. -/
def writeHeldSlot (c : Nat) (s : State) (r : Reply) : State :=
  if (s.car c).held.head? == some r && !(mustHold s r) && !(hasHeld s r.port r.queue) then writeSlotReply s c r else s

/-- Hold what is ready, write what has a place. -/
def pumpSlots (s : State) (c : Nat) : State :=
  let s1 := holdReady s c
  (s1.car c).held.foldl (writeHeldSlot c) s1

/-- An entry that names no slot to come is consumed and owes a reply STALE_GENERATION (R262 step 2). -/
def staleEntry (s : State) (c : Nat) (h : EntryHdr) : State :=
  let s1 := (consumeEntry s c).bump (Reg.SLOT_STALE c)
  let k := s1.car c
  let r := slotReply (k.port, k.queue, k.binding) c St.staleGeneration h.seq (BitVec.ofNat 64 (h.sfn + h.slot * 1024)) 0
  pumpSlots (s1.setCar c { k with out := k.out ++ [⟨0, some r⟩] }) c

/-- Consume the passed entries at the ring's head (R264): at most one turn of the ring. -/
def drainStale : Nat → State → Nat → Nat → State
  | 0, s, _, _ => s
  | fuel + 1, s, c, cur =>
    match peekEntry s c with
    | none => s
    | some (h, s1) =>
      if (s1.car c).held.length < 64 && entryStale s1 c h cur true then drainStale fuel (staleEntry s1 c h) c cur else s1

/-- A carrier's replies go on: held, written, and where a full holding queue stopped its ticks the passed entries are
consumed as space frees (R264). -/
def flushSlots (s : State) (c : Nat) : State :=
  let s1 := pumpSlots (pumpSlots s c) c
  let k := s1.car c
  if k.blocked && decide (k.held.length < 64) then
    drainStale 64 (s1.setCar c { k with blocked := false }) c (k.lastAbs.getD 0)
  else s1

/-- Places of a reply ring have become free: held records first, then held slot replies of that queue (R254, R264). -/
def flushQueue (s : State) (p q : Nat) : State :=
  (List.range 8).foldl (fun t c =>
    if (t.car c).held.head?.any (fun r => r.port == p && r.queue == q) then flushSlots t c else t) (flushHeld s)

/-! ### SLOT_TAIL_WRITE (R261) -/

/-- A write of SLOT[c].TAIL: by the owning port of the carrier's job only, and not beyond the ring. -/
def slotTailWrite (s : State) (origin c v : Nat) : State :=
  let k := s.car c
  if k.job = 0 ∨ origin ≠ 5 + k.port ∨ slotRingSize s c ≤ v % 64 then logIgnored s origin (Reg.SLOT_TAIL c) v
  else s.setFld (Fd.SLOT_TAIL_INDEX c) v

end Sys2Proof.Machine
end

