-- ==== Sys2Proof/Machine/Queue.lean ====
section
/-! DEFINITION. Command queues: admission of a packet, the checks every command passes before it acts (R256 to R260,
R432), the queue registers' own writes (R253, R254), data records. -/

namespace Sys2Proof.Machine

/-- D commands of Table 10.3. -/
def isD (op : Nat) : Bool := [0x58, 0x59, 0x60, 0x61, 0x70, 0x7F].contains op

/-- Opcodes of Table 10.3. -/
def knownOpcodes : List Nat := [0x01, 0x02, 0x10, 0x11, 0x12, 0x13, 0x14, 0x15, 0x16, 0x20, 0x21, 0x28, 0x29, 0x2A, 0x30,
  0x31, 0x32, 0x33, 0x38, 0x39, 0x3A, 0x3B, 0x40, 0x41, 0x42, 0x43, 0x50, 0x51, 0x52, 0x53, 0x58, 0x59, 0x60, 0x61, 0x70,
  0x71, 0x7F]

/-- JOB_* commands that wait on one job (Table 10.6). -/
def isJobOp (op : Nat) : Bool := decide (0x11 ≤ op) && decide (op ≤ 0x16)

/-- Commands that name a job, or its streams, pages, sequences, seasons or windows: their header can carry a handle (DESIGN CHOICE, log
entry 12). -/
def mayNameJob (op : Nat) : Bool := isJobOp op || [0x20, 0x21, 0x28, 0x29, 0x2A, 0x30, 0x31, 0x32, 0x38, 0x39].contains op

/-- Commands the ROM executes while no firmware runs (R432). DEDUCED, log entry 18. -/
def romServes (op : Nat) : Bool := [0x01, 0x02, 0x53, 0x70].contains op

/-- Two packets with one queue, tag and ring index. -/
def samePkt (c : Cmd) (p : Pkt) : Bool := c.pkt == p

/-- The command is in flight already: COMMAND_FETCH took it and it waits (R260). -/
def inFlight (s : State) (op : Nat) (p : Pkt) : Option Cmd := s.cmds.find? (fun c => c.opcode == op && samePkt c p)

/-- A packet comes into flight: its queue and port count it (R255, R276). DESIGN CHOICE, log entry 15. -/
def intake (s : State) (op : Nat) (p : Pkt) : State :=
  let c : Cmd := ⟨op, p, .fetched, false, 0⟩
  let pn := p.port.val
  let q := p.queue.val
  let s1 : State := { s with cmds := s.cmds ++ [c] }
  let s2 := (s1.setRegN (Reg.Q_IN_FLIGHT pn q) (s1.regN (Reg.Q_IN_FLIGHT pn q) + 1)).countMod (Reg.Q_FETCHED pn q) 32 1
  let n := s2.fld (Fd.PORT_CMD_IN_FLIGHT pn) + 1
  ((s2.setFld (Fd.PORT_CMD_IN_FLIGHT pn) n).setFld (Fd.PORT_CMD_FREE pn) (1024 - n)).setFld (Fd.Q_STATUS_DRAINED pn q) 0

/-- The commands that came into flight before a command: of two alike, the later one is meant, since it is refused as it arrives (R256). -/
def earlier (s : State) (c : Cmd) : List Cmd := ((s.cmds.reverse.dropWhile (fun x => !(x == c))).drop 1).reverse

/-- The page-table and sequence edits. -/
def isEdit (op : Nat) : Bool := [0x28, 0x29, 0x2A].contains op

/-- The mark of a held edit, in `aux` (R167). -/
@[reducible] def heldMark : Nat := 2 ^ 100

/-- Does a command wait to begin, or an edit to be applied (R167)? -/
def Cmd.waits (c : Cmd) : Bool := c.phase == .fetched || (isEdit c.opcode && c.phase == .executing && c.aux == heldMark)

/-- Has every earlier command of the queue written its reply (FENCE, Table 10.1)? -/
def fenceOpen (s : State) (c : Cmd) : Bool :=
  !c.pkt.fence || !((earlier s c).any (fun x => x.pkt.port == c.pkt.port && x.pkt.queue == c.pkt.queue))

/-- D commands execute one at a time in the order of their fetch (R257); JOB_* commands of one job likewise. -/
def orderOpen (s : State) (c : Cmd) : Bool :=
  (!(isD c.opcode) || !((earlier s c).any (fun x => isD x.opcode && x.phase != .replied))) &&
  (!(isJobOp c.opcode) || c.opcode == 0x14 ||
    !((earlier s c).any (fun x => isJobOp x.opcode && x.pkt.job == c.pkt.job && x.phase != .replied)))

/-- Has every earlier command of the queue begun (R260)? A POWER_STATE that waits to enter Retain has (R451). DESIGN CHOICE, log entry 19. -/
def queueTurn (s : State) (c : Cmd) : Bool :=
  !((earlier s c).any (fun x => x.pkt.port == c.pkt.port && x.pkt.queue == c.pkt.queue && x.phase == .fetched &&
    !(x.opcode == 0x7F && s.flag Fd.PMU_STATE_BUSY)))

/-- Commands before one that wait and that a test selects. -/
def waitingBefore (s : State) (c : Cmd) (sel : Cmd → Bool) : Nat := ((earlier s c).filter (fun x => x.waits && sel x)).length

/-- A command finds a capacity of Table 10.6 for commands that wait full: 8 D commands, 16 JOB_* commands of one job (JOB_KILL waits for none),
512 edits where it cannot begin (R266). -/
def waitFull (s : State) (c : Cmd) : Bool :=
  (isD c.opcode && decide (8 ≤ waitingBefore s c (fun x => isD x.opcode))) ||
  (isJobOp c.opcode && c.opcode != 0x14 && decide (16 ≤ waitingBefore s c (fun x => isJobOp x.opcode && x.pkt.job == c.pkt.job))) ||
  (isEdit c.opcode && !(queueTurn s c && fenceOpen s c) && decide (512 ≤ waitingBefore s c (fun x => isEdit x.opcode)))

/-- A TAG in use by another command in flight of the same queue (R256). DESIGN CHOICE, log entry 19. -/
def dupTag (s : State) (c : Cmd) : Bool :=
  (earlier s c).any (fun x => x.pkt.port == c.pkt.port && x.pkt.queue == c.pkt.queue && x.pkt.tag == c.pkt.tag)

/-- A refusal at the header, before the command's own checks: status and DETAIL. The order: duplicate TAG (R256), the
ROM (R432), reserved header bits and a job where none is named (R259), SEM0 (R257), Idle (R450), a lost handle (R271, R487), the job's
port (R258). DEDUCED, log entry 18. DESIGN CHOICE, log entry 19. -/
def headerRefusal (s : State) (c : Cmd) : Option (Nat × Nat) :=
  let p := c.pkt
  let h := p.job.toNat
  if dupTag s c then some (St.badParam, 8)
  else if s.fld Fd.BOOT_STATE_STATE != 4 && !(romServes c.opcode) then some (St.busy, 0)
  else if p.rsv != 0 then some (St.badParam, 8)
  else if h != 0 && !(mayNameJob c.opcode) then some (St.badParam, 8)
  else if isD c.opcode && !(holdsSem s p.port.val 0) then some (St.notOwner, 0)
  else if s.fld Fd.PMU_STATE_STATE != 0 && [0x11, 0x13, 0x16, 0x50].contains c.opcode then some (St.busy, 0)
  else if isJobOp c.opcode && h == 0 then some (St.badParam, 8)
  else if h != 0 then
    match s.job h with
    | some j =>
      if s.jobPort j = p.port.val ∨ (c.opcode = 0x14 ∧ holdsSem s p.port.val 0 = true) then none else some (St.notOwner, 8)
    | none => if s.lostHandles.contains h then some (St.jobLost, 0) else some (St.badParam, 8)
  else none

/-- Refuse a command; it has no other effect (R256). -/
def refuse (s : State) (c : Cmd) (status detail : Nat) : State := finishCmd s c status detail 0 0

/-- The parameters from index k on, all 0 (R259): the DETAIL of the first that is not. -/
def unusedFrom (p : Pkt) (k : Nat) : Option Nat :=
  ([p.p0, p.p1, p.p2, p.p3, p.p4, p.p5, p.p6].zipIdx.drop k).findSome? (fun x => if x.1 != 0 then some (x.2 + 1) else none)

/-- Bits of a parameter beyond those Table 10.3 gives it. -/
def extraBits (v mask : Word) : Bool := (v &&& ~~~mask) != 0

/-- Set the phase of a command in flight. -/
def setCmdPhase (s : State) (c : Cmd) (ph : CmdPhase) : State :=
  { s with cmds := s.cmds.map (fun x => if x == c then { x with phase := ph } else x) }

/-- Keep a number with an executing command. -/
def setCmdAux (s : State) (c : Cmd) (n : Nat) : State :=
  { s with cmds := s.cmds.map (fun x => if x == c then { x with aux := n } else x) }

/-- A command that has been fetched begins, when its order allows it (R260): refused at the header, or its body runs. DESIGN CHOICE, log entry 15. -/
def beginCmd (s : State) (c : Cmd) (body : Cmd → State → State) : State :=
  if dupTag s c then refuse s c St.badParam 8
  else if waitFull s c then refuse s c St.queueFull 0
  else if !(queueTurn s c) || !(fenceOpen s c) || !(orderOpen s c) then s
  else match headerRefusal s c with
    | some (st, d) => refuse s c st d
    | none => body { c with phase := .executing } (setCmdPhase s c .executing)

/-- Does a port fetch: not after a boot that stopped (R430, R432), not in Retain, nor while it is being entered (R451), nor in reset or
D3hot? -/
def fetching (s : State) (p : Nat) : Bool :=
  s.fld Fd.BOOT_STATE_STATE != 5 &&
  s.fld Fd.PMU_STATE_STATE != 2 && !(s.flag Fd.PMU_STATE_BUSY) && !(portQuiet s p)

/-- One command of the table of opcodes: the packet comes into flight, unless COMMAND_FETCH has taken it already, and
begins. A port with 1,024 commands in flight takes no more (R255). DESIGN CHOICE, log entry 15. -/
def hostCmd (op : Nat) (p : Pkt) (body : Cmd → State → State) (s : State) : State :=
  match inFlight s op p with
  | some c => if c.phase = .fetched then beginCmd s c body else s
  | none =>
    if s.fld (Fd.PORT_CMD_FREE p.port.val) = 0 || !(fetching s p.port.val) then s
    else beginCmd (intake s op p) ⟨op, p, .fetched, false, 0⟩ body

/-- Answer OK without results. -/
def okCmd (s : State) (c : Cmd) : State := finishCmd s c St.ok 0 0 0

/-- A data record of a command: record number i and 24 bytes (R256). -/
def dataRecord (c : Cmd) (i : Nat) (bs : List Byte) : Reply :=
  { port := c.pkt.port, queue := c.pkt.queue, opcode := c.opcode, status := 0, tag := c.pkt.tag.toNat, index := i,
    kind := 2, detail := 0, w1 := BitVec.ofNat 64 (leAt bs 0 8), w2 := BitVec.ofNat 64 (leAt bs 8 8),
    w3 := BitVec.ofNat 64 (leAt bs 16 8), irq := false }

/-- Bytes as data records of 24 bytes, the last padded with zeros (R464), posted before the reply. -/
def postData (s : State) (c : Cmd) (bs : List Byte) : State :=
  (List.range ((bs.length + 23) / 24)).foldl (fun t i => postReply t (dataRecord c i (padTo 24 (bs.drop (24 * i))))) s

/-- The job a command acts on: the one its header names, else the one that owns the compute (DESIGN CHOICE, log entry 12). -/
def cmdJob (s : State) (c : Cmd) : Option Job :=
  if c.pkt.job.toNat = 0 then s.owner else s.job c.pkt.job.toNat

/-- A command on an object: refused where a job of the other port, or the firmware, owns it (R258, R274). -/
def objForeign (s : State) (p : Nat) (o : Nat) : Bool :=
  let w := objOwner s o
  if objType s o = 0 then false
  else if w = 0x3FE then false
  else if w = 0x3FF then true
  else match s.job w with
    | some j => s.jobPort j != p
    | none => true

/-! ### Writes of queue registers -/

/-- Port p's own origin (Table 12.5). -/
@[reducible] def portOrigin (p : Nat) : Nat := 5 + p

/-- A doorbell (R253): taken, or ignored with BAD_DB and a record when the index is beyond the ring; a write from another
origin than the port's is ignored and recorded (R252). -/
def sqTailWrite (s : State) (origin p q v : Nat) : State :=
  if origin ≠ portOrigin p then logIgnored s origin (Reg.Q_SQ_TAIL p q) v
  else if ringSize s p q ≤ v % 2 ^ 12 then
    logIgnored (s.setFld (Fd.Q_STATUS_BAD_DB p q) 1) origin (Reg.Q_SQ_TAIL p q) v
  else s.setFld (Fd.Q_SQ_TAIL_INDEX p q) v

/-- A CFG write (R253), judged against ENABLE before it. -/
def queueCfgWrite (s : State) (origin p q v : Nat) : State :=
  let en := s.fld (Fd.Q_CFG_ENABLE p q)
  let en' := bitsOf v 31 31
  let ln := v % 16
  if origin ≠ portOrigin p then logIgnored s origin (Reg.Q_CFG p q) v
  else
    let bad := decide (ln < 4 ∨ 12 < ln)
    let s1 := if en = 1 then
        (if ln ≠ s.fld (Fd.Q_CFG_LOG2N p q) then logIgnored s origin (Reg.Q_CFG p q) v else s)
      else if bad then logIgnored s origin (Reg.Q_CFG p q) v
      else s.setFld (Fd.Q_CFG_LOG2N p q) ln
    let s2 := s1.setFld (Fd.Q_CFG_ENABLE p q) en'
    if en = 0 ∧ en' = 1 then
      let s3 := ((s2.setRegN (Reg.Q_SQ_HEAD p q) 0).setRegN (Reg.Q_SQ_TAIL p q) 0).setRegN (Reg.Q_RQ_HEAD p q) 0
      let s4 := s3.setRegN (Reg.Q_RQ_TAIL p q) (2 ^ 31)
      flushQueue { s4 with holdQueues := s4.holdQueues.filter (fun k => k != 32 * p + q) } p q
    else s2

/-- The host advances RQ_HEAD; held records are then written as places free (R254). -/
def rqHeadWrite (s : State) (origin p q v : Nat) : State :=
  if origin ≠ portOrigin p then logIgnored s origin (Reg.Q_RQ_HEAD p q) v
  else flushQueue (s.setFld (Fd.Q_RQ_HEAD_INDEX p q) v) p q

/-- SQ_BASE or RQ_BASE: while ENABLE is 1 a write that would change it is ignored and recorded (R253). -/
def queueBaseWrite (s : State) (origin off p q : Nat) (v : Word) : State :=
  let v' := v &&& ~~~(63 : Word)
  if origin ≠ portOrigin p then logIgnored s origin off v.toNat
  else if s.fld (Fd.Q_CFG_ENABLE p q) = 1 ∧ v' ≠ s.reg off then logIgnored s origin off v.toNat
  else s.setReg off v'

/-! ### The meanings of the queue rows -/

/-- SQ_TAIL_DOORBELL (R253). -/
def execSqTailDoorbell (port : Fin 2) (queue : Fin 32) (origin : Fin 64) (value : Word32) (s : State) :
    Host.Outcome State Fault Refusal :=
  up s (fun s => ctlGate s origin.val (Reg.Q_SQ_TAIL port.val queue.val) (fun s => sqTailWrite s origin.val port.val queue.val value.toNat))

/-- QUEUE_CFG_WRITE (R253). -/
def execQueueCfgWrite (port : Fin 2) (queue : Fin 32) (origin : Fin 64) (value : Word32) (s : State) :
    Host.Outcome State Fault Refusal :=
  up s (fun s => ctlGate s origin.val (Reg.Q_CFG port.val queue.val) (fun s => queueCfgWrite s origin.val port.val queue.val value.toNat))

/-- RQ_HEAD_WRITE (R254). -/
def execRqHeadWrite (port : Fin 2) (queue : Fin 32) (origin : Fin 64) (value : Word32) (s : State) :
    Host.Outcome State Fault Refusal :=
  up s (fun s => ctlGate s origin.val (Reg.Q_RQ_HEAD port.val queue.val) (fun s => rqHeadWrite s origin.val port.val queue.val value.toNat))

/-- NOP: does nothing and is answered OK (Table 10.3). -/
def nopBody (c : Cmd) (s : State) : State :=
  match unusedFrom c.pkt 0 with
  | some d => refuse s c St.badParam d
  | none => okCmd s c

/-- NOP (R259). -/
def execNop (p : Pkt) (s : State) : Host.Outcome State Fault Refusal := up s (hostCmd 0x01 p nopBody)

end Sys2Proof.Machine
end

