-- ==== Sys2Proof/Machine/Sha.lean ====
section
/-! DEFINITION. SHA-256 (FIPS 180-4), which digests seasons (R216), images (R433) and reports (R439). Its constants are computed from
the primes, and its eight working words are kept as two histories of four: each round adds one word to each. -/

namespace Sys2Proof.Machine

/-- The largest number r + x, x of `k` bits, whose e-th power is at most n, bit by bit from the highest. -/
def rootFrom (e n : Nat) : Nat → Nat → Nat
  | 0, r => r
  | k + 1, r => rootFrom e n k (if (r + 2 ^ k) ^ e ≤ n then r + 2 ^ k else r)

/-- The first 32 bits after the point of the e-th root of p. -/
def rootFraction (e p : Nat) : Nat := rootFrom e (p * 2 ^ (32 * e)) 37 0 % 2 ^ 32

/-- The first 64 primes: those below 312. -/
def shaPrimes : List Nat := (List.range 312).filter (fun p => decide (2 ≤ p) && (List.range 16).all (fun d => p % (d + 2) != 0 || p == d + 2))

/-- The constant of each round: a cube root's fraction. -/
def shaRoundConsts : List Nat := shaPrimes.map (rootFraction 3)

/-- The two histories, latest word first: words a to d, words e to h. -/
structure ShaState where
  upper : List Nat
  lower : List Nat
  deriving DecidableEq, Repr

/-- Before the first block: square roots' fractions of the first eight primes. -/
def shaStart : ShaState :=
  let w := (shaPrimes.take 8).map (rootFraction 2)
  ⟨w.take 4, w.drop 4⟩

/-- A 32-bit word rotated right by each of some amounts, and the results combined bit by bit. -/
def turns (amounts : List Nat) (x : Nat) : Nat := amounts.foldl (fun acc k => acc ^^^ ((x * 2 ^ (32 - k) % 2 ^ 32) ||| x / 2 ^ k)) 0

/-- A big-endian value of bytes. -/
def beNat (bs : List Byte) : Nat := bs.foldl (fun a b => a * 256 + b.toNat) 0

/-- `n` big-endian bytes of a value. -/
def beBytes (n v : Nat) : List Byte := (leBytes n v).reverse

/-- The padded message: 0x80, zeros, the length in bits. -/
def shaPad (m : List Byte) : List Byte := m ++ 0x80 :: zeros ((119 - m.length % 64) % 64) ++ beBytes 8 (8 * m.length)

/-- Words that follow the 16 of a window, oldest first: each is the sum of four of the window, two of them mixed. -/
def shaExpand : Nat → List Nat → List Nat
  | 0, _ => []
  | k + 1, win =>
    let at' (i : Nat) : Nat := win.getD i 0
    let w := (at' 0 + (turns [7, 18] (at' 1) ^^^ at' 1 / 8) + at' 9 + (turns [17, 19] (at' 14) ^^^ at' 14 / 1024)) % 2 ^ 32
    w :: shaExpand k (win.drop 1 ++ [w])

/-- One round with the sum of its constant and its message word. -/
def shaStep (st : ShaState) (kw : Nat) : ShaState :=
  match st.upper, st.lower with
  | [p, q, r, t], [x, y, z, u] =>
    let mix := u + turns [6, 11, 25] x + ((x &&& y) ||| ((x ^^^ (2 ^ 32 - 1)) &&& z)) + kw
    let vote := (p &&& (q ||| r)) ||| (q &&& r)
    ⟨[(mix + turns [2, 13, 22] p + vote) % 2 ^ 32, p, q, r], [(t + mix) % 2 ^ 32, x, y, z]⟩
  | _, _ => st

/-- Word by word sum modulo 2^32. -/
def addWords (a b : List Nat) : List Nat := (List.zip a b).map (fun w => (w.1 + w.2) % 2 ^ 32)

/-- One block of 64 bytes. -/
def shaBlock (st : ShaState) (block : List Byte) : ShaState :=
  let win := (List.range 16).map (fun i => beNat ((block.drop (4 * i)).take 4))
  let words := addWords shaRoundConsts (win ++ shaExpand 48 win)
  let last := words.foldl shaStep st
  ⟨addWords st.upper last.upper, addWords st.lower last.lower⟩

/-- `n` blocks of a padded message. -/
def shaBlocks : Nat → ShaState → List Byte → ShaState
  | 0, st, _ => st
  | n + 1, st, m => shaBlocks n (shaBlock st (m.take 64)) (m.drop 64)

/-- SHA-256 of a message: 32 bytes. -/
def sha256 (m : List Byte) : List Byte :=
  let p := shaPad m
  let st := shaBlocks (p.length / 64) shaStart p
  (st.upper ++ st.lower).flatMap (beBytes 4)

end Sys2Proof.Machine
end

