-- ==== Sys2Proof/Machine/Fabric.lean ====
section
/-! DEFINITION. The Iferik Link fabric's own bookkeeping (R364 to R382): routes, paths, packet numbers, credits, tags, sending,
closing a path or a window, leaving a group. What arrives is in Iferik.lean. -/

namespace Sys2Proof.Machine

/-! ### Routes and paths (R366, R367) -/

/-- The virtual channels. -/
@[reducible] def vcList : List Nat := [0, 1, 2, 3]

/-- This device's ID. -/
def deviceId (s : State) : Nat := s.regN Reg.ILP_DEVICE_ID % 4096

/-- The local port that reaches a device (R366). -/
def ilpRoute (s : State) (d : Nat) : Option Nat :=
  let w := s.regN (Reg.ILP_ROUTE (d / 8))
  let j := 4 * (d % 8)
  if bitOf w (j + 3) then some (bitsOf w (j + 1) j) else none

/-- The path between a port and a peer. -/
def State.path (s : State) (port peer : Nat) : Option Path := s.paths.find? (fun x => x.port == port && x.peer == peer)

/-- Put a path back. -/
def State.setPath (s : State) (x : Path) : State :=
  { s with paths := s.paths.map (fun y => if y.port = x.port ∧ y.peer = x.peer then x else y) }

/-- A channel on which nothing has happened. -/
def pathVcNew : PathVc := ⟨0, 0, 0, 0, 0, false, false, 0⟩

/-- A channel of a path. -/
def Path.vc (x : Path) (v : Nat) : PathVc := x.vcs.getD v pathVcNew

/-- Put it back. -/
def Path.setVc (x : Path) (v : Nat) (y : PathVc) : Path := { x with vcs := x.vcs.set v y }

/-- Paths of a port. -/
def portPaths (s : State) (n : Nat) : Nat := (s.paths.filter (fun x => x.port == n)).length

/-- STATUS.PATHS (R367). -/
def showPaths (s : State) (n : Nat) : State := s.setFld (Fd.ILP_STATUS_PATHS n) (portPaths s n)

/-- Is a port's link up? -/
def ilpUp (s : State) (n : Nat) : Bool := s.flag (Fd.ILP_STATUS_LINK n)

/-! ### Credits and tags (R369 to R371) -/

/-- Credits of a virtual channel move between two of FREE, GRANTED and BUSY: the ledger of R370 keeps its sum. -/
def crMove (s : State) (src dst : Nat) (k : Nat) : State :=
  let m := min k (s.regN src)
  (s.setRegN src (s.regN src - m)).setRegN dst (s.regN dst + m)

/-- The credits granted to a path when it opens, by channel. -/
def firstGrants (s : State) (n : Nat) : List Nat := vcList.map (fun v => min 16 (s.regN (Reg.ILP_CR_FREE n v)))

/-- A path opens (R368, R371, R373): every PSN 0, fresh grants. -/
def openPath (s : State) (n peer epoch : Nat) (opening : Bool) : State :=
  let gs := firstGrants s n
  let x : Path := ⟨n, peer, epoch, opening, false, false, gs.map (fun g => { pathVcNew with granted := g }), [], [], 0⟩
  let s1 := vcList.foldl (fun t v => crMove t (Reg.ILP_CR_FREE n v) (Reg.ILP_CR_GRANTED n v) (gs.getD v 0)) s
  showPaths { s1 with
    paths := s1.paths ++ [x]
    pathEpochs := Tbl.set (fun _ => 0) s1.pathEpochs (4096 * n + peer) epoch } n

/-- Blocks of 256 bytes, at least one. -/
def blocks256 (n : Nat) : Nat := max 1 ((n + 255) / 256)

/-- Credits a packet takes (R370, Table 14.5); an OPEN needs none, since it brings the first grants. -/
def OutPkt.need (p : OutPkt) : Nat :=
  match p.body with
  | .readRsp _ _ _ => 0
  | .writeRsp _ _ => 0
  | .ctrl (.openPath _) => 0
  | .write _ _ bs => blocks256 bs.length
  | .reduce _ _ _ _ _ _ bs => blocks256 bs.length
  | .ctrl (.digest _ bs) => blocks256 bs.length
  | _ => 1

/-- Tags a packet holds (R369). -/
def OutPkt.tagNeed (p : OutPkt) : Nat :=
  match p.body with
  | .write _ _ bs => blocks256 bs.length
  | .reduce _ _ _ _ _ _ bs => blocks256 bs.length
  | .readReq _ _ n => blocks256 n
  | _ => 0

/-- A packet before it is sent. -/
def pkt (vc : Nat) (body : PktBody) (ref : Option ReqRef := none) : OutPkt := ⟨vc, body, ref, 0, 0, none, false, false, (0, 0), []⟩

/-- Tags in use at a port. -/
def tagsOut (s : State) (n : Nat) : Nat := ((s.tagRuns.filter (fun r => r.port == n)).map (fun r => r.count)).sum

/-- TAGS shows them: FREE + OUT = 4,096 (R369). -/
def showTags (s : State) (n : Nat) : State :=
  (s.setFld (Fd.ILP_TAGS_OUT n) (tagsOut s n)).setFld (Fd.ILP_TAGS_FREE n) (4096 - tagsOut s n)

/-- The lowest run of `k` free tags of a port. -/
def findTags (s : State) (n k : Nat) : Option Nat :=
  let runs := s.tagRuns.filter (fun r => r.port == n)
  let fits (a : Nat) : Bool := decide (a + k ≤ 4096) && runs.all (fun r => decide (a + k ≤ r.tag) || decide (r.tag + r.count ≤ a))
  ((0 :: runs.map (fun r => r.tag + r.count)).filter fits).foldl (fun b a => match b with | some x => some (min x a) | none => some a) none

/-- Tags return (R369). -/
def dropTags (s : State) (n : Nat) (sel : TagRun → Bool) : State :=
  showTags { s with tagRuns := s.tagRuns.filter (fun r => !(r.port == n && sel r)) } n

/-! ### Sending (R366 to R370) -/

/-- The PCP of a virtual channel (R364). -/
def vcPcp (s : State) (n v : Nat) : Nat := bitsOf (s.regN (Reg.ILP_PCP n)) (4 * v + 2) (4 * v)

/-- Is a channel's PCP paused (R364)? -/
def vcPaused (s : State) (n v : Nat) : Bool := decide (nowT s < Tbl.get (fun _ => 0) s.ilpPause (8 * n + vcPcp s n v))

/-- May the packet at the head of a path's channel be sent: the link is up, its PCP is not paused, the path is open, and its credits and tags
are there (R369, R370)? -/
def maySend (s : State) (x : Path) (p : OutPkt) : Bool :=
  let isOpen := match p.body with | .ctrl (.openPath _) => true | _ => !x.opening
  ilpUp s x.port && !(vcPaused s x.port p.vc) && isOpen && decide (p.need ≤ (x.vc p.vc).credits) &&
    (p.tagNeed == 0 || (findTags s x.port p.tagNeed).isSome)

/-- The channel whose returned credits a packet carries: its own before the others. -/
def owedVc (x : Path) (v : Nat) : Nat := ((v :: vcList).find? (fun w => (x.vc w).owed != 0)).getD v

/-- Bytes of a packet's payload; the spec gives no layout for the control packets but a digest's value. DESIGN CHOICE, log entry 92. -/
def PktBody.payload : PktBody → List Byte
  | .write _ _ bs => bs
  | .readRsp _ _ bs => bs
  | .reduce _ _ _ _ _ _ bs => bs
  | .ctrl (.digest _ bs) => bs
  | _ => []

/-- TYPE of the Iferik header (Table 14.4). -/
def PktBody.kind : PktBody → Nat
  | .nop => 0
  | .write _ _ _ => 1
  | .readReq _ _ _ => 2
  | .readRsp _ _ _ => 3
  | .writeRsp _ _ => 4
  | .reduce _ _ _ _ _ _ _ => 5
  | .ctrl _ => 6

/-- Status, LEN, WINDOW, TAG and OFFSET of the Iferik header (Table 14.4). -/
def OutPkt.words (p : OutPkt) : Nat × Nat × Nat × Nat × Nat :=
  match p.body with
  | .write w o bs => (0, bs.length, w, p.tag, o)
  | .readReq w o n => (0, n, w, p.tag, o)
  | .readRsp t st bs => (st, bs.length, 0, t, 0)
  | .writeRsp t st => (st, 0, 0, t, 0)
  | .reduce g lane num chunk node _ bs => (0, bs.length, g + 4 * lane, p.tag, num + chunk * 2 ^ 32 + node * 2 ^ 48)
  | .ctrl c => (0, (PktBody.ctrl c).payload.length, 0, p.tag, 0)
  | .nop => (0, 0, 0, p.tag, 0)

/-- The 32 bytes of the Iferik header (Table 14.4). -/
def ilpHeader (s : State) (x : Path) (p : OutPkt) : List Byte :=
  let (st, len, w, tag, off) := p.words
  let down := match p.body with | .reduce _ _ _ _ _ r _ => r | _ => false
  leBytes 1 (1 + 16 * p.body.kind) ++ leBytes 1 (p.vc + 4 * b2n p.nak + 8 * b2n p.crq + 16 * b2n down) ++ leBytes 2 x.peer ++
    leBytes 2 (deviceId s + 4096 * x.port) ++ leBytes 1 x.epoch ++ leBytes 1 st ++ leBytes 4 p.psn ++
    leBytes 4 (match p.ack with | some a => a + 2 ^ 31 | none => 0) ++ leBytes 2 len ++ leBytes 2 w ++ leBytes 2 tag ++
    leBytes 2 (p.cred.1 + 4 * p.cred.2) ++ leBytes 8 off

/-- The MAC address of a port of a device (R366). -/
def ilpMac (s : State) (d port : Nat) : List Byte := beBytes 6 (s.regN Reg.ILP_MAC_PREFIX * 65536 + d * 16 + port)

/-- The frame of a packet but for its FCS (R364): addresses, VLAN tag, EtherType, Iferik header, payload. DESIGN CHOICE, log entry 92. -/
def ilpFrame (s : State) (x : Path) (p : OutPkt) : List Byte :=
  ilpMac s x.peer x.port ++ ilpMac s (deviceId s) x.port ++ beBytes 2 0x8100 ++
    beBytes 2 (vcPcp s x.port p.vc * 8192 + s.fld (Fd.ILP_CFG_VID x.port)) ++ beBytes 2 (s.fld Fd.ILP_ETHERTYPE_TYPE) ++
    ilpHeader s x p ++ p.body.payload

/-- Send a packet: it takes the next PSN, credits and tags, carries the acknowledgement of its channel and returned credits, and stays
until it is acknowledged. -/
def sendNow (s : State) (x : Path) (p : OutPkt) : State × Path :=
  let c := x.vc p.vc
  let cv := owedVc x p.vc
  let tag := if p.tagNeed = 0 then 0 else (findTags s x.port p.tagNeed).getD 0
  let q0 : OutPkt := { p with
    psn := c.sent % 2 ^ 24, tag := tag
    ack := if c.accepted = 0 then none else some ((c.accepted - 1) % 2 ^ 24)
    crq := decide (c.credits < p.need + 1)
    cred := (cv, (x.vc cv).owed) }
  let q : OutPkt := { q0 with frame := ilpFrame s x q0 }
  let x1 := x.setVc p.vc { c with sent := c.sent + 1, credits := c.credits - p.need, unacked := 0 }
  let x2 := x1.setVc cv { x1.vc cv with owed := 0 }
  let run : List TagRun := if p.tagNeed = 0 then [] else [⟨x.port, x.peer, tag, p.tagNeed, p.vc, q.psn, p.ref⟩]
  let s1 : State := { s with
    tagRuns := s.tagRuns ++ run
    ilpSent := s.ilpSent.filter (fun y => y.1 != x.port) ++ [(x.port, q)] }
  (showTags (s1.bump (Reg.ILP_TX_PKTS x.port)) x.port, { x2 with unacked := x2.unacked ++ [q] })

/-- Send what may be sent on a path, in order on each channel. DEDUCED, log entry 91. -/
def ilpPump (s : State) (n peer : Nat) : State :=
  match s.path n peer with
  | none => s
  | some x =>
    let (t, y, _) := x.queue.foldl (fun (a : State × Path × List Nat) p =>
      let (t, y, blocked) := a
      if blocked.contains p.vc then (t, { y with queue := y.queue ++ [p] }, blocked)
      else if maySend t y p then let (u, z) := sendNow t y p; (u, z, blocked)
      else (t, { y with queue := y.queue ++ [p] }, p.vc :: blocked)) (s, { x with queue := [] }, [])
    t.setPath y

/-- Send on every path. -/
def ilpPumpAll (s : State) : State := s.paths.foldl (fun t x => ilpPump t x.port x.peer) s

/-- Queue a packet on a path and send what may be sent. -/
def ilpSend (s : State) (n peer : Nat) (p : OutPkt) : State :=
  match s.path n peer with
  | none => s
  | some x => ilpPump (s.setPath { x with queue := x.queue ++ [p], closing := x.closing && x.closeSent }) n peer

/-- The path to a peer, opened if there is none: a CTRL OPEN with the next epoch goes first (R367, R373). None: no valid route (R366), or a
257th path on the port. -/
def usePath (s : State) (peer : Nat) : Except Nat (Nat × State) :=
  match ilpRoute s peer with
  | none => .error St.badParam
  | some n =>
    match s.path n peer with
    | some _ => .ok (n, s)
    | none =>
      if 256 ≤ portPaths s n then .error St.queueFull
      else
        let e := (Tbl.get (fun _ => 0) s.pathEpochs (4096 * n + peer) + 1) % 256
        let s1 := openPath s n peer e true
        .ok (n, ilpSend s1 n peer (pkt 0 (.ctrl (.openPath (firstGrants s n)))))

/-- Send a packet to the owner of an imported window (R366, R373); false where no path reaches it. -/
def sendRemote (s : State) (w : Nat) (p : OutPkt) : Bool × State :=
  match s.imports.find? (fun i => i.num == w) with
  | none => (false, s)
  | some i =>
    match usePath s i.owner with
    | .ok (n, t) => (true, ilpSend t n i.owner p)
    | .error _ => (false, s)

/-- Bytes of a packet's payload on a port (R365). -/
def maxPayload (s : State) (n : Nat) : Nat :=
  match s.fld (Fd.ILP_CFG_MAXPAY n) with
  | 0 => 4096
  | 1 => 2048
  | _ => 1024

/-- Offsets and lengths of the packets that `len` bytes take on a port, at least one (R365). -/
def packetCuts (s : State) (n len : Nat) : List (Nat × Nat) :=
  let m := maxPayload s n
  (List.range (max 1 ((len + m - 1) / m))).map (fun k => (m * k, min m (len - m * k)))

/-- The packets that `len` bytes of an imported window take: those of the port that reaches its owner. -/
def windowCuts (s : State) (w len : Nat) : List (Nat × Nat) :=
  match (s.imports.find? (fun i => i.num == w)).bind (fun i => ilpRoute s i.owner) with
  | some n => packetCuts s n len
  | none => [(0, len)]

/-- The units' accesses to windows that wait leave, in order, where a path reaches their owner (R162, R365, R369). -/
def sendWindowWrites (s : State) : State :=
  s.winOut.foldl (fun t w => (windowCuts t w.window (max w.want w.bytes.length)).foldl (fun u c =>
    (sendRemote u w.window (pkt w.vc
      (if w.want = 0 then .write w.window (w.off + c.1) ((w.bytes.drop c.1).take c.2) else .readReq w.window (w.off + c.1) c.2))).2) t)
    { s with winOut := [] }

/-! ### Closing a path (R375) -/

/-- Is a group's slot joined, and its root? -/
def groupJoined (s : State) (g : Nat) : Bool := s.flag (Fd.ILP_GROUP_JOINED g)
/-- Root of the group in a slot. -/
def groupRoot (s : State) (g : Nat) : Nat := s.fld (Fd.ILP_GROUP_ROOT g)
/-- Members of the group in a slot. -/
def groupMembers (s : State) (g : Nat) : List Nat := ((s.groups.find? (fun p => p.1 == g)).map (fun p => p.2)).getD []

/-- A FABRIC_JOIN waits on a slot. -/
def joining (s : State) (g : Nat) : Bool := s.cmds.any (fun c => c.opcode == 0x3A && c.phase == .executing && c.aux == g)

/-- Is a device in a slot's roster? -/
def inRoster (s : State) (g d : Nat) : Bool := s.regBit (Reg.ILP_ROSTER g (d / 32)) (d % 32)

/-- Does a window, an import, a group, a join or a request use a path? -/
def pathUsed (s : State) (n peer : Nat) : Bool :=
  s.windows.any (fun w => w.port == n && w.peer == peer) ||
    s.imports.any (fun i => i.port == n && i.owner == peer && i.isOpen) ||
    s.tagRuns.any (fun r => r.port == n && r.peer == peer) ||
    (ilpRoute s peer == some n && s.groups.any (fun g => g.2.contains peer &&
      (groupRoot s g.1 == peer || groupRoot s g.1 == deviceId s || s.reductions.any (fun r => r.slot == g.1)))) ||
    (ilpRoute s peer == some n && vcList.any (fun g => joining s g && inRoster s g peer))

/-- A path that is to close sends CTRL CLOSE once everything it sent is acknowledged; a NOP is owed no acknowledgement. -/
def tryClose (s : State) (n peer : Nat) : State :=
  match s.path n peer with
  | none => s
  | some x =>
    if x.closing && !x.closeSent && x.unacked.all (fun p => p.body == .nop) && x.queue.isEmpty then
      ilpSend (s.setPath { x with closeSent := true }) n peer (pkt 0 (.ctrl .closePath))
    else s

/-- A path that nothing uses any more closes. -/
def closeIdle (s : State) (n peer : Nat) : State :=
  match s.path n peer with
  | none => s
  | some x => if x.closing || pathUsed s n peer then s else tryClose (s.setPath { x with closing := true }) n peer

/-- Every path that nothing uses closes (R367, R375). -/
def closeIdleAll (s : State) : State := s.paths.foldl (fun t x => closeIdle t x.port x.peer) s

/-! ### Windows of this device (R376, R377) -/

/-- The window of a number. -/
def State.window (s : State) (w : Nat) : Option Window := s.windows.find? (fun x => x.num == w)

/-- A window begins to close: REVOKE goes to the importer; with no path to it the window is closed at once (R373, R377). -/
def closeWindow (s : State) (w : Nat) : State :=
  match s.window w with
  | none => s
  | some x =>
    match x.state with
    | .closing => s
    | _ =>
      if (s.path x.port x.peer).isNone then { s with windows := s.windows.filter (fun y => y.num != w) }
      else
      let s1 : State := { s with windows := s.windows.map (fun y => if y.num = w then { y with state := .closing } else y) }
      ilpSend s1 x.port x.peer (pkt 0 (.ctrl (.revoke w)))

/-- The windows that a job opened close when it ends (R376). -/
def closeJobWindows (s : State) (h : Nat) : State :=
  (s.windows.filter (fun w => w.job == h && w.job != 0)).foldl (fun t w => closeWindow t w.num) s

/-! ### Groups (R379 to R382) -/

/-- Is a slot's group an adaptation group? -/
def groupAdapts (s : State) (g : Nat) : Bool := s.flag (Fd.ILP_GROUP_KIND g)

/-- CAL.GROUP of an adaptation group (Table 8.8). -/
def showGroup (s : State) (g : Nat) : State :=
  if groupAdapts s g then
    if groupJoined s g then s.setRegN Reg.CAL_GROUP (2 ^ 31 + groupRoot s g * 65536 + (groupMembers s g).length)
    else s.setRegN Reg.CAL_GROUP 0
  else s

/-- The reductions of a slot are abandoned (R382); an adaptation step ends (R215). -/
def abandonReductions (s : State) (g : Nat) : State :=
  let any := s.reductions.any (fun r => r.slot == g)
  let s1 : State := { s with
    reductions := s.reductions.filter (fun r => r.slot != g)
    redIn := s.redIn.filter (fun r => r.slot != g) }
  if any && groupAdapts s g then finishWhere s1 0x32 (fun _ => true) St.deadlineMissed 0 0 0 else s1

/-- A membership takes effect here: members, root, epoch (R381). -/
def setGroup (s : State) (g root epoch : Nat) (ms : List Nat) : State :=
  let s1 : State := { s with groups := s.groups.filter (fun p => p.1 != g) ++ [(g, ms)] }
  let s2 := ((s1.setFld (Fd.ILP_GROUP_JOINED g) 1).setFld (Fd.ILP_GROUP_ROOT g) root).setRegN (Reg.ILP_GROUP_EPOCH g) epoch
  abandonReductions (showGroup s2 g) g

/-- Outside an adaptation group there is no agreed digest (R213). -/
def dropAgreed (old : State) (g : Nat) (s : State) : State := if groupAdapts old g then { s with agreed := [] } else s

/-- This device has left the group of a slot; FABRIC_LEAVE is answered (R381). -/
def groupLeft (s : State) (g : Nat) : State :=
  let s1 : State := { s with groups := s.groups.filter (fun p => p.1 != g) }
  let s2 := abandonReductions (dropAgreed s1 g (showGroup ((s1.setFld (Fd.ILP_GROUP_JOINED g) 0).setFld (Fd.ILP_GROUP_ROOT g) 0) g)) g
  s2.cmds.foldl (fun t c =>
    if c.opcode == 0x3B && c.phase == .executing && c.aux == g then finishCmd t c St.ok 0 0 0 else t) s2

/-- Send to a peer over the path it has, or over a fresh one; nothing is sent without a route. -/
def sendTo (s : State) (peer : Nat) (p : OutPkt) : State :=
  match usePath s peer with
  | .ok (n, t) => ilpSend t n peer p
  | .error _ => s

/-- The root tells a list of devices the membership of a group (R381). -/
def announceGroup (s : State) (g root : Nat) (ms tos : List Nat) : State :=
  let id := s.fld (Fd.ILP_GROUP_ID g)
  let e := s.regN (Reg.ILP_GROUP_EPOCH g)
  (tos.filter (fun m => m != deviceId s)).foldl (fun t m => sendTo t m (pkt 0 (.ctrl (.epoch id root e ms)))) s

/-- The root takes a device out of a group (R381). -/
def memberOut (s : State) (g m : Nat) : State :=
  let ms := (groupMembers s g).filter (fun x => x != m)
  let s1 := setGroup s g (deviceId s) ((s.regN (Reg.ILP_GROUP_EPOCH g) + 1) % 2 ^ 32) ms
  announceGroup s1 g (deviceId s) ms ms

/-- This device leaves a group (R381): a member asks the root; a root leaves at once, and the lowest remaining ID is root. -/
def leaveGroup (s : State) (g : Nat) : State :=
  if groupRoot s g = deviceId s then
    let rest := (groupMembers s g).filter (fun m => m != deviceId s)
    let s1 := s.setRegN (Reg.ILP_GROUP_EPOCH g) ((s.regN (Reg.ILP_GROUP_EPOCH g) + 1) % 2 ^ 32)
    closeIdleAll (groupLeft (announceGroup s1 g (rest.headD 0) rest rest) g)
  else sendTo s (groupRoot s g) (pkt 0 (.ctrl (.leave (s.fld (Fd.ILP_GROUP_ID g)))))

/-- The slot of the adaptation group that this device is in. -/
def adaptSlot (s : State) : Option Nat := vcList.find? (fun g => groupJoined s g && groupAdapts s g)

/-- The device leaves its adaptation group: a compute reset, an expulsion (Table 8.7, R218). -/
def leaveAdaptation (s : State) : State :=
  match adaptSlot s with
  | some g => leaveGroup s g
  | none => s

end Sys2Proof.Machine
end

