-- ==== Sys2Proof/Machine/Record.lean ====
section
/-! DEFINITION. Completion records of streams (Table 9.11, R243). -/

namespace Sys2Proof.Machine

/-- Engine and context of a stream (R238). -/
def sdeOf (n : Nat) : Nat × Nat := (n / 4, n % 4)

/-- Is the completion ring full (R243)? -/
def crFull (s : State) (n : Nat) : Bool :=
  let (e, c) := sdeOf n
  (s.fld (Fd.SDE_CTX_CR_HEAD_INDEX e c) + 1) % 2 ^ s.fld (Fd.SDE_CTX_CR_CFG_LOG2N e c) == s.fld (Fd.SDE_CTX_CR_TAIL_INDEX e c)

/-- Has a record to wait: the ring is full, or lies behind a port that issues no requests (R243, R405)? -/
def crWaits (s : State) (n : Nat) : Bool := crFull s n || spaceQuiet s (s.fld (Fd.SDE_CTX_CR_CFG_SPACE (n / 4) (n % 4)))

/-- The 32 bytes of a record (Table 9.11): flags bit 0 LATE, 1 SKIPPED, 2 SUPERSEDED, 3 FINAL. -/
def recordBytes (s : State) (n status desc user done flags : Nat) (time : Nat) : List Byte :=
  let (e, c) := sdeOf n
  leBytes 4 (n + status * 256 + desc % 65536 * 65536) ++ leBytes 4 (s.regN (Reg.SDE_CTX_GEN e c)) ++ leBytes 4 user ++
    leBytes 4 done ++ leBytes 4 flags ++ zeros 4 ++ leBytes 8 time

/-- A record that waited, with the device time at which it is written (Table 9.11). -/
def stampRecord (s : State) (bs : List Byte) : List Byte := bs.take 24 ++ leBytes 8 s.time64.toNat

/-- Does a record raise the stream's source: FINAL or DEADLINE_MISSED (Table 16.5)? -/
def recordRaises (bs : List Byte) : Bool := bitOf (leAt bs 16 4) 3 || leAt bs 1 1 == 0x40

/-- Write a record at the ring's head and advance it; a translation fault of the ring is given back. DESIGN CHOICE, log entry 20. -/
def crWrite (s : State) (n : Nat) (bs : List Byte) : Option Nat × State :=
  let (e, c) := sdeOf n
  let h := s.fld (Fd.SDE_CTX_CR_HEAD_INDEX e c)
  let a := spaceWrite s 34 (s.fld (Fd.SDE_CTX_CR_CFG_SPACE e c)) (s.fld (Fd.SDE_CTX_CR_BASE_ADDR e c) + 32 * h) bs
  let s1 := a.state.setFld (Fd.SDE_CTX_CR_HEAD_INDEX e c) ((h + 1) % 2 ^ s.fld (Fd.SDE_CTX_CR_CFG_LOG2N e c))
  (a.fault, if recordRaises bs then raiseShared s1 n else s1)

/-- USER of a descriptor (Table 9.9). -/
def StreamRun.user (r : StreamRun) : Nat := leAt r.desc 0x34 4

/-- The FINAL record of a stream: index, USER and bytes of the descriptor in progress. -/
def finalBytes (s : State) (x : Stream) (status flags : Nat) : List Byte :=
  let (e, c) := sdeOf x.num
  let r := x.runs.find? (fun r => x.cur == some r.id)
  recordBytes s x.num status (s.fld (Fd.SDE_CTX_PC_INDEX e c)) ((r.map StreamRun.user).getD 0) ((r.map (fun r => r.done)).getD 0)
    flags s.time64.toNat

/-- The completion ring of a stream as its registers give it. -/
def crRing (s : State) (n : Nat) : CrRing :=
  let (e, c) := sdeOf n
  ⟨s.fld (Fd.SDE_CTX_CR_CFG_SPACE e c), s.fld (Fd.SDE_CTX_CR_BASE_ADDR e c), s.fld (Fd.SDE_CTX_CR_CFG_LOG2N e c),
    s.fld (Fd.SDE_CTX_CR_HEAD_INDEX e c), s.fld (Fd.SDE_CTX_CR_TAIL_INDEX e c)⟩

/-- Write records of stream n into a ring while it has places: the ring afterwards, and the records that found none. -/
def ringPut (s : State) (n : Nat) (r : CrRing) : List (List Byte) → State × CrRing × List (List Byte)
  | [] => (s, r, [])
  | b :: bs =>
    let next := (r.head + 1) % 2 ^ r.log2n
    if next = r.tail || spaceQuiet s r.space then (s, r, b :: bs)
    else
      let a := spaceWrite s 34 r.space (r.addr + 32 * r.head) (stampRecord s b)
      ringPut (if recordRaises b then raiseShared a.state n else a.state) n { r with head := next } bs

/-- Write the records of a stream whose job ends; those without a place wait for one (R243). A ring in the job's own virtual space goes with
the job. DESIGN CHOICE, log entry 20. -/
def ringLeave (s : State) (n : Nat) (r : CrRing) (bs : List (List Byte)) : State :=
  let (t, q, left) := ringPut s n r bs
  if left.isEmpty || r.space == 0 then t else { t with crHeld := t.crHeld ++ [⟨n, q, left⟩] }

/-- The records that a stream whose job is lost has still to write, its FINAL record JOB_LOST among them; `u` shows its registers. -/
def lostRecords (u : State) (x : Stream) : List (List Byte) :=
  x.records ++ (if x.final then [] else [finalBytes u x St.jobLost 8])

/-- The consumer of stream n's ring moved TAIL: records that waited after their job's end are written (R243). -/
def pushHeld (s : State) (n tail : Nat) : State :=
  match s.crHeld.find? (fun h => h.stream == n) with
  | none => s
  | some h => ringLeave { s with crHeld := s.crHeld.erase h } n { h.ring with tail := tail } h.records

end Sys2Proof.Machine
end

