-- ==== Sys2Proof/Machine/Lost.lean ====
section
/-! DEFINITION. How a job ends (R271, R487): its objects freed, its regions and its frames given up, its units unmapped,
on-chip SRAM zeroed (R443); and the compute reset (R271, Table 10.8). -/

namespace Sys2Proof.Machine

/-- Objects owned by a handle. -/
def objectsOf (s : State) (h : Nat) : List Nat :=
  (s.regs.filter (fun p => decide (0xC0000 ≤ p.1) && decide (p.1 < 0x100000) && (p.1 - 0xC0000) % 16 == 0 &&
    fieldGet p.2 29 20 == h && fieldGet p.2 31 30 != 0)).map (fun p => (p.1 - 0xC0000) / 16)

/-- Free every object of a job and retire its counts (R273). -/
def freeJobObjects (s : State) (h : Nat) : State := (objectsOf s h).foldl freeObj s

/-- Clear the firewall regions a job holds (R309). -/
def clearRegions (s : State) (rs : List Nat) : State :=
  { s with regs := rs.foldl (fun m i => Tbl.clearRange m (0xB00000 + 32 * i) (0xB00020 + 32 * i)) s.regs }

/-- Frames become pending zeroing: reads return zeros from now on (R445). -/
def zeroFrames (s : State) (fs : List (Nat × Nat)) : State :=
  let z := s.zeroing ++ fs.filter (fun p => decide (p.1 < p.2))
  { s with zeroing := z }.setFld Fd.BOOT_ZERO_PENDING (pendingCount z)

/-- The on-chip memories that the zero engine clears (R443). DEDUCED, log entry 104. -/
def clearSram (s : State) : State :=
  let m1 := Tbl.clearRange s.mem (lspBase 0) (lspBase 96)
  let m2 := Tbl.clearRange m1 sspBase (sspBase + 0x3000000)
  let m3 := Tbl.clearRange m2 (veBase 0) (veBase 24)
  let m4 := Tbl.clearRange m3 (dscBase 0) (dscBase 12)
  { s with mem := m4, oab := [], oabPoison := [], banks := [], poison := s.poison.filter (fun a => !(sramCleared a))
           upsets := s.upsets.filter (fun u => if u.1 < 2 ^ 40 then !(sramCleared u.1) else decide (2 ^ 41 ≤ u.1)) }

/-- The SRAM clear begins: until it completes reads return 0 and writes are discarded (R443, SRAM_ZERO_COMPLETE). DEDUCED, log entry 104. -/
def startZero (s : State) : State :=
  ((clearSram s).setFld Fd.BOOT_ZERO_SRAM_BUSY 1).setFld Fd.COMPUTE_ZEROING 1

/-- Array PA n is no longer mapped: it stops, and the state of a logical array reads 0 (R112). Its counters and its
fault record stay. -/
def unmapArray (s : State) (n : Nat) : State :=
  let b := 0x400000 + 0x4000 * n
  let r1 := Tbl.clearRange s.regs (b + 0x100) (b + 0x140)
  let r2 := Tbl.clearRange r1 (b + 0x1000) (b + 0x2000)
  let r3 := Tbl.clearRange r2 (b + 0x3000) (b + 0x3010)
  let r4 := Tbl.clearRange r3 (b + 0x3120) (b + 0x3160)
  let r5 := Tbl.clearRange r4 (b + 0x3200) (b + 0x320C)
  let s1 : State := { s with regs := r5 }
  let s2 := (((s1.setFld (Fd.MA_ID_MAPPED n) 0).setFld (Fd.MA_ID_LA n) 0).setFld (Fd.MA_STATUS_RUN n) 0).setFld (Fd.MA_STATUS_DONE n) 0
  let s3 := (((s2.setRegN (Reg.MA_PMODE n) 0).setRegN (Reg.MA_SEQ_PC n) 0).setRegN (Reg.MA_SEQ_PPOINT n) 0).setRegN (Reg.MA_QUEUE n) 0
  let s4 := (s3.setRegN (Reg.MA_ACC_STATUS n) 0).setRegN (Reg.MA_SPILL_CNT n) 0
  { s4.setSlotOf n none with
    arr := Tbl.set arrReset s4.arr n (Tbl.get arrReset s4.arr n).emptied
    waiters := s4.waiters.filter (fun w => w.agent != seqAgent n) }

/-- Vector engine n is no longer mapped. -/
def unmapEngine (s : State) (n : Nat) : State :=
  let b := 0x600000 + 0x4000 * n
  let r1 := Tbl.clearRange s.regs (b + 0x100) (b + 0x180)
  let r2 := Tbl.clearRange r1 (b + 0x2000) (b + 0x4000)
  let s1 : State := { s with regs := r2 }
  let s2 := ((s1.setFld (Fd.VE_ID_MAPPED n) 0).setFld (Fd.VE_ID_LV n) 0).setRegN (Reg.VE_STATUS n) (s1.fld (Fd.VE_STATUS_FAULT n) * 128)
  let s3 := (((s2.setRegN (Reg.VE_PC n) 0).setRegN (Reg.VE_VLEN n) 0).setRegN (Reg.VE_XFER n) 0).setRegN (Reg.VE_SEQ_PPOINT n) 0
  { s3.setSlotOf (96 + n) none with
    veXfers := s3.veXfers.filter (fun x => x.engine != n)
    waiters := s3.waiters.filter (fun w => w.agent != veAgent n) }

/-- The engines of the compute other than arrays and vector engines stop: attention engines, gather units, streams and
the DSP cores of DSC0 to DSC11. No unit keeps a latched slot. -/
def stopEngines (s : State) : State :=
  let s1 := (List.range 8).foldl (fun t n => (t.setRegN (Reg.AE_STATUS n) (t.fld (Fd.AE_STATUS_FAULT n) * 16)).setRegN (Reg.AE_CUR n) 0) s
  let s2 := (List.range 4).foldl (fun t n => (t.setFld (Fd.EGU_STATUS_RUN n) 0).setFld (Fd.EGU_STATUS_WAIT_SYNC n) 0) s1
  let s3 := (List.range 12).foldl (fun t n => t.setFld (Fd.DSC_STATUS_RUN n) 0) s2
  let s4 : State := { s3 with
    regs := (List.range 32).foldl (fun m n => Tbl.clearRange m (0x200100 + 0x1000 * n) (0x200200 + 0x1000 * n)) s3.regs
    aeStage := [], aeDesc := [], editHeld := [], eguStage := [], streamOk := [], streams := [], unitSlot := [], slotFresh := []
    kvFree := [], kvPages := [], kvRetiring := [], kvActive := [], aeEpoch := []
    waiters := s3.waiters.filter (fun w => match w.agent with | .host _ _ _ => true | _ => false) }
  let s5 := (((s4.setRegN Reg.AE0_KV_POOL_TOTAL 0).setRegN Reg.AE0_KV_FREE 0).setRegN Reg.AE0_KV_MAPPED 0).setRegN Reg.AE0_KV_RETIRING 0
  let s6 := (s5.setRegN Reg.AE0_KV_REMOTE 0).setRegN Reg.AE0_KV_ACTIVE 0
  (List.range 32).foldl (fun t n => (t.setFld (Fd.SDE_TAGS_FREE n) 256).setFld (Fd.SDE_TAGS_IN_FLIGHT n) 0) s6

/-- The streams that run end with FINAL records JOB_LOST (Table 9.12, R487). -/
def endStreams (s : State) : State := s.streams.foldl (fun t x => ringLeave t x.num (crRing s x.num) (lostRecords s x)) s

/-- The streams of a saved job end the same way, with the registers and through the page tables that were saved. -/
def endSaved (s : State) (j : Job) : State :=
  match j.saved with
  | some v =>
    let u := v.regs.foldl (fun (t : State) p => t.setReg p.1 p.2) { s with regs := [] }
    let s1 := ({ s with tb := v.tb } : State).setReg Reg.DMMU_TTB (u.reg Reg.DMMU_TTB)
    let t := v.streams.foldl (fun t x => ringLeave t x.num (crRing u x.num) (lostRecords u x)) s1
    ({ t with tb := s.tb } : State).setReg Reg.DMMU_TTB (s.reg Reg.DMMU_TTB)
  | none => s

/-- The DMMU serves no job: its table base, buffer and pinned translations are gone, no frame is retiring. -/
def releaseDmmu (s : State) : State :=
  let s1 : State := { s with tb := [], veXfers := [] }
  let s2 := ((s1.setRegN Reg.DMMU_TTB 0).setRegN Reg.DMMU_PINNED_N 0).setFld Fd.DMMU_STATUS_PINNED 0
  (s2.setRegN Reg.DMMU_EPOCH_MIN 0xFFFFFFFF).setRegN Reg.DMMU_RETIRING 0

/-- The slots in flight of a job that gives up its units leave the learned path: no unit works on them (R265). -/
def leaveLearned (s : State) (j : Job) : State :=
  j.carriers.foldl (fun t c => (t.car c).slots.foldl (fun u x => endLearned u c x) t) s

/-- Record a fence or an unfence (R338): kind and instance coded as in FENCE_UNIT; cause 0 command, 1 decision. -/
def logFence (s : State) (kind inst cause : Nat) (on : Bool) : State :=
  s.log 0x08 9 0x130000 (kind + 256 * inst) (b2n on + 256 * cause)

/-- Fence a vector engine (R338): a fresh year counts from now (R331). -/
def fenceVe (s : State) (n cause : Nat) : State :=
  if s.regBit Reg.KAT_FENCED_VE n then s else
  let s1 := capChanged (s.setRegBit Reg.KAT_FENCED_VE n true)
  let s2 := { s1 with fenceYear := Tbl.set (fun _ => 0) s1.fenceYear (256 * n + 2) 0 }.setFld (Fd.KAT_VE_YEAR_OK n) 0
  logFence s2 2 n cause true

/-- Engines found faulty are fenced when their job ends (R336). DESIGN CHOICE, log entry 73. -/
def fenceFaulty (s : State) (j : Job) : State :=
  (s.veFaulty.filter (fun n => j.lv.any (fun p => p.2 == n))).foldl
    (fun t n => fenceVe { t with veFaulty := t.veFaulty.filter (fun m => m != n) } n 1) s

/-- The compute gives up a job's units and is free. -/
def releaseUnits (s : State) (j : Job) : State :=
  let s1 := j.la.foldl (fun t p => unmapArray t p.2) (leaveLearned s j)
  let s2 := j.lv.foldl (fun t p => unmapEngine t p.2) s1
  let s3 := fenceFaulty (releaseDmmu (stopEngines s2)) j
  let s4 := s3.setFld Fd.COMPUTE_OWNER 0
  let s5 : State := { s4.setRegN Reg.CAL_STATUS 0 with shadowLeft := 0, candidate := [], calRecs := [], calRadio := [], calSlots := 0 }
  { s5 with standIns := [], reductions := [], redIn := [] }

/-- The compute gives up the units of a job that ends (R271, R487): its streams end with FINAL records JOB_LOST. -/
def releaseCompute (s : State) (j : Job) : State := releaseUnits (endStreams s) j

/-- A carrier of a lost job is unbound (Table 18.5); its slots in flight keep their reply queue. -/
def unbindCarrier (s : State) (c : Nat) : State :=
  let k := s.car c
  let s1 := s.setCar c { k with job := 0, objs := [] }
  (((s1.setRegN (Reg.SLOT_RING c) 0).setRegN (Reg.SLOT_TAIL c) 0).setRegN (Reg.SLOT_HEAD c) 0).setRegN (Reg.SLOT_DONE c) 0

/-- The commands in flight that name a job or what belongs to it end with JOB_LOST (R271, R487). -/
def loseCommands (s : State) (j : Job) (except : Option Cmd) : State :=
  let own := s.fld Fd.COMPUTE_OWNER == j.handle
  let names (c : Cmd) : Bool :=
    c.phase != .replied && !(except == some c) &&
    (c.pkt.job.toNat == j.handle ||
     (own && c.pkt.job == 0 && [0x20, 0x21, 0x28, 0x29, 0x2A, 0x30, 0x31, 0x32].contains c.opcode) ||
     ([0x40, 0x41, 0x42, 0x43].contains c.opcode && objType s (c.pkt.p0.toNat % 16384) != 0 &&
       objOwner s (c.pkt.p0.toNat % 16384) == j.handle))
  (s.cmds.filter names).foldl (fun t c => finishCmd t c St.jobLost 0 0 0) s

/-- What ends with a job whatever ends it: its windows, objects, regions, frames, carriers, its source
of doubt (R336), and its place in the table. -/
def dropJob (s : State) (j : Job) : State :=
  let s1 := freeJobObjects (closeJobWindows s j.handle) j.handle
  let s2 := clearRegions s1 j.regions
  let s3 := zeroFrames s2 j.image.frames
  let s4 := j.carriers.foldl (fun t c => if (t.car c).job = j.handle then unbindCarrier t c else t) s3
  let s5 := s4.setRegN (Reg.JOB j.entry) 0
  { s5 with jobs := s5.jobs.filter (fun k => k.handle != j.handle), lostHandles := j.handle :: s5.lostHandles
            checkJobs := s5.checkJobs.filter (fun h => h != j.handle) }

/-- The event record of a lost job (R271): KIND 3 in queue 0 of the owning port, its cause in DETAIL. -/
def lostEvent (s : State) (j : Job) (detail : Nat) : State :=
  postReply s { port := Fin.ofNat 2 (s.jobPort j), queue := 0, opcode := 0, status := St.jobLost, tag := 0, index := 0, kind := 3,
                detail := detail, w1 := BitVec.ofNat 64 j.handle, w2 := 0, w3 := 0, irq := true }

/-- The beat origin restarts (R17): beats count from 0, and the device time of the origin is recorded. -/
def restartBeats (s : State) : State :=
  { (((s.setRegN Reg.DET_BEAT 0).setReg Reg.DET_ORIGIN_TIME s.time64).setFld Fd.DET_STATUS_ORIGIN_V 1).setFld
      Fd.DET_STATUS_REF_V 0 with originEdge := s.elapsed }

/-- Every open decision is abandoned and LOG records it (R337). -/
def abandonDecisions (s : State) : State :=
  let s1 := s.decisions.foldl (fun t d =>
    let t1 := if d.ve then t.setFld (Fd.KAT_VE_DECISION d.unit) 0
      else showDoubt ((t.setFld (Fd.KAT_ARRAY_DECISION d.unit) 0).setFld (Fd.KAT_ARRAY_FAILED d.unit) 0) d.unit
    raiseShared (t1.log 0x07 9 0x130000 d.unit (4 + 0xFF * 256)) 283) s
  { s1 with decisions := [] }

/-- Steps 1 to 4 of R271 for every job in the device; `detail` is its event's cause. -/
def loseAllJobs (s : State) (detail : Nat) : State :=
  s.jobs.foldl (fun t j =>
    let t1 := markJobCarriers t j 10
    let t2 := loseCommands t1 j none
    let t3 := lostEvent t2 j detail
    let t4 := if t3.fld Fd.COMPUTE_OWNER = j.handle then releaseCompute t3 j else endSaved t3 j
    dropJob t4 j) s

/-- A compute reset (R271) with a cause of Table 10.8: every job is lost, the adaptation group is left (Table 8.7), SRAM is zeroed, the
beat origin restarts. COMPUTE.RESETTING is 1 until the compute is free (R279). -/
def computeReset (s : State) (detail : Nat) : State :=
  let h := s.fld Fd.COMPUTE_OWNER
  let s1 := raiseShared s 287
  let s2 := (s1.bump Reg.COMPUTE_RESETS).setRegN Reg.LAST_CAUSE detail
  let s3 := s2.log 0x0C 0 0x20000 h detail
  let s4 := loseAllJobs s3 detail
  let s5 := leaveAdaptation (abandonDecisions s4)
  restartBeats ((startZero s5).setFld Fd.COMPUTE_RESETTING 1)

end Sys2Proof.Machine
end

