-- ==== Sys2Proof/Machine/Kv.lean ====
section
/-! DEFINITION. The key-value pool and the sequence table (R141 to R146, R159 to R166): frames, blocks, descriptors, what the
edit engine and the attention engines do to them. -/

namespace Sys2Proof.Machine

/-- Show the pool's counts (R160). -/
def showPool (s : State) : State :=
  let free := s.kvFree.length
  let mapped := s.kvPages.length
  let ret := ((s.kvRetiring.map (fun r => r.frames.length)).sum)
  let remote := (s.kvFree.filter (fun f => f.remote)).length + (s.kvPages.filter (fun p => p.frame.remote)).length +
    ((s.kvRetiring.map (fun r => (r.frames.filter (fun f => f.remote)).length)).sum)
  let s1 := ((s.setRegN Reg.AE0_KV_FREE free).setRegN Reg.AE0_KV_MAPPED mapped).setRegN Reg.AE0_KV_RETIRING ret
  (s1.setRegN Reg.AE0_KV_POOL_TOTAL (free + mapped + ret)).setRegN Reg.AE0_KV_REMOTE remote

/-- Virtual address of the range of sequence q. -/
def seqVa (s : State) (q : Nat) : Nat := s.regN Reg.AE0_KV_BASE + q * 2 ^ 26

/-- Page slots of a head, PPH, for H heads. -/
def pph (heads : Nat) : Nat := 16384 / heads

/-- Virtual address of a block of a head (R141). -/
def blockVa (s : State) (heads q h b : Nat) : Nat := seqVa s q + (h * pph heads + b % pph heads) * 4096

/-- A leaf entry for a frame, with reads and writes allowed (Table 9.7). -/
def frameEntry (f : Frame) : Nat :=
  1 + 4 + 8 + (if f.remote then 32 else 0) + f.page % 2 ^ 28 * 4096 + (if f.remote then f.window % 4096 * 2 ^ 40 else 0)

/-- Write the entry of a page of the KV range; the flag: a table holds it. -/
def kvSetEntry (s : State) (origin va entry : Nat) : Bool × State :=
  match leafSlot s va 0 with
  | some a => (true, tbEdit (portWrite s origin a (leBytes 8 entry)) va 4096 (BitVec.ofNat 64 entry))
  | none => (false, s)

/-- The frame of a block, if it is mapped. -/
def kvLookup (s : State) (q h b : Nat) : Option KvPage := s.kvPages.find? (fun p => p.seq == q && p.head == h && p.block == b)

/-- The mapped blocks of a head, ascending. -/
def kvBlocks (s : State) (q h : Nat) : List Nat :=
  ((s.kvPages.filter (fun p => p.seq == q && p.head == h)).map (fun p => p.block)).mergeSort

/-- A free frame of a class, and the pool without it. -/
def takeFrame (s : State) (remote : Bool) : Option (Frame × State) :=
  match s.kvFree.find? (fun f => f.remote == remote) with
  | some f => some (f, { s with kvFree := s.kvFree.erase f })
  | none => none

/-- Unmap pages: their entries cleared, the frames taken off; the pages given back. -/
def kvUnmap (s : State) (origin heads : Nat) (ps : List KvPage) : State :=
  ps.foldl (fun t p =>
    let (_, u) := kvSetEntry t origin (blockVa t heads p.seq p.head p.block) 0
    { u with kvPages := u.kvPages.erase p }) s

/-- Unmap pages and let their frames retire (R164, R165); the epoch they wait for. -/
def kvRetirePages (s : State) (origin heads : Nat) (ps : List KvPage) (remove : Bool) : Nat × State :=
  let s1 := kvUnmap s origin heads ps
  let (e, s2) := takeEpoch s1
  (e, showPool { s2 with kvRetiring := s2.kvRetiring ++ [⟨e, ps.map (fun p => p.frame), remove⟩] })

/-! ### Sequence descriptors (Table 6.1) -/

/-- What a sequence descriptor says of one head, and of the sequence. -/
structure SeqHead where
  valid : Bool
  heads : Nat
  dim : Nat
  kfp4 : Bool
  vfp4 : Bool
  hr : Nat
  remote : Bool
  budget : Nat
  decay : Nat
  first : Nat
  next : Nat
  anchor : Nat
  cand : Nat
  live : Nat
  deriving DecidableEq, Repr

/-- Virtual address of a sequence's descriptor (R142). -/
def seqDescVa (s : State) (q : Nat) : Nat := s.regN Reg.AE0_KV_SEQ_BASE + q * 256

/-- Read a head of a descriptor from its bytes. -/
def seqHead (bs : List Byte) (h : Nat) : SeqHead :=
  let cfg := leAt bs 0 4
  { valid := bitOf cfg 0, heads := 2 ^ (cfg / 2 % 4), dim := (cfg / 8 % 8 + 1) * 16, kfp4 := bitOf cfg 6, vfp4 := bitOf cfg 7,
    hr := cfg / 256 % 8, remote := bitOf cfg (16 + h), budget := leAt bs 4 4, decay := leAt bs 8 4,
    first := leAt bs (0x10 + 16 * h) 4, next := leAt bs (0x14 + 16 * h) 4, anchor := leAt bs (0x18 + 16 * h) 4,
    cand := leAt bs (0x1C + 16 * h) 4, live := leAt bs (0x90 + 4 * h) 4 }

/-- Write what a head's step or edit changes: FIRST, NEXT, ANCHOR, CAND, LIVE. -/
def putSeqHead (s : State) (origin q h : Nat) (x : SeqHead) : Access :=
  let va := seqDescVa s q
  let a := virtWrite s origin (va + 0x10 + 16 * h) (leBytes 4 x.first ++ leBytes 4 x.next ++ leBytes 4 x.anchor ++ leBytes 4 x.cand)
  if a.fault.isSome then a else virtWrite a.state origin (va + 0x90 + 4 * h) (leBytes 4 x.live)

/-- FIRST after its block was unmapped: the next mapped block, or NEXT (R159). -/
def nextFirst (s : State) (q h : Nat) (x : SeqHead) : Nat :=
  match (kvBlocks s q h).find? (fun b => decide (x.first ≤ b)) with
  | some b => b
  | none => x.next

/-- Retiring frames whose epoch has passed are free, or leave the pool (R165). -/
def kvFreeRetired (s : State) (m : Nat) : State :=
  let done := s.kvRetiring.filter (fun r => decide (r.epoch < m))
  if done.isEmpty then s
  else showPool { s with
    kvRetiring := s.kvRetiring.filter (fun r => !(decide (r.epoch < m)))
    kvFree := s.kvFree ++ (done.filter (fun r => !r.remove)).flatMap (fun r => r.frames) }

/-- FRAME_RETIRE: frames that no unit can still reach are free, and the edits that unmapped them are answered with the
number of frames (R165, R236, Table 10.3). -/
def retireFrames (s : State) : State :=
  let m := epochMin s
  let s1 := kvFreeRetired (showEpochs s) m
  let ready := s1.cmds.filter (fun c => (c.opcode == 0x29 || c.opcode == 0x2A) && c.phase == .executing && c.aux != 0 &&
    decide (c.aux / 2 ^ 32 < m))
  ready.foldl (fun t c =>
    let u := if c.opcode = 0x29 then t.countDown Reg.DMMU_RETIRING (c.aux % 2 ^ 32) else t
    finishCmd u c St.ok 0 (BitVec.ofNat 64 (c.aux % 2 ^ 32)) 0) s1

/-- FRAME_RETIRE (R236). -/
def execFrameRetire (s : State) : Host.Outcome State Fault Refusal := up s retireFrames

end Sys2Proof.Machine
end

