-- ==== Sys2Proof/Machine/Edits.lean ====
section
/-! DEFINITION. The edit engine: MAP_PAGES and UNMAP_PAGES (R235, R236), SEQ_PAGE_EDIT (R164, Table 6.6), edits held for a
query step (R167). -/

namespace Sys2Proof.Machine

/-- Origin of the edit engine (Table 12.5). -/
@[reducible] def editOrigin : Nat := 10

/-- The job whose space an edit changes: the one that owns the compute, named or not (R235); else the refusal. -/
def editJob (s : State) (c : Cmd) : Except (Nat × Nat) Job :=
  match cmdJob s c with
  | none => .error (St.badParam, 8)
  | some j =>
    if s.jobPort j ≠ c.pkt.port.val then .error (St.notOwner, 0)
    else if s.fld Fd.COMPUTE_OWNER ≠ j.handle then .error (St.badParam, 8)
    else .ok j

/-- Bytes of a page of a size: 4 KiB, 64 KiB, 2 MiB. -/
def pageBytes (size : Nat) : Nat := if size = 0 then 4096 else if size = 1 then 65536 else 2097152

/-- Size and number of pages in P2 (Table 10.3). -/
def editSize (p : Pkt) : Nat := p.p2.toNat % 4
/-- Pages. -/
def editPages (p : Pkt) : Nat := bitsOf p.p2.toNat 25 16

/-- Is a virtual address a range of pages of the 48-bit space? -/
def vaRangeOk (va size pages : Nat) : Bool := va % pageBytes size == 0 && decide (va + pages * pageBytes size ≤ 2 ^ 48)

/-- Does a range meet the key-value range of the job? A job whose image gives no sequence table has none. -/
def inKvRange (s : State) (va len : Nat) : Bool :=
  s.regN Reg.AE0_KV_SEQ_BASE != 0 &&
    decide (va < s.regN Reg.AE0_KV_BASE + 2 ^ 40) && decide (s.regN Reg.AE0_KV_BASE < va + len)

/-- Does every 4 KiB of a frame range lie in Table 9.1, in powered banks (R222)? The regions and banks are multiples of
64 KiB, so one look in each 64 KiB suffices. -/
def framesExist (s : State) (a len : Nat) : Bool :=
  decide (a + len ≤ 2 ^ 40) &&
    (List.range ((a % 65536 + len + 65535) / 65536)).all (fun k => bankOn s (a / 65536 * 65536 + 65536 * k))

/-- The entries of one page: their addresses and values; none where a table above is missing. -/
def pageSlots (s : State) (va size : Nat) : Option (List Nat) :=
  (leafSlot s va size).map (fun a => if size = 1 then (List.range 16).map (fun k => a + 8 * k) else [a])

/-- Are all pages of a range unmapped, with tables to hold them? -/
def pagesFree (s : State) (va size pages : Nat) : Bool :=
  (List.range pages).all (fun k =>
    match pageSlots s (va + k * pageBytes size) size with
    | none => false
    | some l => l.all (fun a => !(bitOf (s.leMem a 8) 0)))

/-- The entry that MAP_PAGES writes for page k (Table 9.7). A window number other than 0 makes the frame remote. -/
def mapEntry (p : Pkt) (k : Nat) : Nat :=
  let size := editSize p
  let w := bitsOf p.p1.toNat 51 40
  let f := bitsOf p.p1.toNat 39 12 * 4096 + k * pageBytes size
  1 + bitsOf p.p2.toNat 3 2 * 4 + (if size = 1 then 16 else 0) + (if w ≠ 0 then 32 else 0) + f % 2 ^ 40 + w * 2 ^ 40

/-- Write the entries of a page and bring the buffer up to date. -/
def setPage (s : State) (va size entry : Nat) : State :=
  match pageSlots s va size with
  | none => s
  | some l =>
    let s1 := l.foldl (fun t a => portWrite t editOrigin a (leBytes 8 entry)) s
    tbEdit s1 va (pageBytes size) (BitVec.ofNat 64 entry)

/-- A parameter that MAP_PAGES refuses. -/
def mapRefusal (s : State) (p : Pkt) : Option Nat :=
  let va := p.p0.toNat
  let size := editSize p
  let n := editPages p
  let len := n * pageBytes size
  let f := bitsOf p.p1.toNat 39 12 * 4096
  if !(vaRangeOk va size n) || inKvRange s va len then some 1
  else if extraBits p.p1 0x000FFFFFFFFFF000 || f % pageBytes size != 0 ||
    (bitsOf p.p1.toNat 51 40 == 0 && !(framesExist s f len)) then some 2
  else if extraBits p.p2 0x3FF000F || size = 3 || n = 0 || 512 < n then some 3
  else match unusedFrom p 3 with
    | some d => some d
    | none => if pagesFree s va size n then none else some 1

/-- MAP_PAGES (R235): frames that await zeroing are cleared first (R445). -/
def mapPagesBody (c : Cmd) (s : State) : State :=
  match editJob s c with
  | .error (st, d) => refuse s c st d
  | .ok _ =>
    match mapRefusal s c.pkt with
    | some d => refuse s c St.badParam d
    | none =>
      let size := editSize c.pkt
      let f := bitsOf c.pkt.p1.toNat 39 12 * 4096
      let s1 := if bitsOf c.pkt.p1.toNat 51 40 = 0 then
          clearPending s (f / 65536) ((f + editPages c.pkt * pageBytes size + 65535) / 65536)
        else s
      okCmd ((List.range (editPages c.pkt)).foldl (fun t k =>
        setPage t (c.pkt.p0.toNat + k * pageBytes size) size (mapEntry c.pkt k)) s1) c

/-- MAP_PAGES (R235). -/
def execMapPages (p : Pkt) (s : State) : Host.Outcome State Fault Refusal := up s (hostCmd 0x28 p mapPagesBody)

/-! ### Edits of sequences -/

/-- Set a head's CAND, FIRST and LIVE right after blocks of it were unmapped (Table 6.1). -/
def fixHead (s : State) (q h : Nat) : State :=
  let a := virtRead s editOrigin (seqDescVa s q) 256
  let x := seqHead a.bytes h
  let bs := kvBlocks a.state q h
  let x1 := { x with live := bs.length, cand := if bs.contains x.cand then x.cand else 0xFFFFFFFF }
  let x2 := { x1 with first := if bs.contains x.first then x.first else nextFirst a.state q h x }
  (putSeqHead a.state editOrigin q h x2).state

/-- Number of heads of a sequence, by its descriptor. -/
def headsOf (s : State) (q : Nat) : Nat := (seqHead (virtRead s editOrigin (seqDescVa s q) 256).bytes 0).heads

/-- The heads that pages belong to. -/
def headsIn (ps : List KvPage) : List (Nat × Nat) := (ps.map (fun p => (p.seq, p.head))).eraseDups

/-- An edit that unmapped pages waits for their frames, or is answered at once where there are none (R165). -/
def waitFrames (s : State) (c : Cmd) (epoch n : Nat) : State :=
  if n = 0 then finishCmd s c St.ok 0 0 0 else setCmdAux s c (unmapAux epoch n)

/-- Unmap pages of sequences, retire their frames and update the descriptors of their heads. -/
def editUnmap (s : State) (ps : List KvPage) (remove : Bool) : Nat × State :=
  let s1 := ps.foldl (fun t p => kvUnmap t editOrigin (headsOf t p.seq) [p]) s
  let (e, s2) := takeEpoch s1
  let s3 := showPool { s2 with kvRetiring := s2.kvRetiring ++ (if ps.isEmpty then [] else [⟨e, ps.map (fun p => p.frame), remove⟩]) }
  (e, (headsIn ps).foldl (fun t qh => fixHead t qh.1 qh.2) s3)

/-- The sequence an edit names. -/
def editSeq (p : Pkt) : Nat := bitsOf p.p0.toNat 16 3
/-- Its head. -/
def editHead (p : Pkt) : Nat := bitsOf p.p0.toNat 19 17

/-- RESET (Table 6.6): every block unmapped, the descriptor cleared. -/
def seqReset (c : Cmd) (s : State) : State :=
  let q := editSeq c.pkt
  let ps := s.kvPages.filter (fun p => p.seq == q)
  let (e, s1) := editUnmap s ps false
  waitFrames (virtWrite s1 editOrigin (seqDescVa s1 q) (zeros 256)).state c e ps.length

/-- The descriptor CONFIG writes: its initial per-head state (Table 6.1). -/
def configBytes (cfg budget decay : Nat) : List Byte :=
  leBytes 4 cfg ++ leBytes 4 budget ++ leBytes 4 decay ++ zeros 4 ++
    (List.range 8).flatMap (fun _ => zeros 12 ++ leBytes 4 0xFFFFFFFF) ++ zeros 112

/-- Values CONFIG refuses: reserved CFG bits, a headroom beyond 4, a budget outside 1 to PPH, a mapped block. -/
def configRefusal (s : State) (p : Pkt) : Option Nat :=
  let cfg := p.p1.toNat % 2 ^ 32
  let budget := p.p1.toNat / 2 ^ 32
  if s.kvPages.any (fun k => k.seq == editSeq p) then some 1
  else if extraBits p.p1 0xFFFFFFFF00FF07FF || 4 < cfg / 256 % 8 || budget = 0 || pph (2 ^ (cfg / 2 % 4)) < budget then some 2
  else if 2 ^ 32 ≤ p.p2.toNat then some 3
  else none

/-- CONFIG (Table 6.6). -/
def seqConfig (c : Cmd) (s : State) : State :=
  match configRefusal s c.pkt with
  | some d => refuse s c St.badParam d
  | none =>
    let q := editSeq c.pkt
    okCmd (virtWrite s editOrigin (seqDescVa s q)
      (configBytes (c.pkt.p1.toNat % 2 ^ 32) (c.pkt.p1.toNat / 2 ^ 32) c.pkt.p2.toNat)).state c

/-- A valid sequence with the named head? -/
def seqHeadOk (s : State) (p : Pkt) : Bool :=
  let x := seqHead (virtRead s editOrigin (seqDescVa s (editSeq p)) 256).bytes (editHead p)
  x.valid && decide (editHead p < x.heads)

/-- TRIM (Table 6.6): the blocks below P1 unmapped, FIRST advanced. -/
def seqTrim (c : Cmd) (s : State) : State :=
  if !(seqHeadOk s c.pkt) then refuse s c St.badParam 1
  else if 2 ^ 32 ≤ c.pkt.p1.toNat then refuse s c St.badParam 2
  else
    let q := editSeq c.pkt
    let h := editHead c.pkt
    let ps := s.kvPages.filter (fun p => p.seq == q && p.head == h && decide (p.block < c.pkt.p1.toNat))
    let (e, s1) := editUnmap s ps false
    waitFrames s1 c e ps.length

/-- The bytes of a frame: free ones where it lies in another device. -/
def frameBytes (s : State) (f : Frame) : List Byte × State :=
  if f.remote then windowRead s f.window (f.page * 4096) 4096
  else
    let r := portRead s editOrigin (f.page * 4096) 4096
    (r.bytes, r.state)

/-- MOVE (Table 6.6): copy, remap, retire the old frame. -/
def seqMove (c : Cmd) (s : State) : State :=
  let q := editSeq c.pkt
  let h := editHead c.pkt
  if !(seqHeadOk s c.pkt) then refuse s c St.badParam 1
  else if 2 ≤ c.pkt.p2.toNat then refuse s c St.badParam 3
  else match kvLookup s q h c.pkt.p1.toNat with
    | none => refuse s c St.badParam 2
    | some pg =>
      match takeFrame s (bitOf c.pkt.p2.toNat 0) with
      | none => refuse s c St.badParam 3
      | some (f, s1) =>
        let (bs, s2) := frameBytes s1 pg.frame
        let s3 := if f.remote then windowWrite s2 f.window (f.page * 4096) 3 bs else portWrite s2 editOrigin (f.page * 4096) bs
        let (_, s4) := kvSetEntry s3 editOrigin (blockVa s3 (headsOf s3 q) q h pg.block) (frameEntry f)
        let s5 : State := { s4 with kvPages := s4.kvPages.map (fun p => if p = pg then { p with frame := f } else p) }
        let (e, s6) := takeEpoch s5
        waitFrames (showPool { s6 with kvRetiring := s6.kvRetiring ++ [⟨e, [pg.frame], false⟩] }) c e 1

/-- The frames that P1 and P2 of a pool edit name. -/
def poolFrames (p : Pkt) : List Frame :=
  let remote := bitOf p.p2.toNat 32
  let page := bitsOf p.p1.toNat 39 12
  (List.range (p.p2.toNat % 2 ^ 24)).map (fun k => ⟨remote, if remote then bitsOf p.p1.toNat 51 40 else 0, page + k⟩)

/-- Is a frame in the pool? -/
def inPool (s : State) (f : Frame) : Bool :=
  s.kvFree.contains f || s.kvPages.any (fun p => p.frame == f) || s.kvRetiring.any (fun r => r.frames.contains f)

/-- What a pool edit refuses of its parameters. -/
def poolParamBad (p : Pkt) : Option Nat :=
  let remote := bitOf p.p2.toNat 32
  if extraBits p.p1 (if remote then 0x000FFFFFFFFFF000 else 0x000000FFFFFFF000) then some 2
  else if extraBits p.p2 0x100FFFFFF || p.p2.toNat % 2 ^ 24 = 0 || 2 ^ 28 < bitsOf p.p1.toNat 39 12 + p.p2.toNat % 2 ^ 24 then some 3
  else none

/-- What the frames POOL_ADD names must be: on the device, in powered banks; in a remote window that is open (R162). -/
def poolAddRefusal (s : State) (p : Pkt) : Option (Nat × Nat) :=
  let n := p.p2.toNat % 2 ^ 24
  let page := bitsOf p.p1.toNat 39 12
  if bitOf p.p2.toNat 32 then
    match s.imports.find? (fun i => i.num == bitsOf p.p1.toNat 51 40 && i.isOpen) with
    | none => some (St.windowClosed, 2)
    | some i => if (page + n) * 4096 ≤ i.len then none else some (St.badParam, 3)
  else if framesExist s (page * 4096) (n * 4096) then none
  else some (St.badParam, 2)

/-- POOL_ADD (R162, Table 6.6). -/
def poolAdd (c : Cmd) (s : State) : State :=
  match poolParamBad c.pkt with
  | some d => refuse s c St.badParam d
  | none =>
    match poolAddRefusal s c.pkt with
    | some (st, d) => refuse s c st d
    | none =>
      let fs := poolFrames c.pkt
      if fs.any (inPool s) || 2 ^ 24 ≤ s.fld Fd.AE0_KV_POOL_TOTAL_COUNT + fs.length then refuse s c St.badParam 2
      else finishCmd (showPool { s with kvFree := s.kvFree ++ fs }) c St.ok 0 (BitVec.ofNat 64 fs.length) 0

/-- The retiring frames of a list leave the pool when they are free. -/
def splitRetire (l : List KvRetire) (fs : List Frame) : List KvRetire :=
  l.flatMap (fun r =>
    let (a, b) := r.frames.partition (fun f => fs.contains f)
    (if b.isEmpty then [] else [{ r with frames := b }]) ++ (if a.isEmpty then [] else [⟨r.epoch, a, true⟩]))

/-- POOL_REMOVE (R163, Table 6.6): free frames leave at once, mapped ones are unmapped and leave with their epoch. -/
def poolRemove (c : Cmd) (s : State) : State :=
  match poolParamBad c.pkt with
  | some d => refuse s c St.badParam d
  | none =>
    let fs := poolFrames c.pkt
    let free := s.kvFree.filter (fun f => fs.contains f)
    let ps := s.kvPages.filter (fun p => fs.contains p.frame)
    let ret := (s.kvRetiring.map (fun r => (r.frames.filter (fun f => fs.contains f)).length)).sum
    let s1 : State := { s with kvFree := s.kvFree.filter (fun f => !(fs.contains f)), kvRetiring := splitRetire s.kvRetiring fs }
    let (e, s2) := editUnmap s1 ps true
    if ps.length + ret = 0 then finishCmd s2 c St.ok 0 (BitVec.ofNat 64 free.length) 0
    else setCmdAux s2 c (unmapAux e (free.length + ps.length + ret))

/-- UNMAP_PAGES in a key-value range (R164): the blocks that the named pages hold are unmapped. -/
def kvTrimRange (c : Cmd) (s : State) : State :=
  let va := c.pkt.p0.toNat
  let len := editPages c.pkt * pageBytes (editSize c.pkt)
  let ps := s.kvPages.filter (fun p =>
    let b := blockVa s (headsOf s p.seq) p.seq p.head p.block
    decide (va ≤ b) && decide (b < va + len))
  let (e, s1) := editUnmap s ps false
  waitFrames s1 c e ps.length

/-- UNMAP_PAGES elsewhere (R236): entries cleared, translations removed, epoch taken. -/
def unmapRange (c : Cmd) (s : State) : State :=
  let size := editSize c.pkt
  let vas := (List.range (editPages c.pkt)).map (fun k => c.pkt.p0.toNat + k * pageBytes size)
  let mapped := vas.filter (fun va => match pageSlots s va size with
    | some l => l.any (fun a => bitOf (s.leMem a 8) 0)
    | none => false)
  let s1 := mapped.foldl (fun t va => setPage t va size 0) s
  let (e, s2) := takeEpoch s1
  waitFrames (s2.setRegN Reg.DMMU_RETIRING (s2.regN Reg.DMMU_RETIRING + mapped.length)) c e mapped.length

/-- A parameter that UNMAP_PAGES refuses. -/
def unmapRefusal (p : Pkt) : Option Nat :=
  if p.p1 ≠ 0 then some 2
  else if extraBits p.p2 0x3FF0003 || editSize p = 3 || editPages p = 0 || 512 < editPages p then some 3
  else if !(vaRangeOk p.p0.toNat (editSize p) (editPages p)) then some 1
  else unusedFrom p 3

/-! ### Held edits (R167) -/

/-- The operation of SEQ_PAGE_EDIT; 8 for UNMAP_PAGES. -/
def editOp (c : Cmd) : Nat := if c.opcode = 0x29 then 8 else c.pkt.p0.toNat % 8

/-- The sequences an edit changes. -/
def editSeqs (s : State) (c : Cmd) : List Nat :=
  match editOp c with
  | 4 => []
  | 5 => ((s.kvPages.filter (fun p => (poolFrames c.pkt).contains p.frame)).map (fun p => p.seq)).eraseDups
  | 8 =>
    let va := c.pkt.p0.toNat
    let len := editPages c.pkt * pageBytes (editSize c.pkt)
    if inKvRange s va len then
      ((s.kvPages.filter (fun p =>
        let b := blockVa s (headsOf s p.seq) p.seq p.head p.block
        decide (va ≤ b) && decide (b < va + len))).map (fun p => p.seq)).eraseDups
    else []
  | _ => [editSeq c.pkt]

/-- The engines that run a query step on one of the sequences. -/
def stepsOn (s : State) (qs : List Nat) : List Nat :=
  (List.range 8).filter (fun n => s.flag (Fd.AE_CUR_V n) && qs.contains (s.fld (Fd.AE_CUR_SEQ n)))

/-- The command of a held edit, while it is held. -/
def heldCmd (s : State) (p : Pkt) : Option Cmd := s.cmds.find? (fun c => c.phase == .executing && c.aux == heldMark && samePkt c p)

/-- The held edits, in the order of their arrival. -/
def heldEdits (s : State) : List Cmd := s.editHeld.filterMap (fun h => heldCmd s h.1)

/-- Has an edit to wait: for an engine's step, or for an earlier held edit of the same sequence? DEDUCED, log entry 34. -/
def editBlocked (s : State) (c : Cmd) (before : List Cmd) : Bool :=
  let qs := editSeqs s c
  !((stepsOn s qs).isEmpty) || before.any (fun x => (editSeqs s x).any (fun q => qs.contains q))

/-- The effect of an edit that need not wait. -/
def applyEdit (c : Cmd) (s : State) : State :=
  match editOp c with
  | 0 => seqReset c s
  | 1 => seqConfig c s
  | 2 => seqTrim c s
  | 3 => seqMove c s
  | 4 => poolAdd c s
  | 5 => poolRemove c s
  | _ => if inKvRange s c.pkt.p0.toNat (editPages c.pkt * pageBytes (editSize c.pkt)) then kvTrimRange c s else unmapRange c s

/-- Hold an edit (R167): the engines it waits for count it. DEDUCED, log entry 34. -/
def holdEdit (s : State) (c : Cmd) : State :=
  if 512 ≤ waitingBefore s c (fun x => isEdit x.opcode) then refuse s c St.queueFull 0
  else
    let ns := stepsOn s (editSeqs s c)
    let s1 : State := { setCmdAux s c heldMark with editHeld := s.editHeld ++ [(c.pkt, ns)] }
    ns.foldl (fun t n => (t.bump (Reg.AE_EDITS_HELD n)).setFld (Fd.AE_STATUS_EDIT_HELD n) 1) s1

/-- An edit arrives: it acts, or is held. -/
def editArrives (c : Cmd) (s : State) : State :=
  if editBlocked s c (heldEdits s) then holdEdit s c else applyEdit c s

/-- UNMAP_PAGES (R236). -/
def unmapPagesBody (c : Cmd) (s : State) : State :=
  match editJob s c with
  | .error (st, d) => refuse s c st d
  | .ok _ =>
    match unmapRefusal c.pkt with
    | some d => refuse s c St.badParam d
    | none => editArrives c s

/-- UNMAP_PAGES (R236). -/
def execUnmapPages (p : Pkt) (s : State) : Host.Outcome State Fault Refusal := up s (hostCmd 0x29 p unmapPagesBody)

/-- Bits of P0 an operation uses: RESET and CONFIG a sequence, TRIM and MOVE a head as well, the pool edits neither. -/
def editP0Mask (op : Nat) : Word :=
  if op < 2 then 0x1FFFF else if op < 4 then 0xFFFFF else 7

/-- What SEQ_PAGE_EDIT refuses of its header words (R259, Table 10.5). -/
def seqEditRefusal (p : Pkt) : Option Nat :=
  let op := p.p0.toNat % 8
  if 5 < op || extraBits p.p0 (editP0Mask op) then some 1
  else if op = 0 ∧ p.p1 ≠ 0 then some 2
  else if (op = 0 ∨ op = 2) ∧ p.p2 ≠ 0 then some 3
  else unusedFrom p 3

/-- SEQ_PAGE_EDIT (R164): a job without a sequence table has no sequences to edit. -/
def seqPageEditBody (c : Cmd) (s : State) : State :=
  match editJob s c with
  | .error (st, d) => refuse s c st d
  | .ok _ =>
    match seqEditRefusal c.pkt with
    | some d => refuse s c St.badParam d
    | none => if s.regN Reg.AE0_KV_SEQ_BASE = 0 ∧ editOp c < 4 then refuse s c St.badParam 1 else editArrives c s

/-- A packet of SEQ_PAGE_EDIT with its operation (Table 10.3, P0 bits 2:0). -/
def withOp (p : Pkt) (op : Nat) : Pkt := { p with p0 := fieldPut p.p0 2 0 op }

/-- SEQ_PAGE_EDIT RESET (R164). -/
def execSeqPageEditReset (p : Pkt) (s : State) : Host.Outcome State Fault Refusal := up s (hostCmd 0x2A (withOp p 0) seqPageEditBody)
/-- SEQ_PAGE_EDIT CONFIG (R164). -/
def execSeqPageEditConfig (p : Pkt) (s : State) : Host.Outcome State Fault Refusal := up s (hostCmd 0x2A (withOp p 1) seqPageEditBody)
/-- SEQ_PAGE_EDIT TRIM (R164). -/
def execSeqPageEditTrim (p : Pkt) (s : State) : Host.Outcome State Fault Refusal := up s (hostCmd 0x2A (withOp p 2) seqPageEditBody)
/-- SEQ_PAGE_EDIT MOVE (R164). -/
def execSeqPageEditMove (p : Pkt) (s : State) : Host.Outcome State Fault Refusal := up s (hostCmd 0x2A (withOp p 3) seqPageEditBody)
/-- SEQ_PAGE_EDIT POOL_ADD (R164). -/
def execPoolAdd (p : Pkt) (s : State) : Host.Outcome State Fault Refusal := up s (hostCmd 0x2A (withOp p 4) seqPageEditBody)
/-- SEQ_PAGE_EDIT POOL_REMOVE (R164). -/
def execPoolRemove (p : Pkt) (s : State) : Host.Outcome State Fault Refusal := up s (hostCmd 0x2A (withOp p 5) seqPageEditBody)

/-- The oldest held edit that need wait no longer. -/
def readyEdit (s : State) : Option Cmd :=
  let hs := heldEdits s
  hs.find? (fun c => !(editBlocked s c (hs.takeWhile (fun x => x != c))))

/-- Each engine shows whether an edit that arrived during its step is still held: it is applied before the engine's next step. -/
def showHeldEdits (s : State) : State :=
  (List.range 8).foldl (fun t n => t.setFld (Fd.AE_STATUS_EDIT_HELD n)
    (b2n (s.editHeld.any (fun h => h.2.contains n && (heldCmd s h.1).isSome)))) s

/-- HELD_EDIT_APPLY (R167): the oldest held edit whose sequences have no running step is applied. -/
def heldEditApply (s : State) : State :=
  match readyEdit s with
  | none => s
  | some c =>
    let s1 : State := { setCmdAux s c 0 with editHeld := s.editHeld.filter (fun h => !(samePkt c h.1)) }
    showHeldEdits (applyEdit { c with aux := 0 } s1)

/-- HELD_EDIT_APPLY (R167). DEDUCED, log entry 34. -/
def execHeldEditApply (s : State) : Host.Outcome State Fault Refusal := up s heldEditApply

end Sys2Proof.Machine
end

