-- ==== Sys2Proof/Machine/Operands.lean ====
section
/-! DEFINITION. Operand forms: the element formats and packings of chapter 2, the scale format, exact rational values and
their one rounding to FP32, BF16, FP16, INT4, FP4 and the wider integers, the counter-based generator (R102), the
combining of compact words (R94, R105). -/

namespace Sys2Proof.Machine

/-! ### Exact values -/

/-- An exact rational value: numerator and positive denominator. -/
structure Frac where
  num : Int
  den : Nat
  deriving DecidableEq, Repr

/-- An integer. -/
def Frac.ofInt (n : Int) : Frac := ⟨n, 1⟩
/-- Product. -/
def Frac.mul (a b : Frac) : Frac := ⟨a.num * b.num, a.den * b.den⟩
/-- Sum. -/
def Frac.add (a b : Frac) : Frac := if a.den = b.den then ⟨a.num + b.num, a.den⟩ else ⟨a.num * b.den + b.num * a.den, a.den * b.den⟩
/-- Negation. -/
def Frac.neg (a : Frac) : Frac := ⟨-a.num, a.den⟩
/-- Difference. -/
def Frac.sub (a b : Frac) : Frac := Frac.add a (Frac.neg b)
/-- Magnitude. -/
def Frac.abs (a : Frac) : Frac := ⟨a.num.natAbs, a.den⟩
/-- Quotient by a non-zero value. -/
def Frac.div (a b : Frac) : Frac :=
  if b.num < 0 then ⟨-(a.num * b.den), a.den * b.num.natAbs⟩ else ⟨a.num * b.den, a.den * b.num.natAbs⟩
/-- Less than. -/
def Frac.lt (a b : Frac) : Bool := decide (a.num * b.den < b.num * a.den)
/-- At most. -/
def Frac.le (a b : Frac) : Bool := decide (a.num * b.den ≤ b.num * a.den)
/-- Times 2^k. -/
def Frac.shift (a : Frac) (k : Int) : Frac :=
  if 0 ≤ k then ⟨a.num * (2 ^ k.toNat : Nat), a.den⟩ else ⟨a.num, a.den * 2 ^ (-k).toNat⟩
/-- Is it zero? -/
def Frac.isZero (a : Frac) : Bool := a.num == 0
/-- Floor. -/
def Frac.floor (a : Frac) : Int := a.num / (a.den : Int)

/-- A natural quotient rounded to nearest, ties to even. -/
def rneDiv (n d : Nat) : Nat :=
  let q := n / d
  let r := n % d
  if d < 2 * r ∨ (2 * r = d ∧ q % 2 = 1) then q + 1 else q

/-- A rational rounded to the nearest integer, ties to even. -/
def Frac.rne (a : Frac) : Int :=
  let q : Int := rneDiv a.num.natAbs a.den
  if a.num < 0 then -q else q

/-- The exponent e with 2^e ≤ n/d < 2^(e+1), for positive n and d. -/
def ilog2 (n d : Nat) : Int :=
  let k : Int := (Nat.log2 n : Int) - (Nat.log2 d : Int)
  if Frac.le ⟨1, 1⟩ (Frac.shift ⟨n, d⟩ (-k)) then k else k - 1

/-! ### Floating-point formats (R47) -/

/-- A binary format: precision with the hidden bit, smallest normal exponent, largest exponent, exponent field width. -/
structure FloatFmt where
  prec : Nat
  emin : Int
  emax : Int
  ebits : Nat
  deriving DecidableEq, Repr

/-- FP32. -/
def fp32 : FloatFmt := ⟨24, -126, 127, 8⟩
/-- BF16. -/
def bf16 : FloatFmt := ⟨8, -126, 127, 8⟩
/-- FP16. -/
def fp16 : FloatFmt := ⟨11, -14, 15, 5⟩

/-- A decoded number: finite with its exact value and the sign of its zero, infinite, or NaN. -/
inductive Fl where
  | fin (neg : Bool) (v : Frac)
  | inf (neg : Bool)
  | nan
  deriving DecidableEq, Repr

/-- Total width of a format. -/
def FloatFmt.width (f : FloatFmt) : Nat := f.ebits + f.prec

/-- Decode a bit pattern. -/
def FloatFmt.decode (f : FloatFmt) (bits : Nat) : Fl :=
  let mb := f.prec - 1
  let m := bits % 2 ^ mb
  let e := bits / 2 ^ mb % 2 ^ f.ebits
  let neg := bits / 2 ^ (mb + f.ebits) % 2 = 1
  let sg (x : Frac) : Frac := if neg then x.neg else x
  if e = 2 ^ f.ebits - 1 then (if m = 0 then .inf neg else .nan)
  else if e = 0 then .fin neg (sg (Frac.shift ⟨m, 1⟩ (f.emin - mb)))
  else .fin neg (sg (Frac.shift ⟨(2 ^ mb + m : Nat), 1⟩ ((e : Int) - 1 + f.emin - mb)))

/-- Round a positive n/d to the format's precision with an unbounded exponent above and gradual underflow below: integer
significand and its exponent. -/
def FloatFmt.roundMag (f : FloatFmt) (n d : Nat) : Nat × Int :=
  let e := max (ilog2 n d) f.emin
  let q := e - (f.prec - 1 : Nat)
  let x := Frac.shift ⟨n, d⟩ (-q)
  let r := rneDiv x.num.natAbs x.den
  if r = 2 ^ f.prec then (2 ^ (f.prec - 1), q + 1) else (r, q)

/-- Bits of the significand and exponent that `roundMag` gives, without a sign. -/
def FloatFmt.packMag (f : FloatFmt) (r : Nat) (q : Int) : Nat :=
  let mb := f.prec - 1
  if r < 2 ^ mb then r else ((q + mb - f.emin + 1).toNat) * 2 ^ mb + (r - 2 ^ mb)

/-- Largest finite magnitude, as bits. -/
def FloatFmt.maxBits (f : FloatFmt) : Nat := (2 ^ f.ebits - 1) * 2 ^ (f.prec - 1) - 1

/-- The sign bit of a format. -/
def FloatFmt.signBit (f : FloatFmt) : Nat := 2 ^ (f.prec - 1 + f.ebits)

/-- Infinity of a format, as bits. -/
def FloatFmt.infBits (f : FloatFmt) : Nat := (2 ^ f.ebits - 1) * 2 ^ (f.prec - 1)

/-- One rounding to nearest, ties to even, saturating to the largest finite value (R47): the bits, and whether it
saturated. Every zero is positive. -/
def FloatFmt.roundSat (f : FloatFmt) (x : Frac) : Nat × Bool :=
  if x.num = 0 then (0, false)
  else
    let (r, q) := f.roundMag x.num.natAbs x.den
    if r = 0 then (0, false)
    else
      let isOver := decide (f.emax < q + (Nat.log2 r : Int))
      let mag := if isOver then f.maxBits else f.packMag r q
      (mag + (if x.num < 0 then f.signBit else 0), isOver)

/-- One rounding to nearest, ties to even, with IEEE infinities and signed zeros: the bits, and whether it overflowed. -/
def FloatFmt.roundInf (f : FloatFmt) (neg : Bool) (x : Frac) : Nat × Bool :=
  let sg := if (if x.num = 0 then neg else decide (x.num < 0)) then f.signBit else 0
  if x.num = 0 then (sg, false)
  else
    let (r, q) := f.roundMag x.num.natAbs x.den
    if f.emax < q + (Nat.log2 r : Int) ∧ r ≠ 0 then (sg + f.infBits, true) else (sg + f.packMag r q, false)

/-- The finite value of FP32 bits; 0 for an infinity or a NaN, which no register or image holds (R48). -/
def fp32Val (bits : Nat) : Frac :=
  match fp32.decode bits with
  | .fin _ v => v
  | _ => ⟨0, 1⟩

/-- Are FP32 bits finite (R48)? -/
def fp32Finite (bits : Nat) : Bool := bits / 2 ^ 23 % 256 != 255

/-! ### Element formats (R33 to R36) -/

/-- FP4 code to half units (Table 2.2); 0x8 is zero (R34). -/
def fp4Half (c : Nat) : Int :=
  let m : Int := match c % 8 with
    | 0 => 0 | 1 => 1 | 2 => 2 | 3 => 3 | 4 => 4 | 5 => 6 | 6 => 8 | _ => 12
  if c / 8 % 2 = 1 then -m else m

/-- Half units to the FP4 code of a representable value; every zero is positive (R34). -/
def fp4Code (h : Int) : Nat :=
  let m := match h.natAbs with
    | 0 => 0 | 1 => 1 | 2 => 2 | 3 => 3 | 4 => 4 | 6 => 5 | 8 => 6 | _ => 7
  if h < 0 then 8 + m else m

/-- Nibble j of packed bytes (R37). -/
def nibbleAt (bs : List Byte) (j : Nat) : Nat := ((bs.getD (j / 2) 0).toNat / (16 ^ (j % 2))) % 16

/-- 2-bit code j of packed bytes (R37). -/
def crumbAt (bs : List Byte) (j : Nat) : Nat := ((bs.getD (j / 4) 0).toNat / (4 ^ (j % 4))) % 4

/-- Trit j of packed bytes of a row (R38, R39): blocks of 256 trits in 52 bytes; a byte of 243 or more is five zeros. -/
def tritAt (bs : List Byte) (j : Nat) : Int :=
  let b := (bs.getD (j / 256 * 52 + j % 256 / 5) 0).toNat
  if 243 ≤ b then 0 else ((b / 3 ^ (j % 256 % 5) % 3 : Nat) : Int) - 1

/-- Value of UE5M3 (R41). -/
def ue5m3 (c : Nat) : Frac :=
  let e := c / 8 % 32
  let m := c % 8
  if e = 0 then Frac.shift ⟨m, 8⟩ (-14) else Frac.shift ⟨(8 + m : Nat), 8⟩ ((e : Int) - 15)

/-- The smallest non-zero UE5M3 code whose value is at least x; 0xFF when none is (R51). -/
def ue5m3Ceil (x : Frac) : Nat := ((List.range 256).find? (fun c => decide (0 < c) && Frac.le x (ue5m3 c))).getD 0xFF

/-- The nearest UE5M3 code, ties to mantissa bit 0, and whether it saturated at 0xFF. -/
def ue5m3Round (x : Frac) : Nat × Bool :=
  if x.num ≤ 0 then (0, false)
  else
    let (r, q) := (FloatFmt.mk 4 (-14) 16 5).roundMag x.num.natAbs x.den
    if 16 < q + (Nat.log2 r : Int) ∧ r ≠ 0 then (0xFF, true)
    else (FloatFmt.packMag (FloatFmt.mk 4 (-14) 16 5) r q, false)

/-- Round to INT4 with a lower bound of -8, or -7 for complex weights (R49): value and saturation. -/
def roundInt4 (cplxW : Bool) (x : Frac) : Int × Bool :=
  let r := x.rne
  let lo : Int := if cplxW then -7 else -8
  if r > 7 then (7, true) else if r < lo then (lo, true) else (r, false)

/-- Nearest FP4 value in half units, ties to mantissa bit 0; magnitudes above 6 saturate (R49). DEDUCED, log entry 28. -/
def roundFp4 (x : Frac) : Int × Bool :=
  if x.num = 0 then (0, false)
  else
    let isOver := Frac.lt ⟨6, 1⟩ x.abs
    let (r, q) := (FloatFmt.mk 2 0 2 2).roundMag x.num.natAbs x.den
    let h := Frac.floor (Frac.shift ⟨r, 1⟩ (q + 1))
    let h := if isOver then 12 else h
    (if x.num < 0 then -h else h, isOver)

/-- Half units of the FP4 magnitudes, ascending. -/
def fp4Mags : List Int := [0, 1, 2, 3, 4, 6, 8, 12]

/-- The representable neighbours of x on a sorted grid: the next lower and the next higher one. -/
def gridNeighbours (grid : List Int) (x : Frac) : Int × Int :=
  let lo := (grid.filter (fun g => Frac.le ⟨g, 1⟩ x)).getLast?.getD (grid.headD 0)
  let hi := ((grid.filter (fun g => Frac.lt x ⟨g, 1⟩)).head?).getD (grid.getLast?.getD 0)
  (lo, hi)

/-- Stochastic rounding on a grid (R50, R132): up when r < floor(f × 2^32). -/
def roundStoch (grid : List Int) (x : Frac) (r : Nat) : Int :=
  let (lo, hi) := gridNeighbours grid x
  if lo = hi then lo
  else
    let f := Frac.div (Frac.sub x ⟨lo, 1⟩) ⟨hi - lo, 1⟩
    if (r : Int) < (Frac.shift f 32).floor then hi else lo

/-- Stochastic rounding to an integer, then saturation (R50). -/
def stochInt (x : Frac) (r : Nat) : Int :=
  let lo := x.floor
  let f := Frac.sub x ⟨lo, 1⟩
  if (r : Int) < (Frac.shift f 32).floor then lo + 1 else lo

/-! ### The counter-based generator (R102) -/

/-- Left rotation of a 32-bit value. -/
def rotl32 (x k : Nat) : Nat := (x * 2 ^ k % 2 ^ 32) ||| (x / 2 ^ (32 - k))

/-- One round of the generator. -/
def genRound (k0 k1 : Nat) (x : Nat × Nat × Nat × Nat) (j : Nat) : Nat × Nat × Nat × Nat :=
  let (x0, x1, x2, x3) := x
  let x0 := (x0 + x1) % 2 ^ 32
  let x3 := rotl32 (x3 ^^^ x0) 11
  let x2 := (x2 + x3) % 2 ^ 32
  let x1 := rotl32 (x1 ^^^ x2) 7
  let x0 := (x0 + x1) % 2 ^ 32
  let x3 := rotl32 (x3 ^^^ x0) 13
  let x2 := (x2 + x3) % 2 ^ 32
  let x1 := rotl32 (x1 ^^^ x2) 5
  (x0 ^^^ ((k0 + j) % 2 ^ 32), x1, x2 ^^^ k1, x3)

/-- The generator: job seed, domain, logical number, index, counter. -/
def gen32 (seed d la i c : Nat) : Nat :=
  let (x0, _, x2, _) := (List.range 8).foldl (genRound (seed % 2 ^ 32) (seed / 2 ^ 32 % 2 ^ 32))
    (c % 2 ^ 32, i % 2 ^ 32, ((d * 256) ||| la) % 2 ^ 32, 0x5EA50D12)
  x0 ^^^ x2

/-! ### Compact words (R94, R98, R105) -/

/-- The canonical exponent of an exact value (R94); none where no E from 0 to 33 holds it. -/
def canonExp (x : Int) : Option Nat :=
  (List.range 34).find? (fun e => decide (-32768 * (2 ^ e : Nat) ≤ x) && decide (x ≤ 32767 * (2 ^ e : Nat)))

/-- The 4-byte word of mantissa m and exponent e (R94). -/
def compactWord (m : Int) (e : Nat) : Nat := wrapN 16 m + e % 256 * 65536

/-- Mantissa of a compact word. -/
def compactMant (w : Nat) : Int := signed 16 w

/-- Exponent of a compact word; above 33 it is taken as 33 (R101). -/
def compactExp (w : Nat) : Nat := min (w / 65536 % 256) 33

/-- Value of a compact word. -/
def compactVal (w : Nat) : Int := compactMant w * (2 ^ compactExp w : Nat)

/-- Is a compact word read as one that SPILL did not write (R101)? -/
def compactBad (w : Nat) : Bool := decide (33 < w / 65536 % 256) || decide (0 < w / 2 ^ 24 % 256)

/-- An integer halved e times, to nearest, ties to even. -/
def rneShift (m : Int) (e : Nat) : Int := Frac.rne ⟨m, 2 ^ e⟩

/-- The canonical word of m × 2^e, where mantissa and exponent are already in range (R94). -/
def canonWord (m : Int) (e : Nat) : Nat :=
  match canonExp (m * (2 ^ e : Nat)) with
  | some e' => compactWord (m * (2 ^ e : Nat) / (2 ^ e' : Nat)) e'
  | none => compactWord (if m < 0 then -32768 else 32767) 33

/-- Combine two compact words (R105): the word, and whether no canonical word holds the sum. -/
def comb (a b : Nat) : Nat × Bool :=
  let e := max (compactExp a) (compactExp b)
  let m := rneShift (compactMant a) (e - compactExp a) + rneShift (compactMant b) (e - compactExp b)
  let isOver := decide (32767 < m ∨ m < -32768)
  let m' := if isOver then rneShift m 1 else m
  let e' := if isOver then e + 1 else e
  (canonWord m' e', (canonExp (m' * (2 ^ e' : Nat))).isNone)

/-- sr_round (R98) with the generator's 32-bit output r: the word, and whether no canonical form holds x (R96). -/
def srRound (x : Int) (r : Nat) : Nat × Bool :=
  match canonExp x with
  | none => (compactWord (if x < 0 then -32768 else 32767) 33, true)
  | some e =>
    let q := x / (2 ^ e : Nat)
    let d := (x - q * (2 ^ e : Nat)).toNat
    let d' := if e ≤ 32 then d * 2 ^ (32 - e) else d / 2
    (compactWord (if r < d' then q + 1 else q) e, false)

end Sys2Proof.Machine
end

