-- ==== Sys2Proof/Machine/Pause.lean ====
section
/-! DEFINITION. JOB_PAUSE in progress (R268): when every unit of the job has stopped the job is PAUSED and the command is
answered. Units report here when they stop. -/

namespace Sys2Proof.Machine

/-- Is the job that owns the compute RUNNING (Table 10.8a)? Its attention engines, gather units and streams run only
then. -/
def computeRunning (s : State) : Bool :=
  match s.owner with
  | some j => s.jobState j == 2
  | none => false

/-- Is a stream at the end of a descriptor (R268)? -/
def Stream.atRest (x : Stream) : Bool := x.runs.isEmpty && x.reqs.isEmpty

/-- Does a unit of the compute wait on an object? -/
def waits (s : State) (a : Agent) : Bool := s.waiters.any (fun w => w.agent == a)

/-- Is an object owned by the job that owns the compute (R274)? -/
def jobObject (s : State) (o : Nat) : Bool :=
  match s.owner with
  | some j => objOfJob s o j.handle
  | none => false

/-- A gather unit or a stream waits on or signals an object that its job does not own: a job fault (R274), whose cause no table names and is
free. DEDUCED, log entry 33. -/
def foreignObject (s : State) : State :=
  let (v, t) := s.free
  computeReset t (v.toNat % 256)

/-- Have all units of a job stopped (R268)? Arrays and vector engines no longer run, an attention engine is between
steps and a gather unit between batches, a stream between descriptors. -/
def allStopped (s : State) (j : Job) : Bool :=
  j.la.all (fun p => !(s.flag (Fd.MA_STATUS_RUN p.2))) &&
  j.lv.all (fun p => !(s.flag (Fd.VE_STATUS_RUN p.2))) &&
  (List.range 8).all (fun n => Tbl.get (fun _ => 0) s.aeStage n == 0) &&
  (List.range 4).all (fun n => Tbl.get (fun _ => 0) s.eguStage n == 0) &&
  s.streams.all (fun x => x.atRest && !(waits s (streamAgent x.num)))

/-- A unit of job j has stopped: if it was the last one the job is PAUSED and the JOB_PAUSE reply is posted, with the
device time in RESULT0 (R268, Table 10.3). -/
def pauseCheck (s : State) (h : Nat) : State :=
  match s.job h with
  | none => s
  | some j =>
    if j.pausing && allStopped s j then
      let s1 := (s.setJob { j with pausing := false, stopTime := s.time64 }).setFld (Fd.JOB_STATE j.entry) 3
      finishWhere s1 0x12 (fun c => c.pkt.job.toNat == h) St.ok 0 s.time64 0
    else s

end Sys2Proof.Machine
end

