-- ==== Sys2Proof/Machine/Array.lean ====
section
/-! DEFINITION. The array sequencer (R81 to R89): issue, faults, the register and branch instructions, MODE, SCALES, WLOAD,
PASS, DQCFG, DQOUT, FENCE, HALT, SIG, WAIT and PPOINT. -/

namespace Sys2Proof.Machine

/-- What array n holds beside its registers. -/
def State.arrOf (s : State) (n : Nat) : Arr := Tbl.get arrReset s.arr n

/-- Set what array n holds; QUEUE shows staged tiles and queued passes (Table 3.9). -/
def State.setArr (s : State) (n : Nat) (a : Arr) : State :=
  { s with arr := Tbl.set arrReset s.arr n a }.setRegN (Reg.MA_QUEUE n) (a.staged.length * 8 + a.passes.length)

/-- First offset of a diagnostic area in an LSP (R325). -/
def diagBase : Nat := 0xF0000

/-- Does a range of the LSP of array n meet its season window (R201)? -/
def meetsWindow (s : State) (n a len : Nat) : Bool :=
  let w := s.fld (Fd.MA_SWIN_BASE n) * 64
  decide (a < w + s.fld (Fd.MA_SWIN_LEN n) * 64) && decide (w < a + len)

/-- One byte of an LSP read by its array: in the season window it is the latched bank's (R201, R202). -/
def windowByte (s : State) (n a : Nat) (b : Byte) : Byte :=
  if meetsWindow s n a 1 then (s.bankBytes n (s.fld (Fd.MA_SBANK_BANK n)) (a - s.fld (Fd.MA_SWIN_BASE n) * 64) 1).headD 0 else b

/-- Read the array's own LSP on its internal port; a season window reads the latched bank. -/
def lspRead (s : State) (n a len : Nat) : BusRead :=
  let r := portRead s 32 (lspBase n + a) len
  if meetsWindow s n a len then { r with bytes := r.bytes.zipIdx.map (fun b => windowByte s n (a + b.2) b.1) } else r

/-- Write the array's own LSP on its internal port. -/
def lspWrite (s : State) (n a : Nat) (bs : List Byte) : State := portWrite s 32 (lspBase n + a) bs

/-- Is a range inside the job part of an LSP (R325)? -/
def lspFits (a len : Nat) : Bool := decide (a + len ≤ diagBase)

/-! ### Issue and faults -/

/-- Does array n issue: its sequencer runs, is not frozen, stopped or waiting (R66, R86, R87)? DESIGN CHOICE, log entry 27. -/
def seqReady (s : State) (n : Nat) : Bool :=
  s.flag (Fd.MA_STATUS_RUN n) && !(s.flag (Fd.MA_STATUS_FROZEN n)) && !(s.flag (Fd.MA_STATUS_SEQ_FAULT n)) &&
    !(waits s (seqAgent n))

/-- A sequencer fault (R86): recorded with its program counter, raised as source 128 + n, and a job fault. DEDUCED, log entry 29. -/
def seqFault (s : State) (n cause : Nat) : State :=
  let s1 := s.setRegN (Reg.MA_SEQ_FAULT n) (s.regN (Reg.MA_SEQ_PC n) * 65536 + cause)
  let s2 := (s1.setFld (Fd.MA_STATUS_SEQ_FAULT n) 1).setFld (Fd.MA_STATUS_RUN n) 0
  computeReset (raiseShared { s2 with pcOut := s2.pcOut.filter (fun k => k != n) } (128 + n)) 1

/-- Sequential issue: the next address, or a fault past 1,023. -/
def seqNext (s : State) (n : Nat) : State :=
  let pc := s.regN (Reg.MA_SEQ_PC n)
  if pc = 1023 then seqFault s n 3 else s.setRegN (Reg.MA_SEQ_PC n) (pc + 1)

/-- A branch by an immediate of 18 bits in words; out of 0 to 1,023 it is a fault. -/
def seqBranch (s : State) (n : Nat) (imm : BitVec 18) : State :=
  let t : Int := (s.regN (Reg.MA_SEQ_PC n) : Int) + imm.toInt
  if t < 0 ∨ 1023 < t then seqFault s n 3 else s.setRegN (Reg.MA_SEQ_PC n) t.toNat

/-- Sequencer register i; S0 reads as zero (R81). -/
def sreg (s : State) (n : Nat) (i : BitVec 4) : Nat := if i = 0 then 0 else s.regN (Reg.MA_SEQ_S n i.toNat)

/-- Write sequencer register i; writes to S0 are ignored (R81). -/
def setSreg (s : State) (n : Nat) (i : BitVec 4) (v : Nat) : State :=
  if i = 0 then s else s.setRegN (Reg.MA_SEQ_S n i.toNat) (v % 2 ^ 32)

/-- The word of the program memory at the program counter of array n. -/
def seqWord (s : State) (n : Nat) : Word32 := BitVec.ofNat 32 (s.regN (Reg.MA_PROG n (s.regN (Reg.MA_SEQ_PC n))))

/-- Does a mapped array stand at a word whose opcode Table 3.7 does not list, 0x00 among them (R83, R86)? An array that no job has mapped
holds no program to compare with. DESIGN CHOICE, log entry 27. -/
def seqIllegal (s : State) (n : Nat) : Bool :=
  s.flag (Fd.MA_ID_MAPPED n) && (decodeSeq (Fin.ofNat 96 n) (seqWord s n)).isNone

/-- Is a row's instruction the one that array n stands at: the one that the word at its program counter spells (R82)? An array that no job
has mapped holds no program. DESIGN CHOICE, log entry 27. -/
def seqStands (s : State) (n : Fin 96) (c : Instr) : Bool :=
  !(s.flag (Fd.MA_ID_MAPPED n.val)) || decodeSeq n (seqWord s n.val) == some c

/-- Issue one instruction of array n: a fault of the fetch, an illegal opcode, nothing where it stands at another instruction, a fault of
its encoding, or its effect. -/
def seqIssue (n : Fin 96) (c : Instr) (bad : Bool) (f : Nat → State → State) (s : State) : Host.Outcome State Fault Refusal :=
  up s (fun s =>
    if !(seqReady s n.val) then s
    else if s.pcOut.contains n.val then seqFault s n.val 3
    else if seqIllegal s n.val then seqFault s n.val 1
    else if !(seqStands s n c) then s
    else if bad then seqFault s n.val 1
    else f n.val s)

/-! ### Registers and branches -/

/-- NOP. -/
def execSeqNop (n : Fin 96) (i : FmtA) : State → Host.Outcome State Fault Refusal :=
  seqIssue n (.seqNop n i) (i.flags != 0) (fun n s => seqNext s n)

/-- LDI: IMM[15:0] zero-extended. -/
def execSeqLdi (n : Fin 96) (i : FmtI) : State → Host.Outcome State Fault Refusal :=
  seqIssue n (.seqLdi n i) (i.imm.toNat / 65536 != 0) (fun n s => seqNext (setSreg s n i.d i.imm.toNat) n)

/-- LUI: the upper half; the lower half is kept. -/
def execSeqLui (n : Fin 96) (i : FmtI) : State → Host.Outcome State Fault Refusal :=
  seqIssue n (.seqLui n i) (i.imm.toNat / 65536 != 0)
    (fun n s => seqNext (setSreg s n i.d (i.imm.toNat % 65536 * 65536 + sreg s n i.d % 65536)) n)

/-- ADDI. -/
def execSeqAddi (n : Fin 96) (i : FmtI) : State → Host.Outcome State Fault Refusal :=
  seqIssue n (.seqAddi n i) false (fun n s => seqNext (setSreg s n i.d (wrapN 32 ((sreg s n i.a : Int) + i.imm.toInt))) n)

/-- ADD. -/
def execSeqAdd (n : Fin 96) (i : FmtA) : State → Host.Outcome State Fault Refusal :=
  seqIssue n (.seqAdd n i) (i.flags != 0) (fun n s => seqNext (setSreg s n i.d (sreg s n i.a + sreg s n i.b)) n)

/-- SUB. -/
def execSeqSub (n : Fin 96) (i : FmtA) : State → Host.Outcome State Fault Refusal :=
  seqIssue n (.seqSub n i) (i.flags != 0) (fun n s => seqNext (setSreg s n i.d (wrapN 32 ((sreg s n i.a : Int) - sreg s n i.b))) n)

/-- JMP. -/
def execSeqJmp (n : Fin 96) (i : FmtI) : State → Host.Outcome State Fault Refusal :=
  seqIssue n (.seqJmp n i) false (fun n s => seqBranch s n i.imm)

/-- LOOP: D falls by one; the branch is taken while D, as it then reads, is not 0. -/
def execSeqLoop (n : Fin 96) (i : FmtI) : State → Host.Outcome State Fault Refusal :=
  seqIssue n (.seqLoop n i) false (fun n s =>
    let s1 := setSreg s n i.d (wrapN 32 ((sreg s n i.d : Int) - 1))
    if sreg s1 n i.d = 0 then seqNext s1 n else seqBranch s1 n i.imm)

/-- BEQZ. -/
def execSeqBeqz (n : Fin 96) (i : FmtI) : State → Host.Outcome State Fault Refusal :=
  seqIssue n (.seqBeqz n i) false (fun n s => if sreg s n i.a = 0 then seqBranch s n i.imm else seqNext s n)

/-! ### Pass mode (R84) -/

/-- The fields of PMODE. -/
structure PMode where
  afmt : Nat
  wfmt : Nat
  cplx : Bool
  trans : Bool
  conj : Bool
  stats : Bool
  deriving DecidableEq, Repr

/-- PMODE from its register. -/
def PMode.ofNat (v : Nat) : PMode := ⟨v % 4, v / 4 % 8, bitOf v 5, bitOf v 6, bitOf v 7, bitOf v 8⟩

/-- The valid combinations (R84, Table 2.3). DEDUCED, log entry 29. -/
def PMode.valid (p : PMode) : Bool :=
  let four := decide (p.afmt ≤ 1)
  let pair := (four && decide (p.wfmt ≤ 3)) || (p.afmt == 2 && (p.wfmt == 2 || p.wfmt == 3)) ||
    (p.afmt == 3 && (p.wfmt == 0 || p.wfmt == 4)) || (p.afmt == 0 && p.wfmt == 4)
  pair && (!p.cplx || (four && decide (p.wfmt ≤ 1))) && (!p.trans || (four && decide (p.wfmt ≤ 1))) && (!p.conj || p.cplx)

/-- Weights of two bits, INT2 or ternary. -/
def PMode.two (p : PMode) : Bool := p.wfmt == 2 || p.wfmt == 3

/-- OAB entries per M row, E (Table 3.2, R68). -/
def PMode.entries (p : PMode) : Nat := if p.cplx || p.trans || p.two then 256 else 128

/-- Bytes of an activation row (R37, R40, R68). -/
def PMode.actBytes (p : PMode) : Nat :=
  if p.cplx then 128 else if p.trans then 64 else if p.afmt = 2 then 64 else if p.afmt = 3 then 256 else 128

/-- Output channels of a weight tile (Table 2.3). -/
def PMode.channels (p : PMode) : Nat := if p.two then 256 else 128

/-- Bytes of one output channel of a tile (R37, R38). -/
def PMode.weightBytes (p : PMode) : Nat :=
  if p.cplx then 128
  else match p.wfmt with
    | 2 => 64
    | 3 => 52
    | 4 => 256
    | _ => 128

/-- Does a MODE immediate hold a reserved bit or an invalid combination (R486)? DEDUCED, log entry 29. -/
def modeBad (imm : Nat) : Bool := decide (512 ≤ imm) || !((PMode.ofNat imm).valid)

/-- First entry of the statistics record area (R108). -/
def statsBase : Nat := 31232

/-- OAB entry e of array n. -/
def State.oabAt (s : State) (n e : Nat) : Nat := (Tbl.get zeroWord32 s.oab (32768 * n + e)).toNat

/-- Write OAB entry e of array n: of a word with two bad bits the other entry stays poisoned (R226). -/
def State.setOab (s : State) (n e v : Nat) : State :=
  let w := oabWordKey n (e / 2)
  let other := if s.upsets.contains (w, true) then [32768 * n + (e ^^^ 1)] else []
  { s with oab := Tbl.set zeroWord32 s.oab (32768 * n + e) (BitVec.ofNat 32 v)
           oabPoison := other ++ s.oabPoison.filter (fun k => k != 32768 * n + e)
           upsets := s.upsets.filter (fun u => u.1 != w) }

/-- A poisoned OAB entry read by its array: counted, recorded, and a job fault (Table 9.6). DESIGN CHOICE, log entry 30. -/
def oabFault (s : State) (n e : Nat) : State :=
  computeReset ((s.bump (Reg.MA_OAB_UE n)).log 0x04 32 (0x400000 + 0x4000 * n) e 32) 6

/-- Zero OAB entries of array n from `lo` to before `hi`. -/
def State.clearOab (s : State) (n lo hi : Nat) : State :=
  { s with oab := Tbl.clearRange s.oab (32768 * n + lo) (32768 * n + hi)
           upsets := s.upsets.filter (fun u => decide (u.1 < oabWordKey n ((lo + 1) / 2)) || decide (oabWordKey n (hi / 2) ≤ u.1))
           oabPoison := s.oabPoison.filter (fun k => decide (k < 32768 * n + lo) || decide (32768 * n + hi ≤ k)) }

/-- The records that CAL took of array n for the slot it has latched begin anew with the record area (R108, R199). -/
def clearRecs (s : State) (n : Nat) : State :=
  let drop (m : List (Nat × StatRec)) (k : Nat) : List (Nat × StatRec) := Tbl.clearRange m (2 ^ 24 * k + 2048 * n) (2 ^ 24 * k + 2048 * (n + 1))
  match s.slotOf n with
  | none => s
  | some (c, id) =>
    if c = 8 then { s with shadowRecs := drop s.shadowRecs id }
    else match s.slotCtx c id with
      | some y => s.setSlotCtx c { y with recs := drop y.recs 0 }
      | none => s

/-- MODE: PMODE for later passes; setting STATS from clear zeroes the record area (R84, R108). -/
def execSeqMode (n : Fin 96) (i : FmtI) : State → Host.Outcome State Fault Refusal :=
  seqIssue n (.seqMode n i) (modeBad i.imm.toNat) (fun n s =>
    let was := (PMode.ofNat (s.regN (Reg.MA_PMODE n))).stats
    let s1 := s.setRegN (Reg.MA_PMODE n) i.imm.toNat
    let s2 := if (PMode.ofNat i.imm.toNat).stats && !was then clearRecs (s1.clearOab n statsBase 32768) n else s1
    seqNext s2 n)

/-! ### Scales, tiles, dequantisation settings -/

/-- SCALES: where later passes read their scales (R45, R83). -/
def execSeqScales (n : Fin 96) (i : FmtA) : State → Host.Outcome State Fault Refusal :=
  seqIssue n (.seqScales n i) (i.flags != 0 || i.d != 0) (fun n s =>
    let a := sreg s n i.a
    let b := sreg s n i.b
    if lspFits a 1 && lspFits b 1 then
      seqNext (s.setArr n { s.arrOf n with scales := ⟨a, sreg s n i.c, b⟩ }) n
    else seqFault s n 3)

/-- -8 in a complex INT4 weight part becomes -7 (R36): parts substituted in a row. -/
def sub7Count (bs : List Byte) : Nat :=
  (bs.map (fun b => b2n (decide (b.toNat % 16 = 8)) + b2n (decide (b.toNat / 16 = 8)))).sum

/-- Ternary bytes of 243 or more in a row (R39). -/
def badTrits (bs : List Byte) : Nat := (bs.filter (fun b => decide (243 ≤ b.toNat))).length

/-- The rows of a tile, and whether one was poisoned. -/
def tileRead (s : State) (n a stride len : Nat) : Nat → List (List Byte) × Bool × State
  | 0 => ([], false, s)
  | k + 1 =>
    let r := lspRead s n a len
    let (rows, p, t) := tileRead r.state n (a + stride) stride len k
    (r.bytes :: rows, r.poisoned || p, t)

/-- Stage a tile; the only one staged is pushed into the transit registers at once (R62, R63). -/
def Arr.stage (a : Arr) (t : Tile) : Arr :=
  { a with staged := a.staged ++ [t], transit := if a.staged.isEmpty then t else a.transit }

/-- WLOAD: stages a tile under the current PMODE; waits while both buffers are full (R62, R83). -/
def execSeqWload (n : Fin 96) (i : FmtA) : State → Host.Outcome State Fault Refusal :=
  seqIssue n (.seqWload n i) (i.flags != 0) (fun n s =>
    let pm := PMode.ofNat (s.regN (Reg.MA_PMODE n))
    let a := sreg s n i.a
    let st := sreg s n i.b
    if a % 64 ≠ 0 ∨ st % 64 ≠ 0 ∨ !(lspFits (a + (pm.channels - 1) * st) pm.weightBytes) then seqFault s n 3
    else if 2 ≤ (s.arrOf n).staged.length then s
    else
      let (rows, bad, t) := tileRead s n a st pm.weightBytes pm.channels
      if bad then computeReset t 6
      else
        let t1 := if pm.cplx && pm.wfmt == 0 then t.bumpBy (Reg.MA_FMT_SUB7 n) ((rows.map sub7Count).sum) else t
        let t2 := if pm.wfmt = 3 then t1.bumpBy (Reg.MA_FMT_BADTRIT n) ((rows.map badTrits).sum) else t1
        seqNext (t2.setArr n ((t2.arrOf n).stage ⟨pm.wfmt, pm.cplx, rows⟩)) n)

/-- Is a record for DQCFG valid: OUT_FMT 0 to 4, no reserved bit, G and H finite (R48, R86)? -/
def dqRecordOk (mode g h : Nat) : Bool := decide (mode < 128) && decide (mode % 8 ≤ 4) && fp32Finite g && fp32Finite h

/-- DQCFG: loads DQ_MODE, DQ_G, DQ_H and DQ_SOUT; a layer begins (R83, R102). -/
def execSeqDqcfg (n : Fin 96) (i : FmtA) : State → Host.Outcome State Fault Refusal :=
  seqIssue n (.seqDqcfg n i) (i.flags != 0) (fun n s =>
    let a := sreg s n i.a
    if a % 64 ≠ 0 ∨ !(lspFits a 16) then seqFault s n 3
    else
      let r := lspRead s n a 16
      if r.poisoned then computeReset r.state 6
      else
        let t := r.state
        let mode := leAt r.bytes 0 4
        let g := leAt r.bytes 4 4
        let h := leAt r.bytes 8 4
        if dqRecordOk mode g h then
          let t1 := ((t.setRegN (Reg.MA_DQ_MODE n) mode).setRegN (Reg.MA_DQ_G n) g).setRegN (Reg.MA_DQ_H n) h
          let t2 := t1.setRegN (Reg.MA_DQ_SOUT n) (leAt r.bytes 12 4 % 256)
          seqNext (t2.setArr n { t2.arrOf n with layerPasses := 0, layers := (t2.arrOf n).layers + 1 }) n
        else seqFault t n 2)

/-- Last offset of the SSP and one. -/
def sspSize : Nat := 48 * 0x100000

/-- DQOUT: where later passes write their outputs and output scales (R45, R83). An SSP offset has to be a multiple of 64 as an LSP address.
DESIGN CHOICE, log entry 111. -/
def execSeqDqout (n : Fin 96) (i : FmtA) : State → Host.Outcome State Fault Refusal :=
  seqIssue n (.seqDqout n i) (decide (2 ≤ i.flags.toNat)) (fun n s =>
    let a := sreg s n i.a
    let d := sreg s n i.d
    let b := sreg s n i.b
    let ssp := i.flags.toNat == 1
    if a % 64 ≠ 0 ∨ d % 64 ≠ 0 ∨ !(lspFits b 1) ∨ !(if ssp then decide (a < sspSize) else lspFits a 1) then seqFault s n 3
    else seqNext (s.setArr n { s.arrOf n with dest := ⟨a, d, b, sreg s n i.c, ssp⟩ }) n)

/-! ### Bindings and passes -/

/-- Does the binding of region r of array n hold (Table 4.5)? -/
def bound (s : State) (n r : Nat) : Bool := s.flag (Fd.MA_BIND_W0_V n r)

/-- First entry of a binding. -/
def bindBase (s : State) (n r : Nat) : Nat := s.fld (Fd.MA_BIND_W0_OAB_BASE n r)

/-- Entries of a binding. -/
def bindCount (s : State) (n r : Nat) : Nat := s.fld (Fd.MA_BIND_W0_COUNT_M1 n r) + 1

/-- LSP address of a binding. -/
def bindAddr (s : State) (n r : Nat) : Nat := s.fld (Fd.MA_BIND_W1_WAB_ADDR n r) * 64

/-- Does a binding hold entry e? -/
def bindHolds (s : State) (n e : Nat) : Bool :=
  let r := e / 4096
  bound s n r && decide (bindBase s n r ≤ e) && decide (e < bindBase s n r + bindCount s n r)

/-- Release the binding of region r. -/
def unbind (s : State) (n r : Nat) : State :=
  ((s.setRegN (Reg.MA_BIND_W0 n r) 0).setRegN (Reg.MA_BIND_W1 n r) 0).setRegBit (Reg.MA_ACC_STATUS n) r false

/-- Do two entry ranges meet? -/
def rangesMeet (a n b m : Nat) : Bool := decide (a < b + m) && decide (b < a + n) && decide (0 < n) && decide (0 < m)

/-- A pass with ACC clear releases the bindings whose ranges it writes into (R99). -/
def abandonBindings (s : State) (n base count : Nat) : State :=
  (List.range 8).foldl (fun t r =>
    if bound t n r && rangesMeet base count (bindBase t n r) (bindCount t n r) then (unbind t n r).bump (Reg.MA_WAB_ABANDON n)
    else t) s

/-- Bytes of one output row in a format of DQ_MODE (Table 2.7). -/
def outRowBytes (outFmt entries : Nat) : Nat :=
  match outFmt with
  | 0 => entries * 4
  | 1 | 2 => entries * 2
  | _ => entries / 2

/-- Can an array write a range of its LSP: the job part, outside its season window (R86 cause 3, R201)? -/
def lspWritable (s : State) (n a len : Nat) : Bool := lspFits a len && !(meetsWindow s n a len)

/-- Addresses and OAB range of a pass (R61, R83, R86, R108). -/
def passRangeOk (s : State) (n : Nat) (pm : PMode) (dq : Bool) (addr stride base rows : Nat) : Bool :=
  let a := s.arrOf n
  let e := base + rows * pm.entries
  let last := rows - 1
  let fmt := s.fld (Fd.MA_DQ_MODE_OUT_FMT n)
  let size := outRowBytes fmt pm.entries
  let blk := last / 16
  decide (addr % 64 = 0) && decide (stride % 64 = 0) && decide (e ≤ (if pm.stats then statsBase else 32768)) &&
  (rows == 0 || lspFits (addr + last * stride) pm.actBytes) &&
  (!dq || rows == 0 ||
    ((if a.dest.ssp then decide (a.dest.addr + last * a.dest.stride + size ≤ sspSize)
      else (List.range rows).all (fun m => lspWritable s n (a.dest.addr + m * a.dest.stride) size)) &&
     lspFits (a.scales.act + blk * a.scales.stride) 1 &&
     lspFits a.scales.weight (if pm.trans && !pm.cplx then 256 else pm.channels) &&
     (decide (fmt ≤ 2) || (List.range (blk + 1)).all (fun m => lspWritable s n (a.dest.scale + m * a.dest.scaleStride) 1))))

/-- Does the oldest staged tile, or the active one, fit the mode (R85)? -/
def tileFits (t : Tile) (pm : PMode) : Bool := t.wfmt == pm.wfmt && t.cplx == pm.cplx

/-- The commit of a pass that comes to the front of the queue (R63, R64): its tile goes from the transit registers to the active ones, its
staging buffer is free, and the next staged tile is pushed. DESIGN CHOICE, log entry 111. -/
def Arr.commit (a : Arr) (p : Pass) : Arr :=
  if p.neww then
    let rest := a.staged.drop 1
    { a with staged := rest, claimed := a.claimed - 1, active := p.tile, transit := rest.headD a.transit }
  else a

/-- A pass has come to the front of the queue: it commits, and one of no rows is complete at once; `k` counts those that completed. -/
def Arr.front (a : Arr) (k : Nat) : List Pass → Nat × Arr
  | [] => (k, { a with passes := [] })
  | p :: rest =>
    let b := a.commit p
    if p.rows = 0 then b.front (k + 1) rest else (k, { b with passes := p :: rest })

/-- Set an array whose queue has a new front; passes of no rows are counted. -/
def State.setFront (s : State) (n : Nat) (a : Arr) (passes : List Pass) : State :=
  let (k, b) := a.front 0 passes
  (s.setArr n b).bumpBy (Reg.MA_PASSES n) k

/-- The weights that a pass without NEWW reuses: those of the pass queued before it, else the active ones (R85). -/
def Arr.lastTile (a : Arr) : Option Tile :=
  match a.passes.getLast? with
  | some p => p.tile
  | none => a.active

/-- Queue a pass whose checks have been made; with nothing queued before it, it commits at once. -/
def queuePass (s : State) (n : Nat) (i : FmtA) (tile : Option Tile) : State :=
  let a := s.arrOf n
  let neww := bitOf i.flags.toNat 0
  let p : Pass := {
    pc := s.regN (Reg.MA_SEQ_PC n), addr := sreg s n i.a, stride := sreg s n i.d, base := sreg s n i.b, rows := sreg s n i.c,
    acc := bitOf i.flags.toNat 1, dq := bitOf i.flags.toNat 2, pmode := s.regN (Reg.MA_PMODE n), scales := a.scales, dest := a.dest,
    dqMode := s.regN (Reg.MA_DQ_MODE n), g := s.regN (Reg.MA_DQ_G n), h := s.regN (Reg.MA_DQ_H n),
    sout := s.regN (Reg.MA_DQ_SOUT n), neww := neww, tile := tile, count := a.layerPasses, layer := a.layers, next := 0, mismatched := false,
    slot := s.slotOf n }
  let b : Arr := { a with claimed := a.claimed + b2n neww, layerPasses := a.layerPasses + 1 }
  seqNext (if a.passes.isEmpty then s.setFront n b [p] else s.setArr n { b with passes := a.passes ++ [p] }) n

/-- PASS: queues a pass; waits while four are queued; NEWW takes the oldest staged tile that no queued pass will install (R83, R85, R86).
Its range is checked before the wait for a place in the queue, and a WLOAD's before the wait for a staging buffer. DESIGN CHOICE, log
entry 111. -/
def execSeqPass (n : Fin 96) (i : FmtA) : State → Host.Outcome State Fault Refusal :=
  seqIssue n (.seqPass n i) (decide (8 ≤ i.flags.toNat)) (fun n s =>
    let pm := PMode.ofNat (s.regN (Reg.MA_PMODE n))
    let a := s.arrOf n
    if !(passRangeOk s n pm (bitOf i.flags.toNat 2) (sreg s n i.a) (sreg s n i.d) (sreg s n i.b) (sreg s n i.c)) then
      seqFault s n 3
    else if 4 ≤ a.passes.length then s
    else if bitOf i.flags.toNat 0 then
      match a.staged[a.claimed]? with
      | none => seqFault s n 4
      | some t => if tileFits t pm then queuePass s n i (some t) else seqFault s n 5
    else queuePass s n i a.lastTile)

/-- FENCE: waits until every queued pass has drained. -/
def execSeqFence (n : Fin 96) (i : FmtA) : State → Host.Outcome State Fault Refusal :=
  seqIssue n (.seqFence n i) (i.flags != 0) (fun n s => if (s.arrOf n).passes.isEmpty then seqNext s n else s)

/-- The handle of the job array n is mapped to, 0 none. -/
def arrayHandle (s : State) (n : Nat) : Nat :=
  match s.arrayJob n with
  | some (j, _) => j.handle
  | none => 0

/-- HALT: when the queue is empty sets DONE and stops (Table 3.7); source 128 + n reports it. -/
def execSeqHalt (n : Fin 96) (i : FmtA) : State → Host.Outcome State Fault Refusal :=
  seqIssue n (.seqHalt n i) (i.flags != 0) (fun n s =>
    if (s.arrOf n).passes.isEmpty then
      let s1 := (s.setFld (Fd.MA_STATUS_DONE n) 1).setFld (Fd.MA_STATUS_RUN n) 0
      pauseCheck (raiseShared s1 (128 + n)) (arrayHandle s n)
    else s)

/-! ### Synchronisation and preemption points -/

/-- The object a format S instruction names (R82). -/
def fmtSObject (s : State) (n : Nat) (i : FmtS) : Nat := if i.reg then sreg s n i.a % 16384 else i.index.toNat

/-- SIG (R87, R274). -/
def execSeqSig (n : Fin 96) (i : FmtS) : State → Host.Outcome State Fault Refusal :=
  seqIssue n (.seqSig n i) (i.rsv != 0) (fun n s =>
    let o := fmtSObject s n i
    if objOfJob s o (arrayHandle s n) then
      let s1 := s.setArr n { s.arrOf n with sinceSlot := o :: (s.arrOf n).sinceSlot }
      seqNext (passPoint (unitSignal s1 (seqAgent n) o 1 false) true n (s.regN (Reg.MA_SEQ_PC n))) n
    else seqFault s n 6)

/-- WAIT: issue stops until the object is satisfied, and then goes on at the next address (R87, R274). -/
def execSeqWait (n : Fin 96) (i : FmtS) : State → Host.Outcome State Fault Refusal :=
  seqIssue n (.seqWait n i) (i.rsv != 0) (fun n s =>
    let o := fmtSObject s n i
    if objOfJob s o (arrayHandle s n) then
      waitObj (s.setArr n { s.arrOf n with sinceSlot := o :: (s.arrOf n).sinceSlot }) (seqAgent n) o
    else seqFault s n 6)

/-- The preemption point of a program that a live-range record names. DEDUCED, log entry 42. -/
def Job.point (j : Job) (seq : Bool) (unit pc : Nat) : Option PrePoint :=
  j.image.points.find? (fun p => p.seq == seq && p.unit == unit && p.pc == pc)

/-- Registers that a slot point records (R339): S1 to S15, SPILL_CNT, the bindings, PMODE. -/
def snapRegs (s : State) (n : Nat) : List (Nat × Word) :=
  ((List.range 16).map (fun k => (Reg.MA_SEQ_S n k, s.reg (Reg.MA_SEQ_S n k)))) ++
  [(Reg.MA_SPILL_CNT n, s.reg (Reg.MA_SPILL_CNT n)), (Reg.MA_PMODE n, s.reg (Reg.MA_PMODE n)),
   (Reg.MA_ACC_STATUS n, s.reg (Reg.MA_ACC_STATUS n))] ++
  (List.range 8).flatMap (fun r => [(Reg.MA_BIND_W0 n r, s.reg (Reg.MA_BIND_W0 n r)), (Reg.MA_BIND_W1 n r, s.reg (Reg.MA_BIND_W1 n r))])

/-- At a slot point the sequencer's state is recorded and the list of the iteration's objects begins anew (R326, R339). -/
def slotPoint (s : State) (n : Nat) (j : Job) (la : Nat) : State :=
  match j.point true la (s.regN (Reg.MA_SEQ_PC n)) with
  | some p => if p.slot then
      s.setArr n { s.arrOf n with snap := some ⟨s.regN (Reg.MA_SEQ_PC n), snapRegs s n⟩, sinceSlot := [] } else s
  | none => s

/-- PPOINT: recorded in SEQ_PPOINT; with a pause pending the sequencer stops once its queue has drained (R83, R88). -/
def execSeqPpoint (n : Fin 96) (i : FmtI) : State → Host.Outcome State Fault Refusal :=
  seqIssue n (.seqPpoint n i) false (fun n s =>
    let pc := s.regN (Reg.MA_SEQ_PC n)
    match s.arrayJob n with
    | some (j, la) =>
      if j.pausing && !((s.arrOf n).passes.isEmpty) then s
      else
        let s1 := (slotPoint s n j la).setRegN (Reg.MA_SEQ_PPOINT n) (pc * 65536 + i.imm.toNat % 65536)
        if j.pausing then
          if pc = 1023 then seqFault s1 n 3
          else pauseCheck ((seqNext s1 n).setFld (Fd.MA_STATUS_RUN n) 0) j.handle
        else seqNext s1 n
    | none => s)

end Sys2Proof.Machine
end

