-- ==== Sys2Proof/Machine/Pass.lean ====
section
/-! DEFINITION. Passes and spills: lane sums, checksums, the OAB, the WAB, statistics and the dequant unit (R33 to R54, R56
to R74, R90 to R112, R332). -/

namespace Sys2Proof.Machine

/-! ### Array integers and slots (R35, R36, Table 3.1) -/

/-- A 4-bit code as an array integer: INT4, or FP4 in half units. -/
def code4 (fp4 : Bool) (c : Nat) : Int := if fp4 then fp4Half c else signed 4 c

/-- Byte k of a row. -/
def byteAt (bs : List Byte) (k : Nat) : Nat := (bs.getD k 0).toNat

/-- A complex INT4 weight part: -8 becomes -7 (R36). -/
def cplxPart (fp4 : Bool) (c : Nat) : Int := if fp4 then fp4Half c else max (-7) (signed 4 c)

/-- A real weight of a tile as an array integer, without INT8. -/
def weightReal (t : Tile) (k n : Nat) : Int :=
  let row := t.rows.getD n []
  match t.wfmt with
  | 2 => signed 2 (crumbAt row k)
  | 3 => tritAt row k
  | f => code4 (f == 1) (nibbleAt row k)

/-- Slot j of data cell (r, c) (Table 3.1). -/
def slotVal (t : Tile) (r c j : Nat) : Int :=
  if t.cplx then
    let b := byteAt (t.rows.getD c []) r
    let re := cplxPart (t.wfmt == 1) (b % 16)
    let im := cplxPart (t.wfmt == 1) (b / 16)
    match j with
    | 0 => re
    | 1 => -im
    | 2 => im
    | _ => re
  else if t.wfmt = 4 then
    let b := byteAt (t.rows.getD c []) (2 * r + j % 2)
    if j < 2 then signed 4 (b / 16) else ((b % 16 : Nat) : Int)
  else if t.wfmt = 2 ∨ t.wfmt = 3 then weightReal t (2 * r + j % 2) (2 * c + j / 2)
  else if j < 2 then weightReal t (2 * r + j) c
  else 0

/-! ### Activations and lanes (Table 3.2) -/

/-- Sub-passes of a pairing. -/
def PMode.subs (p : PMode) : Nat :=
  if p.cplx then 2 else if p.afmt = 3 ∧ p.wfmt = 4 then 4 else if p.afmt = 3 ∨ p.wfmt = 4 then 2 else 1

/-- Two M rows enter at once: INT2 activations. -/
def PMode.pairRows (p : PMode) : Bool := p.afmt == 2

/-- Lanes of a pairing. -/
def PMode.lanes (p : PMode) : Nat :=
  if p.cplx then 1 else if p.trans then 2 else if p.pairRows then 4 else if p.two then 2 else 1

/-- Activation element k of a row that sub-pass `sub` sends: INT8 is split into its high and low parts (R35). -/
def actVal (p : PMode) (sub : Nat) (row : List Byte) (k : Nat) : Int :=
  match p.afmt with
  | 2 => signed 2 (crumbAt row k)
  | 3 =>
    let b := byteAt row k
    let high := if p.wfmt = 4 then decide (sub < 2) else decide (sub = 0)
    if high then signed 4 (b / 16) else ((b % 16 : Nat) : Int)
  | f => code4 (f == 1) (nibbleAt row k)

/-- Slots of a sub-pass and lane of a normal real pairing: the first of the two. -/
def slotBase (p : PMode) (sub lane : Nat) : Nat :=
  if p.wfmt = 4 then (if sub % 2 = 1 then 2 else 0)
  else if p.two then 2 * (lane % 2)
  else 0

/-- The two slots of a complex sub-pass (Table 3.2, R69). -/
def cplxSlots (p : PMode) (sub : Nat) : Nat × Nat := if p.conj then (sub, sub + 2) else (2 * sub, 2 * sub + 1)

/-- The sum of a lane: of data column x in normal mode, of data row x in a transposed pass (R58, R68). It runs over the full depth of 128
rows: a program whose last K-group is shorter pads it with zeros; and the weights are read in the format their tile was staged in. DESIGN
CHOICE, log entry 111. -/
def laneSum (p : PMode) (t : Tile) (rows : List (List Byte)) (sub lane x : Nat) : Int :=
  let cell (i : Nat) : Nat × Nat := if p.trans then (x, i) else (i, x)
  let row := rows.getD (if p.pairRows then lane / 2 else 0) []
  ((List.range 128).map (fun i =>
    let (r, c) := cell i
    if p.cplx then
      let b := byteAt row i
      let (j0, j1) := cplxSlots p sub
      code4 (p.afmt == 1) (b % 16) * slotVal t r c j0 + code4 (p.afmt == 1) (b / 16) * slotVal t r c j1
    else if p.trans then actVal p sub row i * slotVal t r c lane
    else
      let j := slotBase p sub lane
      actVal p sub row (2 * i) * slotVal t r c j + actVal p sub row (2 * i + 1) * slotVal t r c (j + 1))).sum

/-- What a sub-pass sum weighs in the drain's combination (Table 3.2). -/
def PMode.weight (p : PMode) (sub : Nat) : Int :=
  match p.subs, sub with
  | 4, 0 => 256
  | 4, 3 => 1
  | 4, _ => 16
  | 2, 0 => if p.cplx then 1 else 16
  | _, _ => 1

/-- The sums of one entry of the grid: sub-pass, lane, 128 data sums, checksum output. -/
structure LaneOut where
  sub : Nat
  lane : Nat
  data : List Int
  check : Int

/-- A lane of `w` bits that carries an exact sum with an error of the grid (R58): without one the sum fits. -/
def laneBits (w : Nat) (x d : Int) : Int := if d = 0 then x else signed w (wrapN w (x + d))

/-- Errors of the grid at one place. -/
def errorAt (es : List GridError) (sub lane x : Nat) : Int :=
  ((es.filter (fun e => e.sub.val == sub && e.lane.val == lane && e.column.val == x)).map (fun e => e.delta)).sum

/-- All lane outputs of the M rows that enter together, in comparison order. -/
def laneOuts (p : PMode) (t : Tile) (rows : List (List Byte)) (es : List GridError) : List LaneOut :=
  (List.range p.subs).flatMap (fun sub => (List.range p.lanes).map (fun lane =>
    let exact := (List.range 128).map (laneSum p t rows sub lane)
    ⟨sub, lane, exact.zipIdx.map (fun d => laneBits 20 d.1 (errorAt es sub lane d.2)), laneBits 32 exact.sum (errorAt es sub lane 128)⟩))

/-- A free sum of one lane, for weights that are undefined (R327). -/
def freeLane (s : State) (sub lane : Nat) : LaneOut × State :=
  let (v, s1) := (List.range 128).foldl (fun (a : List Int × State) _ =>
    let (x, t) := a.2.free
    (a.1 ++ [signed 20 x.toNat], t)) ([], s)
  let (c, s2) := s1.free
  (⟨sub, lane, v, signed 32 c.toNat⟩, s2)

/-- Lane outputs with undefined weights. -/
def freeLanes (s : State) (p : PMode) : List LaneOut × State :=
  ((List.range p.subs).flatMap (fun sub => (List.range p.lanes).map (fun lane => (sub, lane)))).foldl
    (fun (a : List LaneOut × State) q => let (o, t) := freeLane a.2 q.1 q.2; (a.1 ++ [o], t)) ([], s)

/-- Lane sum x of the sub-pass and lane. -/
def sumAt (os : List LaneOut) (sub lane x : Nat) : Int :=
  match os.find? (fun o => o.sub == sub && o.lane == lane) with
  | some o => o.data.getD x 0
  | none => 0

/-- The result of output index j of M row m0 + row (R61, Table 3.2). -/
def outSum (p : PMode) (os : List LaneOut) (row j : Nat) : Int :=
  if p.cplx then sumAt os (j % 2) 0 (j / 2)
  else
    let lane := if p.pairRows then 2 * row + j % 2 else if p.lanes = 2 then j % 2 else 0
    let x := if p.lanes = 1 then j else j / 2
    ((List.range p.subs).map (fun sub => p.weight sub * sumAt os sub lane x)).sum

/-! ### Checksum comparison and capture (R71 to R73, R332) -/

/-- The register block of array n. -/
def maBlock (n : Nat) : Nat := 0x400000 + 0x4000 * n

/-- T of a lane: the sum of its 128 data outputs (R71). -/
def LaneOut.tree (o : LaneOut) : Int := o.data.sum

/-- M row within the pass that a lane output belongs to. -/
def laneRow (p : PMode) (m : Nat) (o : LaneOut) : Nat := if p.pairRows then m + o.lane / 2 else m

/-- The capture of the lane outputs of a pass, from the words that entered (R332). -/
def captureOf (p : Pass) (pm : PMode) (words : List (List Byte)) (os : List LaneOut) : Capture :=
  ⟨p.pmode, pm.subs, p.tile, words, os.map (fun o => ⟨o.sub, o.lane, o.data, o.tree, o.check⟩)⟩

/-- The first mismatch of an array with no decision open is captured in the diagnostic area and opens one (R332, R337). -/
def openDecision (s : State) (n pc row : Nat) (t c : Int) (cap : Capture) : State :=
  if s.decisions.any (fun d => !d.ve && d.unit == n) then s
  else
    let d : Decision := ⟨n, false, 1, 0, pc, row, wrapN 32 t, wrapN 32 c, [], some cap⟩
    { diagFill s 0 n with decisions := s.decisions ++ [d] }.setFld (Fd.KAT_ARRAY_DECISION n) 1

/-- One mismatched comparison: CHK_LAST, and the doubt of the code blocks that draw on its row (R72). -/
def mismatchOne (s : State) (n : Nat) (p : Pass) (pm : PMode) (o : LaneOut) : State :=
  let row := laneRow pm p.next o
  let s1 := s.setRegN (Reg.MA_CHK_LAST n) (row % 65536 * 65536 + b2n pm.trans * 16 + o.lane * 4 + o.sub)
  markDraw s1 n p.slot p.pc row 0

/-- What the drain does for one comparison that failed: the pass is counted and recorded once, with its first mismatch. -/
def mismatch (a : State × Bool) (n : Nat) (p : Pass) (pm : PMode) (cap : Capture) (o : LaneOut) : State × Bool :=
  let s1 := mismatchOne a.1 n p pm o
  if a.2 then (s1, true)
  else
    let row := laneRow pm p.next o
    let s2 := (s1.bump (Reg.MA_CHK_MISMATCH n)).log 0x05 32 (maBlock n) (p.pc * 2 ^ 32 + row)
      (wrapN 32 o.tree + wrapN 32 o.check * 2 ^ 32)
    (openDecision s2 n p.pc row o.tree o.check cap, true)

/-- Compare every lane output; the second part: the pass has mismatched. A fenced checksum path compares nothing, and
every pass is doubtful (R73). -/
def compareLanes (s : State) (n : Nat) (p : Pass) (pm : PMode) (words : List (List Byte)) (os : List LaneOut) : State × Bool :=
  if s.flag (Fd.MA_STATUS_CHK_FENCED n) then
    let s1 := markDraw s n p.slot p.pc p.next 0
    (if pm.pairRows then markDraw s1 n p.slot p.pc (p.next + 1) 0 else s1, p.mismatched)
  else os.foldl (fun a o => if o.tree = o.check then a else mismatch a n p pm (captureOf p pm words os) o) (s, p.mismatched)

/-- The code blocks that draw on an array doubtful on its known-answer tests when the slot ticked (R313). -/
def markKat (s : State) (n : Nat) (slot : Option SlotRef) (pc row : Nat) : State :=
  match slot with
  | some (c, id) => match s.slotCtx c id with
    | some x => if x.katDoubt.contains n then markDraw s n slot pc row 5 else s
    | none => s
  | none => s

/-! ### The WAB (R94 to R101) -/

/-- Bytes of a WAB entry. -/
def wabWidth (compact : Bool) : Nat := if compact then 4 else 8

/-- Read a WAB entry at an LSP address: its value; a compact word that SPILL did not write is counted (R101). -/
def wabRead (s : State) (n addr : Nat) (compact : Bool) : Int × State :=
  let r := lspRead s n addr (wabWidth compact)
  let w := leNat r.bytes
  if compact then (compactVal w, if compactBad w then r.state.bump (Reg.MA_WAB_BADEXP n) else r.state)
  else (signed 48 w, r.state)

/-- Job seed and logical number that key the generator of an array (R102). -/
def genKey (s : State) (n : Nat) : Nat × Nat :=
  match s.arrayJob n with
  | some (j, la) => (j.seed, la)
  | none => (0, 0)

/-- A 64-bit two's complement pattern. -/
def sext64 (x : Int) : Nat := wrapN 64 x

/-- A WAB saturation is counted and recorded (R96, R99). -/
def wabSat (s : State) (n e data : Nat) : State := (s.bump (Reg.MA_WAB_SAT n)).log 0x13 32 (maBlock n) e data

/-- The bytes that a spill stores for an exact value of entry e, with its saturation. -/
def wabEncode (s : State) (n e : Nat) (compact : Bool) (x : Int) : List Byte × State :=
  if compact then
    let (seed, la) := genKey s n
    let (w, sat) := srRound x (gen32 seed 0 la e (s.regN (Reg.MA_SPILL_CNT n)))
    (leBytes 4 w, if sat then wabSat s n e w else s)
  else
    let y := satS 48 x
    (leBytes 8 (sext64 y), if y = x then s else wabSat s n e (sext64 y))

/-- The WAB value bound to entry e, 0 without one. -/
def boundValue (s : State) (n e : Nat) : Int × State :=
  if bindHolds s n e then
    let r := e / 4096
    let compact := s.flag (Fd.MA_BIND_W0_COMPACT n r)
    wabRead s n (bindAddr s n r + (e - bindBase s n r) * wabWidth compact) compact
  else (0, s)

/-- One entry of a SPILL (R96, R97). -/
def spillEntry (s : State) (n a b e : Nat) (compact init out ssp : Bool) : State :=
  let v := signed 32 (s.oabAt n e)
  let addr := b + (e - a) * wabWidth compact
  let (old, s1) :=
    if init then (0, s) else if out then boundValue s n e else wabRead s n addr compact
  let (bs, s2) := wabEncode s1 n e compact (old + v)
  let s3 := if out && ssp then busWrite s2 32 (sspBase + addr) bs else lspWrite s2 n addr bs
  s3.setOab n e 0

/-- Bind region r to a range (Table 4.5). -/
def bindRegion (s : State) (n r a c b : Nat) (compact : Bool) : State :=
  let w0 := 2 ^ 31 + b2n compact * 2 ^ 30 + (c - 1) * 65536 + a
  ((s.setRegN (Reg.MA_BIND_W0 n r) w0).setRegN (Reg.MA_BIND_W1 n r) b).setRegBit (Reg.MA_ACC_STATUS n) r true

/-- Is region r bound to exactly this range and mode (R96)? -/
def boundAs (s : State) (n r a c b : Nat) (compact : Bool) : Bool :=
  bound s n r && bindBase s n r == a && bindCount s n r == c && bindAddr s n r == b &&
    s.flag (Fd.MA_BIND_W0_COMPACT n r) == compact

/-- Does a queued pass, which has not finished, write into a range of entries (R99): its results, or the statistics record of a pass
with STATS and DQ (R108)? -/
def passWrites (p : Pass) (a c : Nat) : Bool :=
  let pm := PMode.ofNat p.pmode
  rangesMeet p.base (p.rows * pm.entries) a c || (pm.stats && p.dq && rangesMeet statsBase (6 * pm.entries) a c)

/-- SPILL with its checks made: every entry, then the binding and the counts (R96, R97). SPILL_CNT counts modulo 2^32. DESIGN CHOICE,
log entry 111. -/
def spillRun (s : State) (n a b c : Nat) (compact init out ssp : Bool) : State :=
  let r := a / 4096
  if oabBad s n a c then oabFault s n a else
  let s1 := (List.range c).foldl (fun t k => spillEntry t n a b (a + k) compact init out ssp) (oabCorrect s n a c)
  let s2 := if out then unbind s1 n r else bindRegion s1 n r a c b compact
  (s2.countMod (Reg.MA_SPILL_CNT n) 32 1).bump (Reg.MA_SPILLS n)

/-- Does a bound WAB entry of one of c OAB entries from e lie in a poisoned line? The first such LSP address. -/
def wabPoison (s : State) (n e c : Nat) : Option Nat :=
  (List.range c).findSome? (fun k =>
    let r := (e + k) / 4096
    let w := wabWidth (s.flag (Fd.MA_BIND_W0_COMPACT n r))
    let a := bindAddr s n r + (e + k - bindBase s n r) * w
    if bindHolds s n (e + k) && poisoned s (lspBase n + a) w then some a else none)

/-- SPILL (R95 to R99). It completes in one step, so that ACC_STATUS.SPILL_BUSY reads 0, also while it waits for passes. DESIGN CHOICE,
log entry 31. -/
def execSeqSpill (n : Fin 96) (i : FmtA) : State → Host.Outcome State Fault Refusal :=
  let fl := i.flags.toNat
  seqIssue n (.seqSpill n i) (decide (16 ≤ fl) || i.d != 0 || (bitOf fl 3 && !(bitOf fl 2))) (fun n s =>
    let a := sreg s n i.a
    let b := sreg s n i.b
    let c := sreg s n i.c
    let compact := bitOf fl 0
    let size := c * wabWidth compact
    let fits := if bitOf fl 3 then decide (b + size ≤ sspSize) else lspWritable s n b size
    if c = 0 ∨ 4096 < c ∨ 32768 < a + c ∨ a / 4096 ≠ (a + c - 1) / 4096 ∨ b % 64 ≠ 0 ∨ !fits then seqFault s n 3
    else if !(bitOf fl 1) && !(bitOf fl 2) && !(boundAs s n (a / 4096) a c b compact) then seqFault s n 3
    else if (s.arrOf n).passes.any (fun p => passWrites p a c) then s
    else match (if bitOf fl 1 then none else wabPoison s n a c) with
    | some w => computeReset (noteUnit 32 s (lspBase n + w)) 6
    | none => seqNext (spillRun s n a b c compact (bitOf fl 1) (bitOf fl 2) (bitOf fl 3)) n)

/-! ### The dequant unit (R46 to R52, R485) -/

/-- Number of FP4 operands, u (R35). -/
def PMode.u (p : PMode) : Nat := b2n (p.afmt == 1) + b2n (p.wfmt == 1)

/-- DQ_MODE fields. -/
def dqGrouped (m : Nat) : Bool := bitOf m 3
/-- DQ_MODE.DYN_SCALE. -/
def dqDynamic (m : Nat) : Bool := bitOf m 4
/-- DQ_MODE.SR. -/
def dqStoch (m : Nat) : Bool := bitOf m 5
/-- DQ_MODE.CPLX_W. -/
def dqCplxW (m : Nat) : Bool := bitOf m 6

/-- The exact product of R46 with a second-level value's bits. -/
def dequant (sum : Int) (u : Nat) (prod : Frac) (second : Nat) : Frac :=
  Frac.mul (Frac.mul (Frac.shift (Frac.ofInt sum) (-(u : Int))) prod) (fp32Val second)

/-- The float format of an output format. -/
def outFloat (f : Nat) : FloatFmt := if f = 1 then bf16 else if f = 2 then fp16 else fp32

/-- FP4 grid in half units. -/
def fp4Grid : List Int := [-12, -8, -6, -4, -3, -2, -1, 0, 1, 2, 3, 4, 6, 8, 12]

/-- Re-quantise an exact quotient (R49, R50): the 4-bit code and whether it saturated. `r` is the generator's output. DEDUCED, log entry 28. -/
def requant (dqMode outFmt : Nat) (x : Frac) (r : Nat) : Nat × Bool :=
  if outFmt = 3 then
    let (v, sat) := if dqStoch dqMode then
        let y := stochInt x r
        let lo : Int := if dqCplxW dqMode then -7 else -8
        if 7 < y then ((7 : Int), true) else if y < lo then (lo, true) else (y, false)
      else roundInt4 (dqCplxW dqMode) x
    (wrapN 4 v, sat)
  else
    let (h, sat) := if dqStoch dqMode then
        if Frac.lt ⟨6, 1⟩ x.abs then ((if x.num < 0 then (-12 : Int) else 12), true)
        else (roundStoch fp4Grid (Frac.shift x 1) r, false)
      else roundFp4 x
    (fp4Code h, sat)

/-- Scale products of a row: the activation scale of its block times the weight scale of each output's channel. -/
def scaleProduct (pm : PMode) (act : Nat) (ws : List Byte) (j : Nat) : Frac :=
  Frac.mul (ue5m3 act) (ue5m3 (byteAt ws (if pm.cplx then j / 2 else j)))

/-- The value of an output before its output scale: in grouped mode the FP32 running value, else R46's product with H. -/
def preScale (p : Pass) (pm : PMode) (prod : Frac) (v : Int) : Frac :=
  if dqGrouped p.dqMode then fp32Val v.toNat else dequant v pm.u prod p.h

/-- Pack 4-bit codes, the first in the low half (R37). -/
def packNibbles : List Nat → List Byte
  | a :: b :: rest => BitVec.ofNat 8 (a + 16 * b) :: packNibbles rest
  | [a] => [BitVec.ofNat 8 a]
  | [] => []

/-- Write bytes of an output row to the DQOUT destination. -/
def dqWrite (s : State) (n : Nat) (p : Pass) (row : Nat) (bs : List Byte) : State :=
  let a := p.dest.addr + row * p.dest.stride
  if p.dest.ssp then busWrite s 32 (sspBase + a) bs else lspWrite s n a bs

/-- Re-quantise a row under an output scale and write it; with scale 0 every element is zero (R49). -/
def requantRow (s : State) (n : Nat) (p : Pass) (pm : PMode) (act : Nat) (ws : List Byte) (sout row : Nat) (vs : List Int) : State :=
  let fmt := p.dqMode % 8
  let (seed, la) := genKey s n
  let codes := vs.zipIdx.map (fun v =>
    if sout = 0 then (0, false)
    else requant p.dqMode fmt (Frac.div (preScale p pm (scaleProduct pm act ws v.2) v.1) (ue5m3 sout))
      (gen32 seed 1 la (p.base + row * pm.entries + v.2) p.count))
  let s1 := s.bumpBy (Reg.MA_DQ_SAT n) (codes.filter (fun c => c.2)).length
  dqWrite s1 n p row (packNibbles (codes.map (fun c => c.1)))

/-- Is x above the largest value of the scale range for limit L (R51)? -/
def scaleClamps (amax : Frac) (l : Int) : Bool := Frac.lt (Frac.mul ⟨l, 1⟩ ⟨122880, 1⟩) amax

/-- Magnitudes of a gathered half before its output scale. -/
def Half.mags (h : Half) : List Frac :=
  let pm := PMode.ofNat h.pass.pmode
  h.rows.flatMap (fun r => r.2.zipIdx.map (fun v => (preScale h.pass pm (scaleProduct pm h.act h.weights v.2) v.1).abs))

/-- Block of 16 rows that a half belongs to. -/
def Half.rowBlock (h : Half) : Nat := (match h.rows with | r :: _ => r.1 / 16 | [] => 0)

/-- LSP address of the scale byte of a half's block. -/
def Half.scaleAddr (h : Half) : Nat := h.pass.dest.scale + h.rowBlock * h.pass.dest.scaleStride

/-- Are two halves of one layer in the block that their scale byte names? -/
def Half.block (h k : Half) : Bool := h.scaleAddr == k.scaleAddr && h.rowBlock == k.rowBlock && h.pass.layer == k.pass.layer

/-- Are they the same half: the same output rows? -/
def Half.again (h k : Half) : Bool := h.block k && h.pass.dest.addr == k.pass.dest.addr

/-- Are two halves, of passes of 128 channels each, the one block of 256 channels that their scale byte names (R51)? -/
def Half.pairs (h k : Half) : Bool :=
  h.block k && h.pass.dest.addr != k.pass.dest.addr &&
    (PMode.ofNat h.pass.pmode).entries == 128 && (PMode.ofNat k.pass.pmode).entries == 128

/-- Write the rows of a half under a scale. Elements that a clamped half has counted already are not counted again. -/
def Half.write (h : Half) (s : State) (n : Nat) (code : Nat) : State :=
  let pm := PMode.ofNat h.pass.pmode
  let s1 := h.rows.foldl (fun t r => requantRow t n h.pass pm h.act h.weights code r.1 r.2) s
  if h.clamped then s1.setRegN (Reg.MA_DQ_SAT n) (s.regN (Reg.MA_DQ_SAT n)) else s1

/-- The halves of a layer that a new one finds. A half that comes again without adding to its running value begins a new block. -/
def Half.found (h : Half) (ks : List Half) : List Half :=
  let anew := ks.any h.again && !(dqGrouped h.pass.dqMode && h.pass.acc)
  ks.filter (fun k => k.pass.layer == h.pass.layer && !(anew && h.block k))

/-- Choose the dynamic scale of a gathered block, write its scale byte and its rows (R51). Where two passes form a block of 256 channels,
the drain of each, once both are there, chooses the block's scale and writes the other's rows again. DESIGN CHOICE, log entry 112. -/
def dynamicBlock (s : State) (n : Nat) (p : Pass) (act : Nat) (ws : List Byte) : State :=
  let a := s.arrOf n
  let h : Half := ⟨p, act, ws, a.block, false⟩
  let found := h.found a.halves
  let other := found.find? (fun k => k.pairs h)
  let mags := h.mags ++ (match other with | some k => k.mags | none => [])
  let amax := mags.foldl (fun a x => if Frac.lt a x then x else a) ⟨0, 1⟩
  let l : Int := if p.dqMode % 8 = 3 then 7 else 6
  let clamp := scaleClamps amax l
  let code := if amax.isZero then 0x78 else if clamp then 0xFF else ue5m3Ceil (Frac.div amax ⟨l, 1⟩)
  let counted := found.any (fun k => h.block k && k.clamped)
  let s1 := if clamp && !counted then s.bump (Reg.MA_DQ_SCALE_CLAMP n) else s
  let s2 := match other with | some k => k.write s1 n code | none => s1
  let s3 := lspWrite (h.write s2 n code) n h.scaleAddr [BitVec.ofNat 8 code]
  let rest := (found.filter (fun k => !(h.again k))).map (fun k => if k.pairs h then { k with clamped := k.clamped || clamp } else k)
  s3.setArr n { s3.arrOf n with block := [], halves := rest ++ [{ h with clamped := clamp }] }

/-- Write a row in a floating-point format (R46, R47). -/
def floatRow (s : State) (n : Nat) (p : Pass) (pm : PMode) (act : Nat) (ws : List Byte) (row : Nat) (vs : List Int) : State :=
  let fmt := p.dqMode % 8
  let vals := vs.zipIdx.map (fun v =>
    (outFloat fmt).roundSat (if dqGrouped p.dqMode then fp32Val v.1.toNat else dequant v.1 pm.u (scaleProduct pm act ws v.2) p.g))
  let s1 := s.bumpBy (Reg.MA_DQ_SAT n) (vals.filter (fun c => c.2)).length
  dqWrite s1 n p row (vals.flatMap (fun c => leBytes (if fmt = 0 then 4 else 2) c.1))

/-- Add a final sum to a record, its fields saturating (R108, R109). -/
def StatRec.note (r : StatRec) (x : Int) : StatRec :=
  ⟨r.count + 1, satS 64 (r.sum + x), min (r.sumsq + x.natAbs * x.natAbs) (2 ^ 64 - 1)⟩

/-- Key of the record of output index j of array n. -/
def recKey (n j : Nat) : Nat := 2048 * n + j

/-- CAL takes a final sum for the slot that its pass draws into, or for the shadow check (R199, R206). DESIGN CHOICE, log entry 44. -/
def noteStat (s : State) (slot : Option SlotRef) (n j : Nat) (x : Int) : State :=
  let add (m : List (Nat × StatRec)) (k : Nat) : List (Nat × StatRec) := Tbl.set statReset m k ((Tbl.get statReset m k).note x)
  match slot with
  | none => s
  | some (c, id) =>
    if c = 8 then { s with shadowRecs := add s.shadowRecs (2 ^ 24 * id + recKey n j) }
    else match s.slotCtx c id with
      | some y => s.setSlotCtx c { y with recs := add y.recs (recKey n j) }
      | none => s

/-- Add to a statistics record (R108, R109): entries 31,232 + 6j on. -/
def statsUpdate (s0 : State) (slot : Option SlotRef) (n j : Nat) (x : Int) : State :=
  let s := noteStat s0 slot n j x
  let e := statsBase + 6 * j
  let get (k : Nat) : Nat := s.oabAt n (e + k) + 2 ^ 32 * s.oabAt n (e + k + 1)
  let count := (get 0 + 1) % 2 ^ 64
  let sum := signed 64 (get 2) + x
  let sq := get 4 + x.natAbs * x.natAbs
  let sum' := satS 64 sum
  let sq' := min sq (2 ^ 64 - 1)
  let put (t : State) (k v : Nat) : State := (t.setOab n (e + k) (v % 2 ^ 32)).setOab n (e + k + 1) (v / 2 ^ 32)
  let s1 := put (put (put s 0 count) 2 (sext64 sum')) 4 sq'
  s1.bumpBy (Reg.MA_STATS_OVF n) (b2n (decide (sum ≠ sum')) + b2n (decide (sq ≠ sq')))

/-- Add a sum into an OAB entry, saturating (R61, R90, R93): the entry's value. -/
def oabAdd (s : State) (n e : Nat) (acc : Bool) (x : Int) : Int × State :=
  let y := (if acc then signed 32 (s.oabAt n e) else 0) + x
  let z := satS 32 y
  let s1 := s.setOab n e (wrapN 32 z)
  (z, if z = y then s1 else (s1.bump (Reg.MA_OAB_OVF n)).log 0x12 32 (maBlock n) e (sext64 z))

/-- The integer sum that is de-quantised: the bound WAB entry is added, within 48 bits (R99). -/
def finalSum (s : State) (n e : Nat) (x : Int) : Int × State :=
  if bindHolds s n e then
    let (w, s1) := boundValue s n e
    let y := satS 48 (x + w)
    (y, if y = x + w then s1 else wabSat s1 n e (sext64 y))
  else (x, s)

/-- A grouped-mode step: the group's contribution rounded to FP32, added to the running value (R45, R485): its bits. Where the output is
INT4 or FP4 the contributions are formed with H. DESIGN CHOICE, log entry 112. -/
def groupAdd (s : State) (n e : Nat) (p : Pass) (pm : PMode) (prod : Frac) (x : Int) : Int × State :=
  let (c, sat1) := fp32.roundSat (dequant x pm.u prod (if p.dqMode % 8 ≤ 2 then p.g else p.h))
  let (r, sat2) := if p.acc then fp32.roundSat (Frac.add (fp32Val (s.oabAt n e)) (fp32Val c)) else (c, false)
  ((r : Int), (s.setOab n e r).bumpBy (Reg.MA_DQ_SAT n) (b2n sat1 + b2n sat2))

/-- One output element: OAB, WAB, statistics; the value that the dequant unit then takes. A pass without DQ adds an integer in grouped
mode too; a bound entry of a grouped pass is added to the group's sum; every group's sum is a final one for statistics. DESIGN CHOICE,
log entry 112. -/
def drainElement (s : State) (n : Nat) (p : Pass) (pm : PMode) (act : Nat) (ws : List Byte) (row j : Nat) (x : Int) :
    Int × State :=
  let e := p.base + row * pm.entries + j
  if !p.dq then oabAdd s n e p.acc x
  else if dqGrouped p.dqMode then
    let (f, s1) := finalSum s n e x
    let s2 := if pm.stats then statsUpdate s1 p.slot n j f else s1
    groupAdd s2 n e p pm (scaleProduct pm act ws j) f
  else
    let (y, s1) := oabAdd s n e p.acc x
    let (f, s2) := finalSum s1 n e y
    (f, if pm.stats then statsUpdate s2 p.slot n j f else s2)

/-- One M row: every element, then the output of a pass with DQ. DESIGN CHOICE, log entry 31. -/
def drainRow (s : State) (n : Nat) (p : Pass) (pm : PMode) (act : Nat) (ws : List Byte) (row : Nat) (sums : List Int) : State :=
  let (vs, s1) := sums.zipIdx.foldl (fun (a : List Int × State) x =>
    let (v, t) := drainElement a.2 n p pm act ws row x.2 x.1
    (a.1 ++ [v], t)) ([], s)
  if !p.dq then s1
  else if p.dqMode % 8 ≤ 2 then floatRow s1 n p pm act ws row vs
  else
    let ends := decide (row % 16 = 15) || decide (row + 1 = p.rows)
    if dqDynamic p.dqMode then
      let s2 := s1.setArr n { s1.arrOf n with block := (s1.arrOf n).block ++ [(row, vs)] }
      if ends then dynamicBlock s2 n p act ws else s2
    else
      let s2 := requantRow s1 n p pm act ws p.sout row vs
      if ends then lspWrite s2 n (p.dest.scale + row / 16 * p.dest.scaleStride) [BitVec.ofNat 8 p.sout] else s2

/-- The drain has finished with rows of the oldest pass; after the last one the pass is complete (PASSES). -/
def passAdvance (s : State) (n : Nat) (p : Pass) (rows : Nat) (mis : Bool) : State :=
  let a := s.arrOf n
  let next := p.next + rows
  if p.rows ≤ next then (s.setFront n a (a.passes.drop 1)).bump (Reg.MA_PASSES n)
  else s.setArr n { a with passes := { p with next := next, mismatched := mis } :: a.passes.drop 1 }

/-- Cycles lost while the row entered and drained (R64 to R66). -/
def countStalls (s : State) (n : Nat) (x : Stalls) : State :=
  (((s.bumpBy (Reg.MA_BUBBLES n) x.bubbles.toNat).bumpBy (Reg.MA_PAD_CYCLES n) x.padding.toNat).bumpBy
    (Reg.MA_FREEZE_WF n) x.freezeWf.toNat).bumpBy (Reg.MA_FREEZE_DR n) x.freezeDr.toNat

/-- The scales a row needs: the activation scale of its block and the weight scales, and whether one was poisoned. -/
def readScales (s : State) (n : Nat) (p : Pass) (pm : PMode) : Nat × List Byte × Bool × State :=
  if !p.dq then (0, [], false, s)
  else
    let a := lspRead s n (p.scales.act + p.next / 16 * p.scales.stride) 1
    let w := lspRead a.state n p.scales.weight (if pm.cplx then 128 else pm.entries)
    (byteAt a.bytes 0, w.bytes, a.poisoned || w.poisoned, w.state)

/-- A pass with ACC clear releases bindings as it begins to drain, so that the passes before it still use them (R99); its own sums do not
add the entry that it releases, and its statistics records release none. DESIGN CHOICE, log entry 112. -/
def passStart (s : State) (n : Nat) (p : Pass) : State :=
  if p.next = 0 ∧ p.acc = false then abandonBindings s n p.base (p.rows * (PMode.ofNat p.pmode).entries) else s

/-- Drain the next M row of the oldest pass, or the next two of the INT2 × INT2 pairing. -/
def drainNext (s0 : State) (n : Nat) (p : Pass) (es : List GridError) (st : Stalls) : State :=
  let pm := PMode.ofNat p.pmode
  let s := passStart s0 n p
  let two := pm.pairRows && decide (p.next + 1 < p.rows)
  let r0 := lspRead (countStalls s n st) n (p.addr + p.next * p.stride) pm.actBytes
  let r1 := if two then lspRead r0.state n (p.addr + (p.next + 1) * p.stride) pm.actBytes
    else ⟨[], false, false, r0.state⟩
  let (act, ws, bad, s') := readScales r1.state n p pm
  let e := p.base + p.next * pm.entries
  let rows := if two then 2 else 1
  let s1 := oabCorrect (if p.acc then oabCorrect s' n e (rows * pm.entries) else s') n statsBase (if pm.stats then 6 * pm.entries else 0)
  if r0.poisoned || r1.poisoned || bad then computeReset s1 6
  else if (p.acc && oabBad s1 n e (rows * pm.entries)) || (pm.stats && oabBad s1 n statsBase (6 * pm.entries)) then oabFault s1 n e
  else match (if p.dq then wabPoison s1 n e (rows * pm.entries) else none) with
  | some a => computeReset (noteUnit 32 s1 (lspBase n + a)) 6
  | none =>
    let (os, s2) := match p.tile with
      | some t => (laneOuts pm t [r0.bytes, r1.bytes] es, s1)
      | none => freeLanes s1 pm
    let (s3, mis) := compareLanes s2 n p pm (if two then [r0.bytes, r1.bytes] else [r0.bytes]) os
    let s4 := markKat (if two then markKat s3 n p.slot p.pc (p.next + 1) else s3) n p.slot p.pc p.next
    let row (t : State) (k : Nat) : State :=
      drainRow t n p pm act ws (p.next + k) ((List.range pm.entries).map (outSum pm os k))
    let s5 := row s4 0
    passAdvance (if two then row s5 1 else s5) n p (if two then 2 else 1) mis

/-- PASS_DRAIN: the drain forms the next M row of array n's oldest pass (R60, R61, R71). `errors` are the grid's own errors
in that row, `stalls` the cycles it lost. -/
def execPassDrain (n : Fin 96) (errors : List GridError) (stalls : Stalls) (s : State) :
    Host.Outcome State Fault Refusal :=
  up s (fun s =>
    if s.flag (Fd.MA_STATUS_FROZEN n.val) || s.flag (Fd.MA_STATUS_FENCED n.val) then s
    else match (s.arrOf n.val).passes with
      | [] => s
      | p :: _ => drainNext s n.val p errors stalls)

end Sys2Proof.Machine
end

