-- ==== Sys2Proof/Machine/FixedFn.lean ====
section
/-! DEFINITION. The fixed functions of R128: each is a free choice of Config within 2 ulp of the exact value, which is bracketed in integer
arithmetic. -/

namespace Sys2Proof.Machine

/-- Spacing of FP32 at a non-zero value. -/
def ulp32 (v : Frac) : Frac := Frac.shift ⟨1, 1⟩ (max (ilog2 v.num.natAbs v.den) (-126) - 23)

/-- Is a value within 2 ulp of everything between two bounds (R128)? -/
def within2 (y lo hi : Frac) : Bool :=
  let two := Frac.shift (ulp32 lo) 1
  Frac.le (Frac.sub y lo).abs two && Frac.le (Frac.sub y hi).abs two

/-- The function's choice where it is a finite number within 2 ulp of the bounds, else the nearest number to the lower one.
DESIGN CHOICE, log entry 114. -/
def fixedChoice (choice : Nat) (lo hi : Frac) : Nat :=
  if fp32Finite choice && choice != 0x80000000 && within2 (fp32Val choice) lo hi then choice else (fp32.roundSat lo).1

/-- FP32 bits of an FP32 value, as an argument of a fixed function. -/
def argBits (v : Frac) : Word32 := BitVec.ofNat 32 (fp32.roundSat v).1

/-- One factor 2^(2^-i) of a power of two, below and above, in units of 2^-64; its successor is its square root. -/
def rootNext (r : Nat × Nat) : Nat × Nat := (rootFrom 2 (r.1 * 2 ^ 64) 66 0, rootFrom 2 (r.2 * 2 ^ 64) 66 0 + 1)

/-- The product of the factors that the bits of a fraction f select, `k` bits from the highest, below and above, in units of 2^-64. -/
def powBits : Nat → Frac → Nat × Nat → Nat × Nat → Nat × Nat
  | 0, _, _, p => p
  | k + 1, f, r, p =>
    let q := rootNext r
    let g := Frac.shift f 1
    if Frac.lt g ⟨1, 1⟩ then powBits k g q p
    else powBits k (Frac.sub g ⟨1, 1⟩) q (p.1 * q.1 / 2 ^ 64, p.2 * q.2 / 2 ^ 64 + 1)

/-- Bounds of 2^x. -/
def exp2Bounds (x : Frac) : Frac × Frac :=
  let n := x.floor
  let p := powBits 64 (Frac.sub x ⟨n, 1⟩) (2 ^ 65, 2 ^ 65) (2 ^ 64, 2 ^ 64)
  (Frac.shift ⟨p.1, 1⟩ (n - 64), Frac.shift ⟨(p.2 + 4 : Nat), 1⟩ (n - 64))

/-- exp2 of a finite value whose result is in range. -/
def exp2Bits (v : Frac) : Nat :=
  let b := exp2Bounds v
  fixedChoice (Config.exp2 (argBits v)).toNat b.1 b.2

/-- Fraction bits of a logarithm by squaring: z in units of 2^-80, in 1 to 2; `k` bits are appended to acc. -/
def logBits : Nat → Nat → Nat → Nat
  | 0, _, acc => acc
  | k + 1, z, acc =>
    let y := z * z / 2 ^ 80
    if 2 ^ 81 ≤ y then logBits k (y / 2) (2 * acc + 1) else logBits k y (2 * acc)

/-- Bounds of log2 of a positive value. -/
def log2Bounds (v : Frac) : Frac × Frac :=
  let e := ilog2 v.num.natAbs v.den
  let z := (Frac.shift v (80 - e)).floor.toNat
  let l : Int := e * 2 ^ 64 + (logBits 64 z 0 : Nat)
  (Frac.shift ⟨l, 1⟩ (-64), Frac.shift ⟨l + 4, 1⟩ (-64))

/-- log2 of a positive value; log2(1) is 0. -/
def log2Bits (v : Frac) : Nat :=
  if Frac.le v ⟨1, 1⟩ && Frac.le ⟨1, 1⟩ v then 0
  else
    let b := log2Bounds v
    fixedChoice (Config.log2 (argBits v)).toNat b.1 b.2

/-- The reciprocal of a non-zero value. -/
def rcpBits (v : Frac) : Nat :=
  let q := Frac.div ⟨1, 1⟩ v
  fixedChoice (Config.rcp (argBits v)).toNat q q

/-- The reciprocal square root of a positive value. -/
def rsqBits (v : Frac) : Nat :=
  let s := rootFrom 2 (v.den * 2 ^ 256 / v.num.natAbs) 208 0
  fixedChoice (Config.rsq (argBits v)).toNat (Frac.shift ⟨s, 1⟩ (-128)) (Frac.shift ⟨(s + 1 : Nat), 1⟩ (-128))

end Sys2Proof.Machine
end

