-- ==== Sys2Proof/Machine/VecNum.lean ====
section
/-! DEFINITION. The arithmetic of the vector engines on elements (R113, R126, R131 to R134): element types, packing, integer
saturation, floating-point results without exceptions, conversions; each result with the events it counts. -/

namespace Sys2Proof.Machine

/-- Events of Table 5.5. -/
inductive VEv where
  | isat | fovf | div0 | nan | inf | domain | cvtSat | cvtNan | scaleClamp | badTrit
  deriving DecidableEq, Repr

/-- A result: its bits and the events of the element. -/
abbrev VRes := Nat × List VEv

/-! ### Element types (Table 5.1) -/

/-- INT8 to INT64. -/
def vtInt (t : Nat) : Bool := decide (t ≤ 3)
/-- INT8 to INT32. -/
def vtInt32 (t : Nat) : Bool := decide (t ≤ 2)
/-- FP16, BF16, FP32. -/
def vtFloat (t : Nat) : Bool := decide (4 ≤ t) && decide (t ≤ 6)
/-- Width of an element in bits; ternary apart. -/
def vtBits (t : Nat) : Nat :=
  match t with
  | 0 | 11 => 8
  | 1 | 4 | 5 => 16
  | 2 | 6 | 13 => 32
  | 3 | 12 => 64
  | 7 | 8 => 4
  | _ => 2

/-- The format of a floating-point type. -/
def vtFmt (t : Nat) : FloatFmt := if t = 4 then fp16 else if t = 5 then bf16 else fp32

/-- Bytes of n elements (R115). -/
def vtBytes (t n : Nat) : Nat :=
  if t = 10 then n / 256 * 52 + (n % 256 + 4) / 5 else (n * vtBits t + 7) / 8

/-- Elements of `k` bytes each. -/
def chunks (k : Nat) : Nat → List Byte → List Nat
  | 0, _ => []
  | n + 1, bs => leNat (bs.take k) :: chunks k n (bs.drop k)

/-- Elements packed several to a byte: `per` of them, of `w` bits. -/
def subElems (w per : Nat) (bs : List Byte) : List Nat :=
  bs.flatMap (fun b => (List.range per).map (fun j => b.toNat / 2 ^ (w * j) % 2 ^ w))

/-- Trits of one byte as 2-bit codes 0, 1 and 3 (R38, R39). -/
def byteTrits (b : Byte) : List Nat :=
  (List.range 5).map (fun j =>
    if 243 ≤ b.toNat then 0 else match b.toNat / 3 ^ j % 3 with | 0 => 3 | 1 => 0 | _ => 1)

/-- Trits of packed bytes, block by block of 52 bytes (R38). -/
def tritElems : Nat → List Byte → List Nat
  | 0, _ => []
  | k + 1, bs => (((bs.take 52).flatMap byteTrits).take 256) ++ tritElems k (bs.drop 52)

/-- The n elements that bytes hold, as bit patterns. -/
def vtUnpack (t n : Nat) (bs : List Byte) : List Nat :=
  if t = 10 then (tritElems (n / 256 + 1) bs).take n
  else match vtBits t with
    | 4 => (subElems 4 2 bs).take n
    | 2 => (subElems 2 4 bs).take n
    | w => chunks (w / 8) n bs

/-- Bytes of elements packed in groups of `per`; missing ones of the last byte are `pad`. -/
def packGroups (per base pad : Nat) : Nat → List Nat → List Byte
  | 0, _ => []
  | k + 1, xs =>
    let g := (xs.take per) ++ List.replicate (per - (xs.take per).length) pad
    BitVec.ofNat 8 ((g.zipIdx.map (fun x => x.1 * base ^ x.2)).sum) :: packGroups per base pad k (xs.drop per)

/-- The base-3 digit of a trit code. -/
def tritDigit (c : Nat) : Nat := if c = 3 then 0 else if c = 1 then 2 else 1

/-- Ternary packing, block by block of 256 trits (R38, R115). -/
def packTrits : Nat → List Nat → List Byte
  | 0, _ => []
  | k + 1, xs =>
    let b := (xs.take 256).map tritDigit
    packGroups 5 3 1 ((b.length + 4) / 5) b ++ packTrits k (xs.drop 256)

/-- The bytes of elements. -/
def vtPack (t : Nat) (xs : List Nat) : List Byte :=
  if t = 10 then packTrits (xs.length / 256 + 1) xs
  else match vtBits t with
    | 4 => packGroups 2 16 0 ((xs.length + 1) / 2) xs
    | 2 => packGroups 4 4 0 ((xs.length + 3) / 4) xs
    | w => xs.flatMap (leBytes (w / 8))

/-! ### Integers -/

/-- An integer element's value. -/
def vInt (t x : Nat) : Int := signed (vtBits t) x

/-- An exact integer result, saturated to a type (R133). -/
def vIntRes (t : Nat) (x : Int) (evs : List VEv) : VRes :=
  let y := satS (vtBits t) x
  (wrapN (vtBits t) y, if y = x then evs else VEv.isat :: evs)

/-- Integer division: truncated; by zero the maximum or the minimum (R133). -/
def vIntDiv (t : Nat) (a b : Int) : VRes :=
  if b = 0 then
    let w := vtBits t
    (if 0 ≤ a then 2 ^ (w - 1) - 1 else 2 ^ (w - 1), [VEv.div0])
  else vIntRes t (Int.tdiv a b) []

/-! ### Floating point (R133) -/

/-- The canonical quiet NaN of a type. -/
def vNan (t : Nat) : Nat := if t = 4 then 0x7E00 else if t = 5 then 0x7FC0 else 0x7FC00000

/-- Largest finite value of a format. -/
def FloatFmt.maxVal (f : FloatFmt) : Frac :=
  match f.decode f.maxBits with
  | .fin _ v => v
  | _ => ⟨0, 1⟩

/-- The signed largest finite value, as bits. -/
def vLimit (t : Nat) (neg : Bool) : Nat := (vtFmt t).maxBits + (if neg then (vtFmt t).signBit else 0)

/-- An operand after rules 1 and 2: none for a NaN; else sign of its zero, value, and whether it was infinite. -/
def vOperand (t x : Nat) : Option (Bool × Frac × Bool) :=
  match (vtFmt t).decode x with
  | .nan => none
  | .inf neg => some (neg, if neg then (vtFmt t).maxVal.neg else (vtFmt t).maxVal, true)
  | .fin neg v => some (neg, v, false)

/-- An exact result rounded to a type (rule 7). -/
def vRound (t : Nat) (x : Frac) (evs : List VEv) : VRes :=
  let (b, isOver) := (vtFmt t).roundSat x
  (b, if isOver then VEv.fovf :: evs else evs)

/-- A result of two operands. -/
def vFloat2 (st dt : Nat) (f : Frac → Frac → Frac) (a b : Nat) : VRes :=
  match vOperand st a, vOperand st b with
  | some (_, x, i), some (_, y, j) => vRound dt (f x y) (if i || j then [VEv.inf] else [])
  | _, _ => (vNan dt, [VEv.nan])

/-- A result of one operand. -/
def vFloat1 (st dt : Nat) (f : Frac → Frac) (a : Nat) : VRes :=
  match vOperand st a with
  | some (_, x, i) => vRound dt (f x) (if i then [VEv.inf] else [])
  | none => (vNan dt, [VEv.nan])

/-- a × b + c with one rounding. -/
def vFloatFma (st dt a b c : Nat) : VRes :=
  match vOperand st a, vOperand st b, vOperand st c with
  | some (_, x, i), some (_, y, j), some (_, z, k) =>
    vRound dt (Frac.add (Frac.mul x y) z) (if i || j || k then [VEv.inf] else [])
  | _, _, _ => (vNan dt, [VEv.nan])

/-- Division (rule 3). -/
def vFloatDiv (st dt a b : Nat) : VRes :=
  match vOperand st a, vOperand st b with
  | some (na, x, i), some (nb, y, j) =>
    let evs := if i || j then [VEv.inf] else []
    if y.isZero then (vLimit dt (na != nb), VEv.div0 :: evs) else vRound dt (Frac.div x y) evs
  | _, _ => (vNan dt, [VEv.nan])

/-- Relations of VCMP. -/
def relHolds (rel : Nat) (lt eq : Bool) : Bool :=
  match rel with
  | 0 => eq
  | 1 => !eq
  | 2 => lt
  | 3 => lt || eq
  | 4 => !lt && !eq
  | _ => !lt

/-- VCMP on one pair: with a NaN only NE holds (R125). -/
def vCompare (st rel a b : Nat) : VRes :=
  if vtFloat st then
    match vOperand st a, vOperand st b with
    | some (_, x, i), some (_, y, j) =>
      (b2n (relHolds rel (Frac.lt x y) (Frac.le x y && Frac.le y x)), if i || j then [VEv.inf] else [])
    | _, _ => (b2n (rel == 1), [VEv.nan])
  else (b2n (relHolds rel (decide (vInt st a < vInt st b)) (decide (vInt st a = vInt st b))), [])

/-- A copied element: every zero is positive (R34); a NaN and an infinity as rules 1 and 2 of R133 say. -/
def vCopy (t x : Nat) : VRes :=
  if vtFloat t then
    match vOperand t x with
    | none => (vNan t, [VEv.nan])
    | some (neg, v, i) => if i then (vLimit t neg, [VEv.inf]) else (if v.isZero then 0 else x, [])
  else if t = 8 ∧ x = 8 then (0, [])
  else (x, [])

/-! ### Elementwise operations of Table 5.4 -/

/-- The binary operations. -/
inductive VBin where
  | add | sub | mul | div | min | max
  deriving DecidableEq, Repr

/-- The smaller of two values. -/
def fracMin (x y : Frac) : Frac := if Frac.le x y then x else y
/-- The larger of two values. -/
def fracMax (x y : Frac) : Frac := if Frac.le x y then y else x

/-- A binary operation on one pair. -/
def vBin (op : VBin) (st dt a b : Nat) : VRes :=
  if vtFloat st then
    match op with
    | .add => vFloat2 st dt Frac.add a b
    | .sub => vFloat2 st dt Frac.sub a b
    | .mul => vFloat2 st dt Frac.mul a b
    | .div => vFloatDiv st dt a b
    | .min => vFloat2 st dt fracMin a b
    | .max => vFloat2 st dt fracMax a b
  else
    let x := vInt st a
    let y := vInt st b
    match op with
    | .add => vIntRes dt (x + y) []
    | .sub => vIntRes dt (x - y) []
    | .mul => vIntRes dt (x * y) []
    | .div => vIntDiv dt x y
    | .min => vIntRes dt (min x y) []
    | .max => vIntRes dt (max x y) []

/-- VFMA on one triple. -/
def vFma (st dt a b c : Nat) : VRes :=
  if vtFloat st then vFloatFma st dt a b c else vIntRes dt (vInt st a * vInt st b + vInt st c) []

/-- VABS. -/
def vAbs (st dt a : Nat) : VRes :=
  if vtFloat st then vFloat1 st dt Frac.abs a else vIntRes dt (vInt st a).natAbs []

/-- VNEG. -/
def vNeg (st dt a : Nat) : VRes :=
  if vtFloat st then vFloat1 st dt Frac.neg a else vIntRes dt (-(vInt st a)) []

/-- A shift count clamped to 0 … width. -/
def shiftCount (t b : Nat) : Nat := (max 0 (min (vInt t b) (vtBits t))).toNat

/-- VSHL: saturating. -/
def vShl (t a b : Nat) : VRes := vIntRes t (vInt t a * (2 ^ shiftCount t b : Nat)) []

/-- VSHRA: arithmetic. -/
def vShra (t a b : Nat) : VRes := vIntRes t (vInt t a / (2 ^ shiftCount t b : Nat)) []

/-! ### Fixed functions (R128, R133) -/

/-- exp2 of FP32 bits; exp2(0) = 1, and an argument below -150 gives positive zero. -/
def vExp2 (x : Nat) : VRes :=
  match vOperand 6 x with
  | none => (vNan 6, [VEv.nan])
  | some (_, v, i) =>
    let evs := if i then [VEv.inf] else []
    if v.isZero then (0x3F800000, evs)
    else if Frac.lt v ⟨-150, 1⟩ then (0, evs)
    else if Frac.le ⟨128, 1⟩ v then (vLimit 6 false, VEv.fovf :: evs)
    else (exp2Bits v, evs)

/-- log2: of zero the negative limit, of a negative number NaN. -/
def vLog2 (x : Nat) : VRes :=
  match vOperand 6 x with
  | none => (vNan 6, [VEv.nan])
  | some (_, v, i) =>
    let evs := if i then [VEv.inf] else []
    if v.isZero then (vLimit 6 true, evs)
    else if v.num < 0 then (vNan 6, VEv.domain :: evs)
    else (log2Bits v, evs)

/-- Reciprocal: of zero the signed limit (rule 4). -/
def vRcp (x : Nat) : VRes :=
  match vOperand 6 x with
  | none => (vNan 6, [VEv.nan])
  | some (neg, v, i) =>
    let evs := if i then [VEv.inf] else []
    if v.isZero then (vLimit 6 neg, VEv.div0 :: evs)
    else if Frac.lt fp32.maxVal (Frac.div ⟨1, 1⟩ v.abs) then (vLimit 6 neg, VEv.fovf :: evs)
    else (rcpBits v, evs)

/-- Reciprocal square root: of +0 the limit, of -0 too, of a negative number NaN. -/
def vRsq (x : Nat) : VRes :=
  match vOperand 6 x with
  | none => (vNan 6, [VEv.nan])
  | some (neg, v, i) =>
    let evs := if i then [VEv.inf] else []
    if v.isZero then (vLimit 6 neg, VEv.div0 :: evs)
    else if v.num < 0 then (vNan 6, VEv.domain :: evs)
    else (rsqBits v, evs)

/-! ### Scans and reductions (R126) -/

/-- What a list of elements comes to under an operation 0 sum, 1 min, 2 max: NaN, or the exact value. -/
def vFold (st op : Nat) (xs : List Nat) : Option (Frac × Bool) :=
  let vals := xs.map (fun x => if vtFloat st then vOperand st x else some (false, Frac.ofInt (vInt st x), false))
  if vals.any (fun v => v.isNone) then none
  else
    let fs := vals.filterMap (fun v => v.map (fun u => u.2.1))
    let inf := vals.any (fun v => v.any (fun u => u.2.2))
    match fs with
    | [] => some (⟨0, 1⟩, false)
    | f :: rest => some (rest.foldl (fun a x => if op = 0 then Frac.add a x else if op = 1 then fracMin a x else fracMax a x) f, inf)

/-- The identity of an exclusive output without elements (R126). -/
def vIdentity (dt op : Nat) : Nat :=
  match op with
  | 0 => 0
  | 1 => if vtFloat dt then vLimit dt false else 2 ^ (vtBits dt - 1) - 1
  | _ => if vtFloat dt then vLimit dt true else 2 ^ (vtBits dt - 1)

/-- The output for a list of elements. -/
def vFoldOut (st dt op : Nat) (xs : List Nat) : VRes :=
  if xs.isEmpty then (vIdentity dt op, [])
  else match vFold st op xs with
    | none => (vNan dt, [VEv.nan])
    | some (v, i) =>
      let evs := if i then [VEv.inf] else []
      if vtFloat dt then vRound dt v evs else vIntRes dt v.floor evs

/-- The elements of a segment before each position and at it: outputs of a scan, in order. `cur` holds the segment so
far, last element first. -/
def vScan (st dt op : Nat) (excl seg : Bool) (cur : List Nat) : List (Nat × Nat) → List VRes
  | [] => []
  | (x, c) :: rest =>
    let base := if seg && c != 0 then [] else cur
    vFoldOut st dt op (if excl then base.reverse else (x :: base).reverse) :: vScan st dt op excl seg (x :: base) rest

/-! ### Top-k (R127) -/

/-- Does element a (value, index) come before b: larger, or smaller with `low`; equal values by index; NaN last? -/
def topBefore (t : Nat) (low : Bool) (a b : Nat × Nat) : Bool :=
  let v (x : Nat) : Option Frac := if vtFloat t then (vOperand t x).map (fun u => u.2.1) else some (Frac.ofInt (vInt t x))
  match v a.1, v b.1 with
  | some x, some y =>
    if Frac.le x y && Frac.le y x then decide (a.2 ≤ b.2) else if low then Frac.lt x y else Frac.lt y x
  | some _, none => true
  | none, some _ => false
  | none, none => decide (a.2 ≤ b.2)

/-- Insert into a ranked list. -/
def topInsert (t : Nat) (low : Bool) (a : Nat × Nat) : List (Nat × Nat) → List (Nat × Nat)
  | [] => [a]
  | b :: rest => if topBefore t low a b then a :: b :: rest else b :: topInsert t low a rest

/-- The k first elements with their indices; surplus positions hold zero and 0xFFFF. -/
def topK (t : Nat) (low : Bool) (k : Nat) (xs : List Nat) : List (VRes × Nat) :=
  let ranked := xs.zipIdx.foldl (fun l x => topInsert t low x l) []
  let got := (ranked.take k).map (fun x => (vCopy t x.1, x.2))
  got ++ List.replicate (k - got.length) ((0, []), 0xFFFF)

/-! ### Softmax (R128) -/

/-- One row of VSOFTMAX with the factor's FP32 bits. -/
def vSoftmax (st dt factor : Nat) (xs : List Nat) : List VRes :=
  let vals := xs.map (vOperand st)
  match vOperand 6 factor with
  | none => xs.map (fun _ => (vNan dt, [VEv.nan]))
  | some (_, sf, si) =>
    if vals.any (fun v => v.isNone) then xs.map (fun _ => (vNan dt, [VEv.nan]))
    else
      let fs := vals.filterMap (fun v => v.map (fun u => (u.2.1, u.2.2)))
      let m := fs.foldl (fun a x => fracMax a x.1) (match fs with | f :: _ => f.1 | [] => ⟨0, 1⟩)
      let es := fs.map (fun x =>
        let (d, o1) := fp32.roundSat (Frac.sub x.1 m)
        let (t, o2) := fp32.roundSat (Frac.mul sf (fp32Val d))
        let (e, ev) := vExp2 t
        (e, (if o1 || o2 then [VEv.fovf] else []) ++ (if x.2 || si then [VEv.inf] else []) ++ ev))
      let z := (fp32.roundSat (es.foldl (fun a e => Frac.add a (fp32Val e.1)) ⟨0, 1⟩)).1
      es.map (fun e =>
        if (fp32Val z).isZero then (vLimit dt false, VEv.div0 :: e.2) else vRound dt (Frac.div (fp32Val e.1) (fp32Val z)) e.2)

/-! ### Statistics (R111, R130) -/

/-- Mean and variance of a record. -/
def vStats (count : Nat) (sum : Int) (sumsq : Nat) : Nat × Nat :=
  if count = 0 then (0, 0)
  else
    let num : Int := (count : Int) * sumsq - sum * sum
    ((fp32.roundSat (Frac.div ⟨sum, 1⟩ ⟨count, 1⟩)).1, (fp32.roundSat (Frac.div ⟨num, 1⟩ ⟨(count : Int) * count, 1⟩)).1)

/-! ### Conversions (R131, R132) -/

/-- Stochastic rounding to a binary format: to the neighbour on the signed grid of the value's binade. -/
def stochFloat (f : FloatFmt) (x : Frac) (r : Nat) : Frac :=
  if x.isZero then x
  else
    let q := max (ilog2 x.num.natAbs x.den) f.emin - (f.prec - 1 : Nat)
    Frac.shift (Frac.ofInt (stochInt (Frac.shift x (-q)) r)) q

/-- The value of a source element; none is a NaN. The flag: it was infinite. -/
def cvtSource (t x : Nat) : Option (Frac × Bool) :=
  if vtFloat t then (vOperand t x).map (fun u => (u.2.1, u.2.2))
  else match t with
    | 7 => some (Frac.ofInt (signed 4 x), false)
    | 8 => some (⟨fp4Half x, 2⟩, false)
    | 9 | 10 => some (Frac.ofInt (signed 2 x), false)
    | 11 => some (ue5m3 x, false)
    | _ => some (Frac.ofInt (vInt t x), false)

/-- Round a value to an integer, to nearest or with the generator's output. -/
def cvtInt (x : Frac) (r : Option Nat) : Int :=
  match r with
  | some v => stochInt x v
  | none => x.rne

/-- Clamp with the saturation event. -/
def cvtClamp (lo hi : Int) (y : Int) : Int × List VEv :=
  if hi < y then (hi, [VEv.cvtSat]) else if y < lo then (lo, [VEv.cvtSat]) else (y, [])

/-- Round a value to the nearest trit, ±0.5 to 0. -/
def cvtTrit (x : Frac) (r : Option Nat) : Int :=
  match r with
  | some v => max (-1) (min 1 (stochInt x v))
  | none => if Frac.lt ⟨1, 2⟩ x then 1 else if Frac.lt x ⟨-1, 2⟩ then -1 else 0

/-- A value in a target type. -/
def cvtTarget (dt : Nat) (cw : Bool) (x : Frac) (r : Option Nat) : VRes :=
  if vtFloat dt then
    let y := match r with | some v => stochFloat (vtFmt dt) x v | none => x
    let (b, isOver) := (vtFmt dt).roundSat y
    (b, if isOver then [VEv.cvtSat] else [])
  else match dt with
    | 7 => let (y, e) := cvtClamp (if cw then -7 else -8) 7 (cvtInt x r); (wrapN 4 y, e)
    | 8 =>
      if Frac.lt ⟨6, 1⟩ x.abs then (fp4Code (if x.num < 0 then -12 else 12), [VEv.cvtSat])
      else match r with
        | some v => (fp4Code (roundStoch [-12, -8, -6, -4, -3, -2, -1, 0, 1, 2, 3, 4, 6, 8, 12] (Frac.shift x 1) v), [])
        | none => (fp4Code (roundFp4 x).1, [])
    | 9 => let (y, e) := cvtClamp (-2) 1 (cvtInt x r); (wrapN 2 y, e)
    | 10 => (wrapN 2 (cvtTrit x r), [])
    | 11 =>
      if x.num < 0 then (0, [VEv.cvtSat])
      else if Frac.lt ⟨122880, 1⟩ x then (0xFF, [VEv.cvtSat])
      else match r with
        | some v => ((ue5m3Round (stochFloat ⟨4, -14, 16, 5⟩ x v)).1, [])
        | none => ((ue5m3Round x).1, [])
    | _ => let y := cvtInt x r; let z := satS (vtBits dt) y; (wrapN (vtBits dt) z, if y = z then [] else [VEv.cvtSat])

/-- Types that a scale applies to: INT8 and the narrow ones. -/
def cvtNarrow (t : Nat) : Bool := t == 0 || (decide (7 ≤ t) && decide (t ≤ 10))

/-- L of a dynamic scale (R131). -/
def cvtLimit (dt : Nat) : Int := match dt with | 7 => 7 | 8 => 6 | 0 => 127 | _ => 1

/-- Convert one element under its group's scale (none: no scale); under scale 0x00 it is positive zero, not counted (R131). Between two
narrow types the scale divides; where neither is narrow it has no effect. DESIGN CHOICE, log entry 113. -/
def vConvert (st dt : Nat) (cw : Bool) (scale : Option Nat) (x : Nat) (r : Option Nat) : VRes :=
  if scale = some 0 then (0, [])
  else match cvtSource st x with
  | none => if vtFloat dt then (vNan dt, [VEv.nan]) else (0, [VEv.cvtNan])
  | some (v, inf) =>
    let y := match scale with
      | none => v
      | some c => if cvtNarrow dt then Frac.div v (ue5m3 c) else if cvtNarrow st then Frac.mul v (ue5m3 c) else v
    let (b, e) := cvtTarget dt cw y r
    (b, (if inf then [VEv.inf] else []) ++ e)

/-- The dynamic scale of a group (R131): its code, and whether it was clamped. -/
def vGroupScale (st dt : Nat) (xs : List Nat) : Nat × Bool :=
  let amax := xs.foldl (fun a x => match cvtSource st x with | some (v, _) => fracMax a v.abs | none => a) ⟨0, 1⟩
  let l := cvtLimit dt
  if amax.isZero then (0x78, false)
  else if Frac.lt (Frac.mul ⟨l, 1⟩ ⟨122880, 1⟩) amax then (0xFF, true)
  else (ue5m3Ceil (Frac.div amax ⟨l, 1⟩), false)

end Sys2Proof.Machine
end

