-- ==== Sys2Proof/Machine/Season.lean ====
section
/-! DEFINITION. Calibration seasons (R199 to R212): records and banks, the collection window and the candidate, staging,
shadow slots, commit, range checks. -/

namespace Sys2Proof.Machine

/-! ### Season records (Tables 8.2 and 8.3) -/

/-- Origin of CAL (Table 12.5). -/
@[reducible] def calOrigin : Nat := 8

/-- A scale entry: logical array, offset in 16-byte units, DQ record, a_t. -/
structure ScaleEnt where
  la : Nat
  off : Nat
  dq : List Byte
  at_ : Nat

/-- A compensation entry. -/
structure CompEnt where
  carrier : Nat
  antenna : Nat
  val : Comp

/-- A weight entry: logical array, offset in 64-byte units, length, virtual address. -/
structure WeightEnt where
  la : Nat
  off : Nat
  len : Nat
  va : Nat

/-- A season record; `wellFormed`: its reserved bytes are 0 and its kinds are those of its entries. -/
structure SeasonRec where
  number : Nat
  scales : List ScaleEnt
  comps : List CompEnt
  weights : List WeightEnt
  wellFormed : Bool

/-- Bytes of a record whose header is given. -/
def seasonLen (h : List Byte) : Nat := 64 + 32 * leAt h 8 4 + 16 * leAt h 12 4 + 16 * leAt h 16 4

/-- Are `n` bytes at an offset zero? -/
def zeroAt (bs : List Byte) (o n : Nat) : Bool := ((bs.drop o).take n).all (fun b => b == 0)

/-- A scale entry. -/
def scaleEnt (b : List Byte) : ScaleEnt := ⟨leAt b 0 1, leAt b 2 2, (b.drop 4).take 16, leAt b 20 4⟩
/-- A compensation entry. -/
def compEnt (b : List Byte) : CompEnt :=
  ⟨leAt b 0 1, leAt b 1 1, signed 16 (leAt b 4 2), signed 16 (leAt b 6 2), signed 16 (leAt b 8 2), signed 16 (leAt b 10 2), leAt b 12 2⟩
/-- A weight entry. -/
def weightEnt (b : List Byte) : WeightEnt := ⟨leAt b 0 1, leAt b 2 2, leAt b 4 4, leAt b 8 8⟩

/-- `n` pieces of `w` bytes from an offset. -/
def pieces (bs : List Byte) (o w n : Nat) : List (List Byte) := (List.range n).map (fun k => (bs.drop (o + w * k)).take w)

/-- Read a record's bytes. -/
def seasonRec (b : List Byte) : SeasonRec :=
  let ns := leAt b 8 4
  let nc := leAt b 12 4
  let nw := leAt b 16 4
  let kinds := leAt b 4 1
  let ss := pieces b 64 32 ns
  let cs := pieces b (64 + 32 * ns) 16 nc
  let ws := pieces b (64 + 32 * ns + 16 * nc) 16 nw
  { number := leAt b 0 4, scales := ss.map scaleEnt, comps := cs.map compEnt, weights := ws.map weightEnt
    wellFormed := decide (kinds < 8) && zeroAt b 5 3 && zeroAt b 20 44 &&
      (ns == 0 || bitOf kinds 0) && (nc == 0 || bitOf kinds 1) && (nw == 0 || bitOf kinds 2) &&
      ss.all (fun e => zeroAt e 1 1 && zeroAt e 24 8) && cs.all (fun e => zeroAt e 2 2 && zeroAt e 14 2) &&
      ws.all (fun e => zeroAt e 1 1) }

/-- The bytes of a record's header. -/
def seasonHeader (number kinds ns nc nw : Nat) : List Byte :=
  leBytes 4 number ++ leBytes 1 kinds ++ zeros 3 ++ leBytes 4 ns ++ leBytes 4 nc ++ leBytes 4 nw ++ zeros 44

/-- The bytes of a scale entry. -/
def scaleBytes (e : ScaleEnt) : List Byte :=
  leBytes 1 e.la ++ zeros 1 ++ leBytes 2 e.off ++ padTo 16 e.dq ++ leBytes 4 e.at_ ++ zeros 8

/-- The bytes of a compensation entry. -/
def compBytes (e : CompEnt) : List Byte :=
  leBytes 1 e.carrier ++ leBytes 1 e.antenna ++ zeros 2 ++ leBytes 2 (wrapN 16 e.val.dcRe) ++ leBytes 2 (wrapN 16 e.val.dcIm) ++
    leBytes 2 (wrapN 16 e.val.bRe) ++ leBytes 2 (wrapN 16 e.val.bIm) ++ leBytes 2 e.val.gain ++ zeros 2

/-! ### Banks (R201) -/

/-- The physical array of a logical one. -/
def Job.pa (j : Job) (la : Nat) : Option Nat := (j.la.find? (fun p => p.1 == la)).map (fun p => p.2)

/-- Bytes of the season window of array n. -/
def winBytes (s : State) (n : Nat) : Nat := s.fld (Fd.MA_SWIN_LEN n) * 64

/-- The windows of a job: unit key and bytes. -/
def windowsOf (s : State) (j : Job) : List (Nat × Nat) :=
  j.la.map (fun p => (p.2, winBytes s p.2)) ++ (List.range 12).map (fun d => (96 + d, s.fld (Fd.DSC_SWIN_LEN d) * 64))

/-- Copy the listed entries of a table range to another range of the same length. -/
def tblCopy {α : Type} [DecidableEq α] (d : Nat → α) (m : List (Nat × α)) (src dst len : Nat) : List (Nat × α) :=
  (m.filter (fun p => decide (src ≤ p.1) && decide (p.1 < src + len))).foldl
    (fun t p => Tbl.set d t (dst + (p.1 - src)) p.2) (Tbl.clearRange m dst (dst + len))

/-- Key of an a_t, of a radio value. -/
def atKey (bank la off : Nat) : Nat := (256 * bank + la) * 65536 + off
/-- See `atKey`. -/
def compKey (bank carrier antenna : Nat) : Nat := (8 * bank + carrier) * 128 + antenna

/-- The a_t that a bank holds for a DQ record. -/
def atOf (s : State) (bank la off : Nat) : Nat := Tbl.get (fun _ => 0) s.seasonAt (atKey bank la off)

/-- The radio values of an antenna in a bank. -/
def compOf (s : State) (bank carrier antenna : Nat) : Comp := Tbl.get compReset s.comp (compKey bank carrier antenna)

/-- Copy every window and every value of bank `a` to bank `b` (R204 step 1). -/
def copyBank (s : State) (j : Job) (a b : Nat) : State :=
  { s with
    banks := (windowsOf s j).foldl (fun m w => tblCopy zeroByte m (bankKey w.1 a 0) (bankKey w.1 b 0) w.2) s.banks
    seasonAt := tblCopy (fun _ => 0) s.seasonAt (atKey a 0 0) (atKey b 0 0) (256 * 65536)
    comp := tblCopy compReset s.comp (compKey a 0 0) (compKey b 0 0) 1024 }

/-- Apply scale and compensation entries to a bank. -/
def applyValues (s : State) (j : Job) (b : Nat) (r : SeasonRec) : State :=
  let s1 := r.scales.foldl (fun t e => match j.pa e.la with
    | some n => { t.putBank n b (16 * e.off) e.dq with seasonAt := Tbl.set (fun _ => 0) t.seasonAt (atKey b e.la e.off) e.at_ }
    | none => t) s
  r.comps.foldl (fun t e => { t with comp := Tbl.set compReset t.comp (compKey b e.carrier e.antenna) e.val }) s1

/-- Apply a record's entries to a bank (R204 step 2); weights already read, in order of their entries. -/
def applyRec (s : State) (j : Job) (b : Nat) (r : SeasonRec) (ws : List (List Byte)) : State :=
  (List.zip r.weights ws).foldl (fun t e => match j.pa e.1.la with
    | some n => t.putBank n b (64 * e.1.off) e.2
    | none => t) (applyValues s j b r)

/-- Read the weights of a record's entries from job memory: none where a translation faults. -/
def readWeights (s : State) : List WeightEnt → Option (List (List Byte)) × State
  | [] => (some [], s)
  | e :: es =>
    let a := virtRead s calOrigin e.va e.len
    if a.fault.isSome then (none, a.state)
    else
      let (r, t) := readWeights a.state es
      (r.map (fun l => a.bytes :: l), t)

/-! ### Checks of a record (Table 8.4, Table 8.6) -/

/-- Does an entry lie in the window of a logical array of the job? -/
def inWindow (s : State) (j : Job) (la off len : Nat) : Bool :=
  match j.pa la with
  | some n => decide (off + len ≤ winBytes s n)
  | none => false

/-- Is a DQ record the producer's of a calibrated tensor? -/
def isProducer (j : Job) (la off : Nat) : Bool := j.image.cal.any (fun t => t.producer.contains (la, off))

/-- A scale entry: in the job, G and H finite, and a_t of a calibrated tensor finite and greater than 0. -/
def scaleOk (s : State) (j : Job) (e : ScaleEnt) : Bool :=
  inWindow s j e.la (16 * e.off) 16 && fp32Finite (leAt e.dq 4 4) && fp32Finite (leAt e.dq 8 4) && fp32Finite e.at_ &&
    (!(isProducer j e.la e.off) || (decide (0 < e.at_) && decide (e.at_ < 2 ^ 31)))

/-- A compensation entry: in the job and within the limits. -/
def compOk (s : State) (j : Job) (e : CompEnt) : Bool :=
  let dc := s.regN Reg.CAL_LIM_DC
  let iq := s.regN Reg.CAL_LIM_IQ
  j.carriers.contains e.carrier && decide (e.antenna < s.fld (Fd.FHP0_CAR_CFG_NANT e.carrier)) &&
    decide (e.val.dcRe.natAbs ≤ dc) && decide (e.val.dcIm.natAbs ≤ dc) &&
    decide (e.val.bRe * e.val.bRe + e.val.bIm * e.val.bIm ≤ (iq * iq : Nat)) &&
    decide (s.fld Fd.CAL_LIM_GAIN_LO ≤ e.val.gain) && decide (e.val.gain ≤ s.fld Fd.CAL_LIM_GAIN_HI)

/-- A weight entry: in the job, a multiple of 64 bytes. -/
def weightOk (s : State) (j : Job) (e : WeightEnt) : Bool :=
  inWindow s j e.la (64 * e.off) e.len && e.len % 64 == 0 && decide (e.va + e.len ≤ 2 ^ 48)

/-- Every entry of a record. -/
def recordOk (s : State) (j : Job) (r : SeasonRec) : Bool :=
  r.wellFormed && r.scales.all (scaleOk s j) && r.comps.all (compOk s j) && r.weights.all (weightOk s j)

/-! ### Measurements (R199, R200, R210) -/

/-- FP32 rounding to nearest, ties to even, overflow to the largest finite value (R485). -/
def rne32f (x : Frac) : Frac := fp32Val (fp32.roundSat x).1

/-- The correctly rounded FP32 square root of a non-negative FP32 value: the root is taken to 40 bits, the last one sticky. -/
def sqrt32 (x : Frac) : Frac :=
  if x.num ≤ 0 then ⟨0, 1⟩
  else
    let k : Nat := 220
    let n := x.num.natAbs * 2 ^ (2 * k) / x.den
    let r := Nat.sqrt n
    rne32f ⟨(2 * r + b2n (decide (r * r < n ∨ x.num.natAbs * 2 ^ (2 * k) % x.den ≠ 0)) : Nat), 2 ^ (k + 1)⟩

/-- Add two records (R109): 64-bit integer addition of each field. -/
def StatRec.add (a b : StatRec) : StatRec :=
  ⟨(a.count + b.count) % 2 ^ 64, signed 64 (wrapN 64 (a.sum + b.sum)), (a.sumsq + b.sumsq) % 2 ^ 64⟩

/-- The records of a calibrated tensor in a slot's or the shadow check's records, combined over its logical arrays: integer addition does not
depend on the order (R109). -/
def tensorRecs (m : List (Nat × StatRec)) (j : Job) (t : CalTensor) : List StatRec :=
  (List.range t.prods.length).map (fun i =>
    (t.arrays.filterMap (fun la => j.pa la)).foldl (fun a n => a.add (Tbl.get statReset m (recKey n i))) (statReset 0))

/-- Is a value of FP32 bits the greater of two? -/
def maxFrac (a b : Frac) : Frac := if Frac.lt a b then b else a

/-- a_t of a tensor's records under a second-level value G of its producer (R200): none where every record has count 0. -/
def tensorAt (s : State) (t : CalTensor) (g : Nat) (recs : List StatRec) : Option Frac :=
  if recs.all (fun r => r.count == 0) then none
  else
    let ksig := fp32Val (s.regN Reg.CAL_KSIG)
    match (List.zip recs t.prods).map (fun p =>
      let (m, v) := vStats p.1.count p.1.sum p.1.sumsq
      let f := rne32f (Frac.mul (rne32f (Frac.shift (fp32Val p.2.toNat) (-(t.u : Int)))) (fp32Val g))
      let x := rne32f (Frac.add (fp32Val m).abs (rne32f (Frac.mul ksig (sqrt32 (fp32Val v)))))
      rne32f (Frac.mul x f)) with
    | [] => none
    | x :: xs => some (xs.foldl maxFrac x)

/-- The bits of an FP32 value. -/
def bits32 (x : Frac) : Nat := (fp32.roundSat x).1

/-- Largest finite FP32 where a quotient by 0 would stand (R485). DESIGN CHOICE, log entry 44. -/
def divSat (a b : Frac) : Nat := if b.isZero then fp32.maxBits else bits32 (Frac.div a b)

/-- A DQ record with one of its second-level values replaced: G at 4, H at 8, SOUT at 12. -/
def setDq (b : List Byte) (o n v : Nat) : List Byte := b.take o ++ leBytes n v ++ b.drop (o + n)

/-- What a tensor's a_t changes in a DQ record: second-level values by their offset, and the a_t of a producer. -/
structure DqChange where
  la : Nat
  off : Nat
  sets : List (Nat × Nat)
  at_ : Option Nat

/-- The changes that a tensor's a_t brings to the DQ records of its producer and its consumers (R200). -/
def tensorChanges (t : CalTensor) (a : Frac) : List DqChange :=
  let gout := rne32f (Frac.div a ⟨t.limit, 1⟩)
  let h := divSat (fp32Val t.gProd.toNat) gout
  t.producer.map (fun p => ⟨p.1, p.2, [(8, h), (12, 0x78)], some (bits32 a)⟩) ++
  t.consumers.flatMap (fun c => c.2.map (fun p => ⟨p.1, p.2, [(4, bits32 (Frac.mul gout (fp32Val c.1.toNat)))], none⟩))

/-- The scale entries of a list of changes over the DQ records of the bank in force: one for each record, which may produce one tensor and consume
another; a producer's whose own a_t was not measured keeps the one in force (R200). DESIGN CHOICE, log entry 44. -/
def scaleEntries (s : State) (j : Job) (cs : List DqChange) : List ScaleEnt :=
  let bank := s.regN Reg.CAL_SEASON % 2
  ((cs.map (fun c => (c.la, c.off))).eraseDups).map (fun k =>
    let mine := cs.filter (fun c => c.la == k.1 && c.off == k.2)
    let old : List Byte := match j.pa k.1 with
      | some n => s.bankBytes n bank (16 * k.2) 16
      | none => zeros 16
    ⟨k.1, k.2, (mine.flatMap (fun c => c.sets)).foldl (fun b x => setDq b x.1 4 x.2) old,
      (mine.findSome? (fun c => c.at_)).getD (if isProducer j k.1 k.2 then atOf s bank k.1 k.2 else 0)⟩)

/-- Mean of the raw samples, image coefficient of one antenna (Table 8.1), in FP32. -/
def radioDc (r : Radio) : Frac × Frac := (rne32f ⟨r.re, r.count⟩, rne32f ⟨r.im, r.count⟩)
/-- See `radioDc`. -/
def radioBeta (r : Radio) : Frac × Frac :=
  if r.imgDen = 0 then (⟨0, 1⟩, ⟨0, 1⟩) else (rne32f ⟨r.imgRe, r.imgDen⟩, rne32f ⟨r.imgIm, r.imgDen⟩)
/-- Mean power of an antenna. -/
def radioPower (r : Radio) : Frac := rne32f ⟨r.power, r.count⟩

/-- Mean power over the antennas of a carrier that have samples. -/
def meanPower (rs : List Radio) : Frac :=
  let ps := (rs.filter (fun r => r.count != 0)).map radioPower
  rne32f (Frac.div (ps.foldl (fun a p => rne32f (Frac.add a p)) ⟨0, 1⟩) ⟨max 1 ps.length, 1⟩)

/-- Gain of an antenna, sqrt(P / mean). -/
def radioGain (r : Radio) (mean : Frac) : Frac :=
  if mean.isZero then ⟨0, 1⟩ else sqrt32 (rne32f (Frac.div (radioPower r) mean))

/-- The compensation values of a measurement (R200, Table 8.3). -/
def radioComp (r : Radio) (mean : Frac) : Comp :=
  let (dr, di) := radioDc r
  let (br, bi) := radioBeta r
  let g := radioGain r mean
  let gain := if g.isZero then 65535 else (Frac.rne (Frac.shift (rne32f (Frac.div ⟨1, 1⟩ g)) 14)).toNat
  ⟨satS 16 dr.rne, satS 16 di.rne, satS 16 (Frac.shift br 15).rne, satS 16 (Frac.shift bi 15).rne, min gain 65535⟩

/-- Antennas of a carrier in the collection window. -/
def windowRadio (s : State) (c : Nat) : List (Nat × Radio) :=
  (s.calRadio.filter (fun p => p.1 / 128 == c)).map (fun p => (p.1 % 128, p.2))

/-- Is the collection window closed, its candidate not yet built (R200)? -/
def windowClosed (s : State) : Bool := decide (s.fld Fd.CAL_WINDOW_SLOTS ≤ s.calSlots)

/-- The collection window restarts (R207). -/
def restartWindow (s : State) : State := { s with calRecs := [], calRadio := [], calSlots := 0 }

/-- The candidate record of a closed window. DESIGN CHOICE, log entry 44. -/
def candidateBytes (s : State) (j : Job) : List Byte :=
  let ss := scaleEntries s j ((j.image.cal.zipIdx).flatMap (fun t =>
    let recs := (List.range t.1.prods.length).map (fun i => Tbl.get statReset s.calRecs (65536 * t.2 + i))
    match tensorAt s t.1 t.1.gProd.toNat recs with
    | some a => tensorChanges t.1 a
    | none => []))
  let cs := j.carriers.flatMap (fun c =>
    let rs := windowRadio s c
    let mean := meanPower (rs.map (fun r => r.2))
    (rs.filter (fun r => r.2.count != 0)).map (fun r => (⟨c, r.1, radioComp r.2 mean⟩ : CompEnt)))
  seasonHeader (s.regN Reg.CAL_SEASON + 1) (b2n (!ss.isEmpty) + 2 * b2n (!cs.isEmpty)) ss.length cs.length 0 ++
    ss.flatMap scaleBytes ++ cs.flatMap compBytes

/-- CANDIDATE_BUILD: when the collection window has closed CAL builds a candidate season (R200); a new window begins. -/
def execCandidateBuild (s : State) : Host.Outcome State Fault Refusal :=
  up s (fun s => match s.owner with
    | some j =>
      if windowClosed s then
        restartWindow ({ s with candidate := candidateBytes s j }.setFld Fd.CAL_STATUS_CAND_READY 1)
      else s
    | none => s)

/-! ### The end of a slot: the window, the range check (R199, R210) -/

/-- Add two radio records. -/
def Radio.add (a b : Radio) : Radio :=
  ⟨a.count + b.count, a.re + b.re, a.im + b.im, a.power + b.power, a.imgRe + b.imgRe, a.imgIm + b.imgIm, a.imgDen + b.imgDen⟩

/-- Add a slot's measurements to the collection window, unless it has closed. -/
def collect (s : State) (j : Job) (c : Nat) (x : SlotCtx) : State :=
  if windowClosed s then s
  else
    let recs := (j.image.cal.zipIdx).foldl (fun m t =>
      ((tensorRecs x.recs j t.1).zipIdx).foldl (fun m r =>
        Tbl.set statReset m (65536 * t.2 + r.2) ((Tbl.get statReset m (65536 * t.2 + r.2)).add r.1)) m) s.calRecs
    let radio := x.radio.foldl (fun m r =>
      Tbl.set radioReset m (128 * c + r.1) ((Tbl.get radioReset m (128 * c + r.1)).add r.2)) s.calRadio
    { s with calRecs := recs, calRadio := radio,
             calSlots := s.calSlots + b2n (decide (c = s.fld Fd.CAL_CTRL_TICK_SRC)) }

/-- Squared magnitude of a complex difference against a squared limit. -/
def beyond (a b : Frac × Frac) (lim : Frac) : Bool :=
  let dr := Frac.sub a.1 b.1
  let di := Frac.sub a.2 b.2
  Frac.lt (Frac.mul lim lim) (Frac.add (Frac.mul dr dr) (Frac.mul di di))

/-- Does an antenna fail a slot (R210)? -/
def antennaFails (s : State) (v : Comp) (r : Radio) (mean : Frac) : Bool :=
  let (dr, di) := radioDc r
  let dc : Frac := ⟨s.regN Reg.CAL_LIM_DC_RES, 1⟩
  let res := s.regN Reg.CAL_LIM_GAIN_RES
  let g := Frac.mul (radioGain r mean) ⟨v.gain, 2 ^ 14⟩
  Frac.lt dc (Frac.sub dr ⟨v.dcRe, 1⟩).abs || Frac.lt dc (Frac.sub di ⟨v.dcIm, 1⟩).abs ||
    beyond (radioBeta r) (⟨v.bRe, 2 ^ 15⟩, ⟨v.bIm, 2 ^ 15⟩) ⟨s.regN Reg.CAL_LIM_IQ_RES, 2 ^ 15⟩ ||
    Frac.lt ⟨res, 2 ^ 14⟩ (Frac.sub g ⟨1, 1⟩).abs

/-- G of a tensor's producer in the DQ record that a bank holds: the staged G of the shadow check (R206). -/
def bankG (s : State) (j : Job) (bank : Nat) (t : CalTensor) : Nat :=
  match t.producer with
  | (la, off) :: _ => match j.pa la with
    | some n => leAt (s.bankBytes n bank (16 * off) 16) 4 4
    | none => t.gProd.toNat
  | [] => t.gProd.toNat

/-- Does a tensor's measured a_t exceed LIM_ACT times a bank's a_t, where the bank has one (R206, R210)? -/
def tensorGrew (s : State) (bank : Nat) (t : CalTensor) (g : Nat) (recs : List StatRec) : Bool :=
  match tensorAt s t g recs, t.producer with
  | some a, (la, off) :: _ =>
    let b := atOf s bank la off
    b != 0 && Frac.lt (Frac.mul (fp32Val (s.regN Reg.CAL_LIM_ACT)) (fp32Val b)) a
  | _, _ => false

/-- Does the carrier fail the slot? -/
def slotFails (s : State) (j : Job) (c : Nat) (x : SlotCtx) : Bool :=
  let mean := meanPower (x.radio.map (fun r => r.2))
  x.radio.any (fun r => r.2.count != 0 && antennaFails s (compOf s x.bank c r.1) r.2 mean) ||
    j.image.cal.any (fun t => tensorGrew s x.bank t t.gProd.toNat (tensorRecs x.recs j t))

/-- The range check of one slot (R210). -/
def rangeCheck (s : State) (j : Job) (c : Nat) (x : SlotCtx) : State :=
  if slotFails s j c x then
    { (s.setRegBit Reg.CAL_RANGE c true).bump Reg.CAL_RANGE_EVENTS with rangePass := Tbl.set (fun _ => 0) s.rangePass c 0 }
  else
    let n := Tbl.get (fun _ => 0) s.rangePass c + 1
    let s1 : State := { s with rangePass := Tbl.set (fun _ => 0) s.rangePass c n }
    if s.regN Reg.CAL_RANGE_CLEAR ≤ n then s1.setRegBit Reg.CAL_RANGE c false else s1

/-- An uplink slot of the learned path has ended: its measurements are checked and collected where it latched the season in
force, else dropped and counted (R199, R210). -/
def slotMeasured (s : State) (c : Nat) (x : SlotCtx) : State :=
  match s.owner with
  | none => s
  | some j =>
    if !x.ul || x.late || !(j.carriers.contains c) then s
    else if x.season = s.regN Reg.CAL_SEASON then collect (rangeCheck s j c x) j c x
    else s.bump Reg.CAL_STATS_DROPPED

/-! ### Digests (R216) -/

/-- The digest of a staged season: its number, then each adapted tensor in ascending number. -/
def seasonDigest (s : State) (j : Job) (number bank : Nat) : List Byte :=
  let ts := j.image.adaptTensors.mergeSort (fun a b => decide (a.num ≤ b.num))
  sha256 (leBytes 4 number ++ ts.flatMap (fun t => leBytes 2 t.num ++ leBytes 4 t.len ++
    (match j.pa t.la with
     | some n => s.bankBytes n bank t.off t.len
     | none => zeros t.len)))

/-- Is this device a member of an adaptation group, and a season number one that its digests cover? -/
def digestDue (s : State) (number : Nat) : Bool :=
  s.flag Fd.CAL_GROUP_V && number % max 1 (s.fld Fd.CAL_DIGEST_CFG_INTERVAL) == 0

/-- CAL computes the digest of a digest season when it is staged; a member sends it to the root on VC3 (R216, Table 14.5). -/
def takeDigest (s : State) (j : Job) (number : Nat) : State :=
  if digestDue s number then
    let d := seasonDigest s j number (number % 2)
    let s1 := (List.range 8).foldl (fun t i => t.setRegN (Reg.CAL_DIGEST i) (leAt d (4 * i) 4)) s
    let s2 : State := { s1 with digestSeason := number, verdict := 0 }
    let root := s2.fld Fd.CAL_GROUP_ROOT
    if root = deviceId s2 then s2 else sendTo s2 root (pkt 3 (.ctrl (.digest number d)))
  else s

/-! ### Staging (R204 to R206, Table 8.4) -/

/-- Retained slots held (R205). -/
def retainedHeld (s : State) (j : Job) : Nat :=
  match j.image.retention with
  | some r => min (s.regN Reg.CAL_RETAINED) r.count
  | none => 0

/-- Does a slot in flight, or a shadow slot, use a bank? -/
def bankBusy (s : State) (bank : Nat) : Bool :=
  s.cars.any (fun k => k.2.slots.any (fun x => x.bank == bank)) || decide (0 < s.shadowLeft)

/-- A season is staged: STAGED_V, STAGED, and the shadow slots begin on the newest retained slots held (R204 step 3, R206). DESIGN CHOICE, log entry
44. -/
def stagedNow (s : State) (j : Job) (number : Nat) : State :=
  let s1 := ((s.setFld Fd.CAL_STATUS_STAGED_V 1).setRegN Reg.CAL_STAGED number).setFld Fd.CAL_STATUS_SHADOW_FAIL 0
  let s2 := takeDigest { s1 with oddStage := false } j number
  let n := min (s2.fld Fd.CAL_SHADOW_MIN_COUNT) (retainedHeld s2 j)
  if n = 0 then { s2.setFld Fd.CAL_STATUS_SHADOW_OK 1 with shadowLeft := 0 }
  else
    let s3 : State := { s2.setFld Fd.CAL_STATUS_SHADOW_OK 0 with shadowLeft := n, shadowRecs := [] }
    match j.image.shadowObj with
    | some (o, w) => (List.range n).foldl (fun t _ => signalObj t o w false) s3
    | none => s3

/-- Refuse a stage, counted in STAGE_REFUSED. -/
def stageRefused (s : State) (c : Cmd) (status detail : Nat) : State :=
  refuse (s.bump Reg.CAL_STAGE_REFUSED) c status detail

/-- Refusals that SEASON_STAGE and ADAPT_STEP share (Table 8.4). -/
def stageBusy (s : State) : Bool :=
  bankBusy s ((s.regN Reg.CAL_SEASON + 1) % 2) || s.flag Fd.CAL_STATUS_COMMIT_PENDING || windowClosed s

/-- Stage a record whose bytes have been read: checks in the order of Table 8.4, then the three steps of R204. -/
def stageRecord (s : State) (c : Cmd) (j : Job) (b : List Byte) (word : Nat) : State :=
  let r := seasonRec b
  let season := s.regN Reg.CAL_SEASON
  if r.number ≠ (season + 1) % 2 ^ 32 then stageRefused s c St.staleGeneration word
  else if stageBusy s then stageRefused s c St.busy 0
  else if retainedHeld s j < s.fld Fd.CAL_SHADOW_MIN_COUNT then stageRefused s c St.badParam word
  else if !(recordOk s j r) then stageRefused s c St.badParam word
  else
    match readWeights s r.weights with
    | (none, t) => stageRefused t c St.badParam word
    | (some ws, t) =>
      let bank := (season + 1) % 2
      let s1 := applyRec (copyBank t j (season % 2) bank) j bank r ws
      finishCmd (stagedNow s1 j r.number) c St.ok 0 (BitVec.ofNat 64 r.number) 0

/-- SEASON_STAGE (R204). -/
def seasonStageBody (c : Cmd) (s : State) : State :=
  let p := c.pkt
  if extraBits p.p0 1 then refuse s c St.badParam 1
  else match unusedFrom p (if p.p0 = 0 then 1 else 2) with
    | some d => refuse s c St.badParam d
    | none =>
      match editJob s c with
      | .error (st, d) => refuse s c st d
      | .ok j =>
        if p.p0 = 0 then
          if s.flag Fd.CAL_STATUS_CAND_READY then stageRecord s c j s.candidate 1
          else if stageBusy s then stageRefused s c St.busy 0
          else stageRefused s c St.badParam 1
        else if 2 ^ 48 ≤ p.p1.toNat then refuse s c St.badParam 2
        else
          let h := virtRead s calOrigin p.p1.toNat 64
          if h.fault.isSome then stageRefused h.state c St.badParam 2
          else
            let a := virtRead h.state calOrigin p.p1.toNat (seasonLen h.bytes)
            if a.fault.isSome then stageRefused a.state c St.badParam 2 else stageRecord a.state c j a.bytes 2

/-- SEASON_STAGE (R204). -/
def execSeasonStage (p : Pkt) (s : State) : Host.Outcome State Fault Refusal := up s (hostCmd 0x30 p seasonStageBody)

/-- The records of the shadow slots, added up (R206). -/
def shadowTotals (s : State) : List (Nat × StatRec) :=
  s.shadowRecs.foldl (fun m p => Tbl.set statReset m (p.1 % 2 ^ 24) ((Tbl.get statReset m (p.1 % 2 ^ 24)).add p.2)) []

/-- The shadow slots have completed: their records are judged against the staged a_t (R206). -/
def shadowJudge (s : State) (j : Job) : State :=
  let bank := s.regN Reg.CAL_STAGED % 2
  let grew := j.image.cal.any (fun t => tensorGrew s bank t (bankG s j bank t) (tensorRecs (shadowTotals s) j t))
  let s1 := { s.bumpBy Reg.CAL_SHADOW_SLOTS s.shadowLeft with shadowLeft := 0 }
  s1.setFld (if grew then Fd.CAL_STATUS_SHADOW_FAIL else Fd.CAL_STATUS_SHADOW_OK) 1

/-- SHADOW_CHECK: the last shadow slot completes and CAL compares (R206). -/
def execShadowCheck (s : State) : Host.Outcome State Fault Refusal :=
  up s (fun s => match s.owner with
    | some j => if s.flag Fd.CAL_STATUS_STAGED_V && decide (0 < s.shadowLeft) then shadowJudge s j else s
    | none => s)

/-! ### Commit (R207 to R209, Table 8.5) -/

/-- CAL.SEASON changed from what it was: shared source 285 (Table 16.5). -/
def seasonRaise (s : State) (old : Nat) : State := if s.regN Reg.CAL_SEASON = old then s else raiseShared s 285

/-- The change instant (R207): the staged season comes into force; the commit is answered. -/
def changeInstant (s : State) : State :=
  let n := (s.regN Reg.CAL_SEASON + 1) % 2 ^ 32
  let s1 := (s.setRegN Reg.CAL_SEASON n).setFld Fd.CAL_STATUS_STAGED_V 0
  let s2 := (s1.setFld Fd.CAL_STATUS_COMMIT_PENDING 0).setReg Reg.CAL_LAST_CHANGE s1.time64
  let s3 := restartWindow { s2 with rangePass := [] }
  finishWhere (seasonRaise s3 (s.regN Reg.CAL_SEASON)) 0x31 (fun _ => true) St.ok 0 (BitVec.ofNat 64 n) s3.time64

/-- Has a pending commit still to wait for a digest verdict (R218)? -/
def awaitsVerdict (s : State) : Bool :=
  digestDue s (s.regN Reg.CAL_STAGED) && !(s.digestSeason == s.regN Reg.CAL_STAGED && s.verdict == 1)

/-- A slot tick of a carrier: a pending commit takes effect at the tick of the reference carrier (R207). -/
def commitAtTick (s : State) (c : Nat) : State :=
  if s.flag Fd.CAL_STATUS_COMMIT_PENDING && decide (c = s.fld Fd.CAL_CTRL_TICK_SRC) && !(awaitsVerdict s) then changeInstant s
  else s

/-- SEASON_COMMIT (R207, Table 8.5). -/
def seasonCommitBody (c : Cmd) (s : State) : State :=
  match unusedFrom c.pkt 1 with
  | some d => refuse s c St.badParam d
  | none =>
    match editJob s c with
    | .error (st, d) => refuse s c st d
    | .ok j =>
      if !(s.flag Fd.CAL_STATUS_STAGED_V) then refuse s c St.badParam 1
      else if s.flag Fd.CAL_STATUS_COMMIT_PENDING ∨ 0 < s.shadowLeft then refuse s c St.busy 0
      else if s.flag Fd.CAL_STATUS_SHADOW_FAIL ∨ s.oddStage then
        refuse s c St.checkMismatch 0
      else if c.pkt.p0.toNat ≠ s.regN Reg.CAL_STAGED then refuse s c St.staleGeneration 1
      else
        let s1 := s.setFld Fd.CAL_STATUS_COMMIT_PENDING 1
        if j.image.slotTable.isEmpty && !(awaitsVerdict s1) then changeInstant s1 else s1

/-- SEASON_COMMIT (R207). -/
def execSeasonCommit (p : Pkt) (s : State) : Host.Outcome State Fault Refusal := up s (hostCmd 0x31 p seasonCommitBody)

/-- COMMIT_WITHDRAWAL: 20 ms after its acceptance a commit whose reference carrier has not ticked is withdrawn (R209). -/
def execCommitWithdrawal (s : State) : Host.Outcome State Fault Refusal :=
  up s (fun s =>
    if s.flag Fd.CAL_STATUS_COMMIT_PENDING then
      finishWhere (s.setFld Fd.CAL_STATUS_COMMIT_PENDING 0) 0x31 (fun _ => true) St.deadlineMissed 0 0 0
    else s)

/-! ### The initial season (R208) -/

/-- Every array and cluster of a job begins on a bank: the one of the season in force (R202). -/
def latchAll (s : State) (j : Job) (number : Nat) : State :=
  let s1 := j.la.foldl (fun t p => (t.setRegN (Reg.MA_SBANK p.2) (number % 2)).setRegN (Reg.MA_SSEASON p.2) number) s
  (List.range 12).foldl (fun t d => (t.setRegN (Reg.DSC_SBANK d) (number % 2)).setRegN (Reg.DSC_SSEASON d) number) s1

/-- JOB_START installs the image's initial season record as a commit (R208): its number, its bank; CAL begins anew. -/
def initialSeason (s : State) (j : Job) : State :=
  let r := seasonRec j.image.seasonRecord
  let (ws, s1) := readWeights { s with seasonAt := [], comp := [] } r.weights
  let s2 := applyRec s1 j (r.number % 2) r (ws.getD [])
  let s3 := ((s2.setRegN Reg.CAL_SEASON r.number).setRegN Reg.CAL_STATUS 0).setReg Reg.CAL_LAST_CHANGE s2.time64
  let s4 := restartWindow { s3.setRegN Reg.CAL_RETAINED 0 with rangePass := [], shadowLeft := 0, candidate := [], agreed := [], oddStage := false, shadowRecs := [] }
  latchAll (seasonRaise s4 (s.regN Reg.CAL_SEASON)) j r.number

end Sys2Proof.Machine
end

