-- ==== Sys2Proof/Machine/Adapt.lean ====
section
/-! DEFINITION. On-site adaptation (R213 to R218): the adaptation step, its sum over the group (R382), digests and verdicts. -/

namespace Sys2Proof.Machine

/-! ### Sums (R24, R25) -/

/-- One lane, the left operand first (R24, R105): lane format 0 INT64, 1 FP32, 2 compact (Table 14.4). FP32 lanes overflow and meet NaN as
the vector engines' additions do (R133). DESIGN CHOICE, log entry 95. -/
def addLane (lane a b : Nat) : Nat :=
  match lane with
  | 0 => (a + b) % 2 ^ 64
  | 1 => (vBin .add 6 6 a b).1
  | _ => (comb a b).1

/-- Add two vectors of lanes. -/
def addLanes (lane : Nat) (a b : List Nat) : List Nat := List.zipWith (addLane lane) a b

/-- Bytes of a lane: 64, 32 or 24 bits (R104). -/
def laneBytes (lane : Nat) : Nat := [8, 4, 3].getD lane 3

/-- One level of the tree of R25: pairs are added, the last of an odd count passes. DESIGN CHOICE, log entry 95. -/
def treeLevel (lane : Nat) : List (List Nat) → List (List Nat)
  | a :: b :: r => addLanes lane a b :: treeLevel lane r
  | l => l

/-- The tree of R25 over the participants in order. -/
def treeSum (lane : Nat) : Nat → List (List Nat) → List Nat
  | _, [] => []
  | _, [a] => a
  | 0, a :: _ => a
  | k + 1, l => treeSum lane k (treeLevel lane l)

/-! ### The update (R214 steps 5 and 6) -/

/-- The adapted tensors of a job in ascending number. -/
def adaptList (j : Job) : List AdaptTensor := j.image.adaptTensors.mergeSort (fun a b => decide (a.num ≤ b.num))

/-- Elements of a tensor. -/
def adaptCount (t : AdaptTensor) : Nat :=
  if t.fmt = 10 then t.len / 52 * 256 + min (t.len % 52 * 5) 256 else t.len * 8 / vtBits t.fmt

/-- The new code of one element: x := w - eta * min(max(g, -c), c) in FP32, converted with its scale by VCVT with RND 1 (R131, R132). -/
def adaptElement (t : AdaptTensor) (seed step eta clip k w g : Nat) : VRes :=
  let sc := some ((t.scales.getD (k / max 1 t.group) 0).toNat)
  let x := (vConvert t.fmt 6 false (if cvtNarrow t.fmt then sc else none) w none).1
  let lim := (vBin .min 6 6 (vBin .max 6 6 g (vNeg 6 6 clip).1).1 clip).1
  let y := (vBin .sub 6 6 x (vBin .mul 6 6 eta lim).1).1
  vConvert 6 t.fmt t.cw (if cvtNarrow t.fmt then sc else none) y (some (gen32 seed 2 (0x80 + t.engine) ((t.xc + k) % 2 ^ 32) step))

/-- Update one tensor from its summed gradients: its new bytes go to the staged bank, saturations are counted. -/
def adaptTensor (s : State) (j : Job) (step eta clip : Nat) (t : AdaptTensor) (g : List Nat) : State :=
  match j.pa t.la with
  | none => s
  | some n =>
    let season := s.regN Reg.CAL_SEASON
    let ws := vtUnpack t.fmt (adaptCount t) (s.bankBytes n (season % 2) t.off t.len)
    let rs := ws.zipIdx.map (fun w => adaptElement t j.seed step eta clip w.2 w.1 (g.getD w.2 0))
    let sat := (rs.filter (fun r => r.2.contains VEv.cvtSat)).length
    let s1 := (s.putBank n ((season + 1) % 2) t.off ((vtPack t.fmt (rs.map (fun r => r.1))).take t.len)).bumpBy Reg.CAL_ADAPT_SAT sat
    match j.lv.find? (fun p => p.1 == t.engine) with
    | some p => s1.bumpBy (Reg.VE_EVT_CVT_SAT p.2) sat
    | none => s1

/-- The group sum has come: update, install into the staged bank, reply (R214). DESIGN CHOICE, log entry 45. -/
def adaptFinish (s : State) (c : Cmd) (sum : List Nat) : State :=
  match s.owner with
  | none => s
  | some j =>
    let season := s.regN Reg.CAL_SEASON
    let step := c.pkt.p0.toNat
    let eta := bitsOf c.pkt.p1.toNat 31 0
    let clip := bitsOf c.pkt.p1.toNat 63 32
    let s0 := copyBank s j (season % 2) ((season + 1) % 2)
    let (s1, _) := (adaptList j).foldl (fun (a : State × List Nat) t =>
      (adaptTensor a.1 j step eta clip t (a.2.take (adaptCount t)), a.2.drop (adaptCount t))) (s0, sum)
    let s2 := (stagedNow s1 j ((season + 1) % 2 ^ 32)).setRegN Reg.CAL_ADAPT_STEP_NO step
    finishCmd s2 c St.ok 0 (BitVec.ofNat 64 ((season + 1) % 2 ^ 32)) 0

/-! ### Reductions over the group (R382) -/

/-- Send a value to a member as REDUCE packets on VC1. DESIGN CHOICE, log entry 95. -/
def sendReduce (s : State) (slot lane number node to_ : Nat) (result : Bool) (v : List Nat) : State :=
  match usePath s to_ with
  | .error _ => s
  | .ok (n, t) =>
    let bs := v.flatMap (leBytes (laneBytes lane))
    (packetCuts t n bs.length).zipIdx.foldl (fun u c =>
      ilpSend u n to_ (pkt 1 (.reduce slot lane number c.2 node result ((bs.drop c.1.1).take c.1.2)))) t

/-- The value that a member sent for a node, or as a result, once all its chunks are here. -/
def arrived (s : State) (slot lane number node src : Nat) (result : Bool) (total : Nat) : Option (List Nat) :=
  let cs := s.redIn.filter (fun r => r.slot == slot && r.number == number && r.src == src && r.result == result &&
    (result || r.node == node))
  let bs := (List.range cs.length).flatMap (fun k => ((cs.find? (fun r => r.chunk == k)).map (fun r => r.payload)).getD [])
  if bs.length = laneBytes lane * total ∧ 0 < cs.length then some (chunks (laneBytes lane) total bs) else none

/-- The member that holds a participant, by its place among the members. -/
def holderOf : List Nat → Nat → Nat
  | [], _ => 0
  | c :: r, p => if p < c then 0 else 1 + holderOf r (p - c)

/-- The node of a level whose first participant is on member m and whose left neighbour's is not: m sends it as a right operand (R382). -/
def crossNode (cs : List Nat) (m level : Nat) : Option Nat :=
  let z := 2 ^ level
  let o := (cs.take m).sum
  let j := (o + z - 1) / z
  if j % 2 = 1 ∧ j * z < o + cs.getD m 0 then some j else none

/-- The member from which the result comes down to m: the holder of the left operand beside the highest node that m sends. -/
def parentOf (cs : List Nat) (m : Nat) : Option Nat :=
  (List.range 17).reverse.findSome? (fun l => (crossNode cs m l).map (fun j => holderOf cs ((j - 1) * 2 ^ l)))

/-- What a node that is held here can do (R25, R382): nothing yet, pass to the next level, go to the holder of its left operand, be added to
its right operand, or be the root. -/
inductive NodeAct where
  | wait
  | up
  | send (to_ : Nat)
  | add (v : List Nat)
  | root
  deriving DecidableEq, Repr

/-- What a node held here can do. -/
def nodeAct (s : State) (i : Nat) (r : Reduction) (n : RedNode) : NodeAct :=
  let z := 2 ^ n.level
  let holder (k : Nat) : Nat := holderOf r.counts (k * z)
  if n.index % 2 = 1 then (if holder (n.index - 1) = i then .wait else .send (holder (n.index - 1)))
  else if r.counts.sum ≤ (n.index + 1) * z then (if n.index = 0 then .root else .up)
  else if holder (n.index + 1) = i then
    match r.nodes.find? (fun m => m.level == n.level && m.index == n.index + 1) with
    | some m => .add m.lanes
    | none => .wait
  else match (groupMembers s r.slot)[holder (n.index + 1)]? with
    | some m => (match arrived s r.slot r.lane r.number n.level m false r.width with
      | some v => .add v
      | none => .wait)
    | none => .wait

/-- The sum is here: it goes down the tree; in an adaptation group the step ends, else the lanes are the group's result. -/
def reductionDone (s : State) (r : Reduction) (i : Nat) (v : List Nat) : State :=
  let ms := groupMembers s r.slot
  let s1 : State := { s with
    reductions := s.reductions.filter (fun x => x.slot != r.slot)
    redIn := s.redIn.filter (fun x => !(x.slot == r.slot && x.number == r.number)) }
  let below := (ms.zipIdx.filter (fun m => m.2 != i && r.counts.getD m.2 0 != 0 && parentOf r.counts m.2 == some i)).map (fun m => m.1)
  let s2 := below.foldl (fun t m => sendReduce t r.slot r.lane r.number 0 m true v) s1
  if groupAdapts s2 r.slot then
    match s2.executing 0x32 (fun _ => true) with
    | some c => adaptFinish s2 c v
    | none => s2
  else { s2 with redOut := Tbl.set (fun _ => []) s2.redOut r.slot v }

/-- A reduction goes up the tree as far as what has arrived allows. -/
def climb (s : State) (i : Nat) : Nat → Reduction → State
  | 0, r => { s with reductions := s.reductions.map (fun x => if x.slot = r.slot then r else x) }
  | fuel + 1, r =>
    let ms := groupMembers s r.slot
    let keep (r : Reduction) : State := { s with reductions := s.reductions.map (fun x => if x.slot = r.slot then r else x) }
    if r.nodes.isEmpty then
      match (parentOf r.counts i).bind (fun p => ms[p]?) with
      | some m => match arrived s r.slot r.lane r.number 0 m true r.width with
        | some v => reductionDone s r i v
        | none => keep r
      | none => keep r
    else match r.nodes.find? (fun n => decide (nodeAct s i r n ≠ .wait)) with
      | none => keep r
      | some n =>
        let rest := r.nodes.filter (fun m => m != n)
        match nodeAct s i r n with
        | .wait => keep r
        | .root => reductionDone s r i n.lanes
        | .up => climb s i fuel { r with nodes := rest ++ [⟨n.level + 1, n.index / 2, n.lanes⟩] }
        | .add v => climb s i fuel { r with
            nodes := rest.filter (fun m => !(m.level == n.level && m.index == n.index + 1)) ++
              [⟨n.level + 1, n.index / 2, addLanes r.lane n.lanes v⟩] }
        | .send p =>
          (match ms[p]? with
           | some m => climb (sendReduce s r.slot r.lane r.number n.level m false n.lanes) i fuel { r with nodes := rest }
           | none => climb s i fuel { r with nodes := rest })

/-- The reduction of a slot goes on. DESIGN CHOICE, log entry 95. -/
def reduceOn (s : State) (slot : Nat) : State :=
  match s.reductions.find? (fun r => r.slot == slot) with
  | none => s
  | some r => climb s ((groupMembers s slot).findIdx (fun m => m == deviceId s)) (2 * r.nodes.length + 40) r

/-- A reduction begins: this device holds its own participants at level 0, numbered by device ID, then by logical number (R25, R382). -/
def openReduction (s : State) (slot lane number : Nat) (counts : List Nat) (own : List (List Nat)) : State :=
  let o := (counts.take ((groupMembers s slot).findIdx (fun m => m == deviceId s))).sum
  { s with reductions := s.reductions ++
      [⟨slot, lane, number, counts, (own.headD []).length, own.zipIdx.map (fun p => ⟨0, o + p.2, p.1⟩)⟩] }

/-! ### ADAPT_STEP (R214, R215) -/

/-- Is a range of retention numbers held (R205)? -/
def retentionHeld (s : State) (j : Job) (first last : Nat) : Bool :=
  let n := s.regN Reg.CAL_RETAINED
  decide (first ≤ last) && decide (last < n) && decide (n - retainedHeld s j ≤ first)

/-- The local sums of a step, tensor after tensor (R214 step 3). -/
def localSums (j : Job) (g : GradOp) : List Nat :=
  ((adaptList j).zipIdx).flatMap (fun t =>
    let parts := ((g.tensors.getD t.2 []).map (fun l => padNat (adaptCount t.1) (l.map BitVec.toNat)))
    padNat (adaptCount t.1) (treeSum 1 parts.length parts))
where
  /-- A vector of a length, missing lanes 0. -/
  padNat (n : Nat) (l : List Nat) : List Nat := (l ++ List.replicate n 0).take n

/-- ADAPT_STEP (R214, Table 8.7). -/
def adaptStepBody (g : GradOp) (c : Cmd) (s : State) : State :=
  let p := c.pkt
  if extraBits p.p0 0xFFFFFFFF then refuse s c St.badParam 1
  else match unusedFrom p 3 with
    | some d => refuse s c St.badParam d
    | none =>
      match editJob s c with
      | .error (st, d) => refuse s c st d
      | .ok j =>
        if s.flag Fd.CAL_STATUS_EXPELLED then refuse s c St.badParam 0
        else if p.p0.toNat ≠ (s.regN Reg.CAL_ADAPT_STEP_NO + 1) % 2 ^ 32 then refuse s c St.staleGeneration 1
        else if stageBusy s || (adaptSlot s).any (fun g => s.reductions.any (fun r => r.slot == g)) then refuse s c St.busy 0
        else if !(retentionHeld s j (bitsOf p.p2.toNat 31 0) (bitsOf p.p2.toNat 63 32)) then refuse s c St.badParam 3
        else
          let sum := localSums j g
          match adaptSlot s with
          | none => adaptFinish s c sum
          | some slot =>
            reduceOn (openReduction s slot 1 p.p0.toNat ((groupMembers s slot).map (fun _ => 1)) [sum]) slot

/-- ADAPT_STEP (R214). -/
def execAdaptStep (p : Pkt) (g : GradOp) (s : State) : Host.Outcome State Fault Refusal :=
  up s (hostCmd 0x32 p (adaptStepBody g))

/-- GROUP_SUM_TIMEOUT (R215): DIGEST_CFG.TIMEOUT has passed without the group sum. -/
def execGroupSumTimeout (s : State) : Host.Outcome State Fault Refusal :=
  up s (fun s => match adaptSlot s with
    | some g => abandonReductions s g
    | none => s)

/-! ### Digests and verdicts (R216 to R218) -/

/-- This device's latest digest. -/
def ownDigest (s : State) : List Byte := (List.range 8).flatMap (fun i => leBytes 4 (s.regN (Reg.CAL_DIGEST i)))

/-- DIGEST_REPORT (R216): the digest, its season, the verdict. -/
def digestReportBody (c : Cmd) (s : State) : State :=
  match unusedFrom c.pkt 0 with
  | some d => refuse s c St.badParam d
  | none => okCmd (postData s c (ownDigest s ++ leBytes 4 s.digestSeason ++ leBytes 1 s.verdict)) c

/-- DIGEST_REPORT (R216). -/
def execDigestReport (p : Pkt) (s : State) : Host.Outcome State Fault Refusal := up s (hostCmd 0x33 p digestReportBody)

/-- The digest that more than half of a group's members hold (R217). -/
def majority (n : Nat) (ds : List (List Byte)) : Option (List Byte) :=
  ds.find? (fun d => decide (n < 2 * (ds.filter (fun e => e == d)).length))

/-- The device is expelled (R218): a pending commit is not made and is answered; it leaves the group. -/
def expel (s : State) : State :=
  let d := ownDigest s
  let s1 := raiseShared ((s.setFld Fd.CAL_STATUS_EXPELLED 1).bump Reg.CAL_EXPULSIONS) 286
  let s2 := s1.log 0x0F calOrigin 0x140000 s.digestSeason (leAt d 0 8)
  let s3 := if s.flag Fd.CAL_STATUS_COMMIT_PENDING then
      finishWhere (s2.setFld Fd.CAL_STATUS_COMMIT_PENDING 0) 0x31 (fun _ => true) St.checkMismatch 0 0 0
    else s2
  leaveAdaptation { s3 with verdict := 2, oddStage := true }

/-- A verdict takes effect in this device: it agrees, or it is odd (R217, R218): its digest is another, or did not reach the root. -/
def takeVerdict (s : State) (agreed : Option (List Byte)) (arrived : Bool) : State :=
  if agreed = some (ownDigest s) ∧ arrived = true then
    let s1 : State := { s with verdict := 1, agreed := ownDigest s }
    match s1.owner with
    | some j =>
      if s1.flag Fd.CAL_STATUS_COMMIT_PENDING && j.image.slotTable.isEmpty && !(awaitsVerdict s1) then changeInstant s1 else s1
    | none => s1
  else expel s

/-- Is a verdict on this device's digest outstanding? -/
def verdictDue (s : State) : Bool := s.flag Fd.CAL_GROUP_V && s.verdict == 0 && s.digestSeason != 0

/-- DIGEST_VERDICT (R217): the root has every digest, or TIMEOUT has passed after its own; `ds`: the digests that have come. -/
def execDigestVerdict (ds : List (BitVec 12 × List Byte)) (s : State) : Host.Outcome State Fault Refusal :=
  up s (fun s => match adaptSlot s with
    | some g =>
      if verdictDue s && groupRoot s g == deviceId s then
        let ms := groupMembers s g
        let others := ms.filterMap (fun m => if m = deviceId s then none else (ds.find? (fun d => d.1.toNat == m)).map (fun d => d.2))
        let a := majority ms.length (ownDigest s :: others)
        let s1 := (ms.filter (fun m => m != deviceId s)).foldl (fun t m =>
          sendTo t m (pkt 3 (.ctrl (.verdict s.digestSeason a (ds.any (fun d => d.1.toNat == m)))))) s
        takeVerdict s1 a true
      else s
    | none => s)

/-- DIGEST_VERDICT_RECEIVE (R217, R218): the root's verdict and whether this member's digest had reached it, or none within TIMEOUT: the member is odd. -/
def execDigestVerdictReceive (v : Option (Option (List Byte) × Bool)) (s : State) : Host.Outcome State Fault Refusal :=
  up s (fun s => match adaptSlot s with
    | some g => if verdictDue s && groupRoot s g != deviceId s then takeVerdict s (v.getD (none, false)).1 (v.getD (none, false)).2 else s
    | none => s)

end Sys2Proof.Machine
end

