-- ==== Sys2Proof/Machine/Attention.lean ====
section
/-! DEFINITION. The attention engines (R139 to R163): step descriptors, appends, evictions, the walk with its IEEE scores and
online softmax, importance, the completion record. -/

namespace Sys2Proof.Machine

/-! ### IEEE binary32 with infinities (R152, R153) -/

/-- The product of an exact finite value and a number, exact. -/
def flScale (e : Frac) (x : Fl) : Fl :=
  match x with
  | .fin neg v => .fin (neg != decide (e.num < 0)) (Frac.mul e v)
  | .inf neg => if e.isZero then .nan else .inf (neg != decide (e.num < 0))
  | .nan => .nan

/-- The exact product of two numbers. -/
def flMul (x y : Fl) : Fl :=
  match x, y with
  | .nan, _ => .nan
  | _, .nan => .nan
  | .fin n v, .inf m => if v.isZero then .nan else .inf (n != m)
  | .inf n, .fin m v => if v.isZero then .nan else .inf (n != m)
  | .inf n, .inf m => .inf (n != m)
  | .fin n v, .fin m w => .fin (n != m) (Frac.mul v w)

/-- The exact sum of two numbers. -/
def flAdd (x y : Fl) : Fl :=
  match x, y with
  | .nan, _ => .nan
  | _, .nan => .nan
  | .inf n, .inf m => if n = m then .inf n else .nan
  | .inf n, _ => .inf n
  | _, .inf m => .inf m
  | .fin n v, .fin m w => .fin (n && m) (Frac.add v w)

/-- The exact quotient of two numbers. -/
def flDiv (x y : Fl) : Fl :=
  match x, y with
  | .nan, _ => .nan
  | _, .nan => .nan
  | .inf _, .inf _ => .nan
  | .inf n, .fin m _ => .inf (n != m)
  | .fin n _, .inf m => .fin (n != m) ⟨0, 1⟩
  | .fin n v, .fin m w =>
    if w.isZero then (if v.isZero then .nan else .inf (n != m)) else .fin (n != m) (Frac.div v w)

/-- The sign flip of a number. -/
def flNeg : Fl → Fl
  | .fin n v => .fin (!n) v.neg
  | .inf n => .inf (!n)
  | .nan => .nan

/-- One rounding to FP32, nearest with ties to even, with infinities: rne32. A zero is positive (R34). -/
def rne32 : Fl → Nat
  | .fin neg v =>
    let x := (fp32.roundInf neg v).1
    if x = fp32.signBit then 0 else x
  | .inf neg => fp32.infBits + (if neg then fp32.signBit else 0)
  | .nan => 0x7FC00000

/-- An FP32 number. -/
def f32 (x : Nat) : Fl := fp32.decode x

/-- Is a number finite? -/
def Fl.finite : Fl → Bool
  | .fin _ _ => true
  | _ => false

/-- The value of a finite number. -/
def Fl.val : Fl → Frac
  | .fin _ v => v
  | _ => ⟨0, 1⟩

/-- exp2 of FP32 bits (R128). -/
def aeExp2 (x : Nat) : Nat := (vExp2 x).1

/-- Rounding to 8 significant bits, ties to even: rnd8. -/
def rnd8 (x : Frac) : Frac :=
  if x.num ≤ 0 then ⟨0, 1⟩
  else
    let (r, q) := (FloatFmt.mk 8 (-1000) 1000 12).roundMag x.num.natAbs x.den
    Frac.shift ⟨r, 1⟩ q

/-! ### The step descriptor (Table 6.3) -/

/-- A step descriptor. -/
structure StepDesc where
  seq : Nat
  head : Nat
  rows : Nat
  napp : Nat
  infmt : Nat
  outfmt : Nat
  wait : Option Nat
  sig : Option Nat
  q : Nat
  new : Nat
  out : Nat
  s : Nat
  gk : Nat
  gv : Nat
  amask : Nat
  reserved : Bool
  deriving DecidableEq, Repr

/-- Read a descriptor. -/
def stepDesc (bs : List Byte) : StepDesc :=
  let w := leAt bs 0 4
  let x := leAt bs 4 4
  { seq := w % 16384, head := w / 2 ^ 14 % 8, rows := w / 2 ^ 17 % 8 + 1, napp := w / 2 ^ 20 % 32, infmt := w / 2 ^ 25 % 4,
    outfmt := w / 2 ^ 27 % 4, wait := if bitOf x 30 then some (x % 16384) else none,
    sig := if bitOf x 31 then some (x / 65536 % 16384) else none,
    q := leAt bs 8 6, new := leAt bs 0x10 6, out := leAt bs 0x18 6, s := leAt bs 0x20 4, gk := leAt bs 0x24 4,
    gv := leAt bs 0x28 4, amask := leAt bs 0x2C 2,
    reserved := w / 2 ^ 29 != 0 || x / 2 ^ 14 % 4 != 0 || leAt bs 14 2 != 0 || leAt bs 0x16 2 != 0 || leAt bs 0x1E 2 != 0 ||
      leAt bs 0x2E 2 != 0 }

/-- Is a descriptor refused (R148)? -/
def stepRefused (d : StepDesc) (x : SeqHead) : Bool :=
  !x.valid || decide (x.heads ≤ d.head) || d.infmt == 3 || d.outfmt == 3 || decide (16 < d.napp) || d.reserved

/-- SSP address of the descriptor at an engine's ring head. -/
def aeDescAddr (s : State) (n : Nat) : Nat := sspBase + s.regN (Reg.AE_RING_BASE n) + 64 * s.fld (Fd.AE_RING_HEAD_INDEX n)

/-- The next ring index. -/
def aeAdvance (s : State) (n : Nat) : State :=
  s.setRegN (Reg.AE_RING_HEAD n) ((s.fld (Fd.AE_RING_HEAD_INDEX n) + 1) % 2 ^ (s.fld (Fd.AE_RING_CFG_SIZE n) + 4))

/-- The completion record: bytes 0x30 to 0x3F of the descriptor. SFLAGS bit 0 is DONE. -/
def stepRecord (status sflags walked holes : Nat) (rows : List Nat) : List Byte :=
  leBytes 1 status ++ leBytes 1 sflags ++ leBytes 2 walked ++ leBytes 2 holes ++ zeros 2 ++
    padTo 8 (rows.map (BitVec.ofNat 8))

/-! ### A page in hand (Table 6.2) -/

/-- Element d of position i of K (or V at 0x400) as an array integer. -/
def pageElem (pg : List Byte) (base : Nat) (fp4 : Bool) (i d : Nat) : Int :=
  let c := nibbleAt (pg.drop (base + 64 * i)) d
  if fp4 then fp4Half c else signed 4 c

/-- Does position i take part (R151)? -/
def pageLive (pg : List Byte) (i : Nat) : Bool := bitOf (leAt pg 0x810 2) i && !(bitOf (leAt pg 0x812 2) i)

/-! ### Appending (R145, R146) -/

/-- What a step keeps while it runs. -/
structure StepRun where
  st : State
  x : SeqHead
  sflags : Nat

/-- The access origin of an engine (Table 12.5). -/
def aeOrigin (n : Nat) : Nat := 24 + n

/-- No descriptor taken. -/
def noDesc (_ : Nat) : List Byte := []

/-- The descriptor of an engine's step: the one it took, or the one at its ring head, which it takes now (R147). -/
def aeTaken (s : State) (n : Nat) : BusRead :=
  match Tbl.get noDesc s.aeDesc n with
  | [] =>
    let r := busRead s (aeOrigin n) (aeDescAddr s n) 64
    { r with state := { r.state with aeDesc := Tbl.set noDesc r.state.aeDesc n r.bytes } }
  | bs => ⟨bs, false, false, s⟩

/-- An element of an appended row. -/
def rowElem (fmt : Nat) (bs : List Byte) (d : Nat) : Fl :=
  match fmt with
  | 0 => fp32.decode (leAt bs (4 * d) 4)
  | 1 => bf16.decode (leAt bs (2 * d) 2)
  | _ => fp16.decode (leAt bs (2 * d) 2)

/-- Bytes of a row of D elements, padded to 64. -/
def rowStride (fmt dim : Nat) : Nat := ((dim * (if fmt = 0 then 4 else 2) + 63) / 64) * 64

/-- The dynamic scale of a magnitude for limit L (R51), and whether it was clamped. -/
def appendScale (amax : Frac) (l : Int) : Nat × Bool :=
  if amax.isZero then (0x78, false)
  else if Frac.lt (Frac.mul ⟨l, 1⟩ ⟨122880, 1⟩) amax then (0xFF, true)
  else (ue5m3Ceil (Frac.div amax ⟨l, 1⟩), false)

/-- Magnitude of an element, an infinity beyond every scale. -/
def elemMag : Fl → Frac
  | .fin _ v => v.abs
  | .inf _ => ⟨2 ^ 130, 1⟩
  | .nan => ⟨0, 1⟩

/-- Quantise one element under a scale code (R49): its 4-bit code and whether it saturated; the code of a NaN is free. -/
def appendCode (s : State) (fp4 : Bool) (scale : Nat) (x : Fl) : Nat × Bool × State :=
  let enc (v : Frac) : Nat × Bool :=
    if fp4 then let (h, sat) := roundFp4 v; (fp4Code h, sat) else let (y, sat) := roundInt4 false v; (wrapN 4 y, sat)
  match x with
  | .nan => let (v, s1) := s.free; (v.toNat % 16, false, s1)
  | .inf neg => let (c, _) := enc ⟨if neg then -100 else 100, 1⟩; (c, true, s)
  | .fin _ v =>
    if scale = 0 then (0, false, s)
    else let (c, sat) := enc (Frac.div v (ue5m3 scale)); (c, sat, s)

/-- Quantise a row with a scale per element: packed bytes, saturations. -/
def appendRow (s : State) (fp4 : Bool) (scales : List Nat) (xs : List Fl) : List Byte × Nat × State :=
  let (codes, sats, s1) := xs.zipIdx.foldl (fun (a : List Nat × Nat × State) x =>
    let (c, sat, t) := appendCode a.2.2 fp4 (scales.getD x.2 0) x.1
    (a.1 ++ [c], a.2.1 + b2n sat, t)) ([], 0, s)
  (padTo 64 (packGroups 2 16 0 ((codes.length + 1) / 2) codes), sats, s1)

/-- A timing-dependent choice of kind 9: an eviction or a dropped position for want of a free frame (R161). -/
def noteNoFrame (s : State) (n : Nat) : State := countTdc s 9 (120 + n)

/-- Evict a block of the head: CAND, or the oldest mapped block (R159). None: nothing is mapped. -/
def evict (r : StepRun) (n : Nat) (d : StepDesc) (block : Option Nat) : Option (Frame × StepRun) :=
  let bs := kvBlocks r.st d.seq d.head
  let victim := match block with
    | some b => if bs.contains b then some b else bs.head?
    | none => if bs.contains r.x.cand && decide (r.x.cand + 1 ≠ r.x.next) then some r.x.cand else bs.head?
  match victim.bind (kvLookup r.st d.seq d.head) with
  | none => none
  | some p =>
    let s1 := (kvUnmap r.st (aeOrigin n) r.x.heads [p]).bump (Reg.AE_EVICTIONS n)
    let x1 := { r.x with live := r.x.live - 1 }
    let x2 := if p.block = r.x.first then { x1 with first := nextFirst s1 d.seq d.head x1 } else x1
    some (p.frame, ⟨s1, x2, r.sflags ||| 8⟩)

/-- A frame for a new block (R146, R161): handed over by an eviction, from the free list of the head's class, or by an
eviction forced by an empty list. -/
def frameForBlock (r : StepRun) (n : Nat) (d : StepDesc) : Option (Frame × StepRun) :=
  if r.x.next - r.x.first = pph r.x.heads then evict r n d (some r.x.first)
  else if r.x.live = r.x.budget then evict r n d none
  else match takeFrame r.st r.x.remote with
    | some (f, s1) => some (f, { r with st := s1 })
    | none => (evict r n d none).map (fun y => (y.1, { y.2 with st := noteNoFrame y.2.st n }))

/-- The header, V scales apart, importance of a page just opened (R145). -/
def openPage (s : State) (n va b : Nat) (d : StepDesc) : Access :=
  let hdr := zeros 16 ++ zeros 4 ++ leBytes 4 b ++ leBytes 4 d.gk ++ leBytes 4 d.gv ++ zeros 32
  let a := virtWrite s (aeOrigin n) (va + 0x800) hdr
  if a.fault.isSome then a else virtWrite a.state (aeOrigin n) (va + 0x8C0) (zeros 64)

/-- A position is not written: APPEND_DROPPED, and for want of a frame the count of R161. -/
def dropPosition (r : StepRun) (n : Nat) (noFrame : Bool) : StepRun :=
  { r with sflags := r.sflags ||| 2, st := if noFrame then noteNoFrame (r.st.bump Reg.AE0_KV_POOL_EMPTY) n else r.st }

/-- Open block NEXT (R146): the run after it, and whether a page is open. -/
def openBlock (r : StepRun) (n : Nat) (d : StepDesc) : Bool × StepRun :=
  match frameForBlock r n d with
  | none => (false, dropPosition r n true)
  | some (f, r1) =>
    let b := r1.x.next
    let va := blockVa r1.st r1.x.heads d.seq d.head b
    let (ok, s1) := kvSetEntry r1.st (aeOrigin n) va (frameEntry f)
    if !ok then (false, dropPosition { r1 with st := showPool { s1 with kvFree := f :: s1.kvFree } } n false)
    else
      let s2 := showPool { s1 with kvPages := s1.kvPages ++ [⟨d.seq, d.head, b, f⟩] }
      let a := openPage s2 n va b d
      let r2 := { r1 with st := a.state, x := { r1.x with next := b + 1, live := r1.x.live + 1 } }
      if a.fault.isSome then (false, dropPosition r2 n false) else (true, r2)

/-- Write one position into the page of a block at slot i (R145). -/
def writePosition (r : StepRun) (n : Nat) (d : StepDesc) (j i va : Nat) (pg : List Byte) (ks vs : List Fl) : StepRun :=
  let kl : Int := if r.x.kfp4 then 6 else 7
  let vl : Int := if r.x.vfp4 then 6 else 7
  let kmax := (ks.map elemMag).foldl fracMax ⟨0, 1⟩
  let (kscale, clamp) := appendScale kmax kl
  let vscales := if i = 0 then vs.map (fun v => (appendScale (Frac.mul (elemMag v) ⟨2 ^ r.x.hr, 1⟩) vl).1)
    else (List.range vs.length).map (fun e => byteAt' pg (0x840 + e))
  let (kb, ksat, s1) := appendRow r.st r.x.kfp4 (List.replicate ks.length kscale) ks
  let (vb, vsat, s2) := appendRow s1 r.x.vfp4 vscales vs
  let o := aeOrigin n
  let occ := leAt pg 0x810 2 ||| 2 ^ i
  let mask := (leAt pg 0x812 2 &&& (0xFFFF - 2 ^ i)) ||| (if bitOf d.amask j then 2 ^ i else 0)
  let s3 := s2.bumpBy (Reg.AE_KV_SAT n) (ksat + vsat + b2n clamp)
  let w1 := virtWrite s3 o (va + 64 * i) kb
  let w2 := virtWrite w1.state o (va + 0x400 + 64 * i) vb
  let w3 := virtWrite w2.state o (va + 0x800 + i) [BitVec.ofNat 8 kscale]
  let w4 := virtWrite w3.state o (va + 0x810) (leBytes 2 occ ++ leBytes 2 mask)
  let w5 := if i = 0 then virtWrite w4.state o (va + 0x840) (vscales.map (BitVec.ofNat 8)) else w4
  { r with st := w5.state }
where
  /-- Byte k of a page. -/
  byteAt' (bs : List Byte) (k : Nat) : Nat := (bs.getD k 0).toNat

/-- The newest page of the head and its virtual address, where it is mapped and can be fetched; the flag: a fetch failed. -/
def newestPage (r : StepRun) (n : Nat) (d : StepDesc) : Option (Nat × List Byte) × Bool × State :=
  if r.x.next = r.x.first ∨ (kvLookup r.st d.seq d.head (r.x.next - 1)).isNone then (none, false, r.st)
  else
    let va := blockVa r.st r.x.heads d.seq d.head (r.x.next - 1)
    let a := virtRead r.st (aeOrigin n) va 0x900
    if a.fault.isSome || a.poisoned then (none, true, a.state) else (some (va, a.bytes), false, a.state)

/-- Append position j of the step (R145, R146). -/
def appendOne (r : StepRun) (n : Nat) (d : StepDesc) (j : Nat) (ks vs : List Fl) : StepRun :=
  let (pg, failed, s1) := newestPage r n d
  let r1 := { r with st := s1 }
  if failed then dropPosition r1 n false
  else match pg with
    | some (va, bs) =>
      match (List.range 16).find? (fun i => !(bitOf (leAt bs 0x810 2) i)) with
      | some i => writePosition r1 n d j i va bs ks vs
      | none => openAndWrite r1 n d j ks vs
    | none => openAndWrite r1 n d j ks vs
where
  /-- Open a page and write the position as its first: the page's header is the one just written. -/
  openAndWrite (r : StepRun) (n : Nat) (d : StepDesc) (j : Nat) (ks vs : List Fl) : StepRun :=
    let (ok, r2) := openBlock r n d
    if !ok then r2
    else writePosition r2 n d j 0 (blockVa r2.st r2.x.heads d.seq d.head (r2.x.next - 1)) (zeros 0x900) ks vs

/-! ### The walk (R151 to R153, R158) -/

/-- The running state of one query head. -/
structure RowAcc where
  m : Option Nat
  l : Nat
  o : List Nat
  kinf : Nat
  oinf : List Nat
  nans : Nat
  deriving DecidableEq, Repr

/-- Before the first block. -/
def RowAcc.start (dim : Nat) : RowAcc := ⟨none, 0, List.replicate dim 0, 0, List.replicate dim 0, 0⟩

/-- What a walk needs of the step. -/
structure WalkCtx where
  dim : Nat
  kfp4 : Bool
  vfp4 : Bool
  s : Nat
  /-- per query head its INT8 row and its scale's bits -/
  qs : List (List Byte × Nat)
  anchor : Nat
  decay : Nat

/-- The score of a query row at position i, as FP32 bits (R152). -/
def score (c : WalkCtx) (pg : List Byte) (q : List Byte × Nat) (i : Nat) : Nat :=
  let gk := leAt pg 0x818 4
  let factor := rne32 (flMul (f32 (rne32 (flMul (f32 q.2) (f32 c.s)))) (f32 gk))
  let raw := ((List.range c.dim).map (fun d => signed 8 (q.1.getD d 0).toNat * pageElem pg 0 c.kfp4 i d)).sum
  let ks := ue5m3 ((pg.getD (0x800 + i) 0).toNat)
  let e := Frac.mul (Frac.shift (Frac.ofInt raw) (if c.kfp4 then -1 else 0)) ks
  rne32 (flScale e (f32 factor))

/-- The exact term of a weight sum on channel d: integer sum × 2^-uv × the channel's scale × G_V. -/
def vTerm (c : WalkCtx) (pg : List Byte) (d : Nat) (x : Frac) : Fl :=
  let vs := ue5m3 ((pg.getD (0x840 + d) 0).toNat)
  flScale (Frac.mul (Frac.shift x (if c.vfp4 then -1 else 0)) vs) (f32 (leAt pg 0x81C 4))

/-- Positive infinity as FP32 bits. -/
def plusInf : Nat := 0x7F800000

/-- One block of the block-order reference for one query row: positions with their scores. -/
def rowBlock (c : WalkCtx) (pg : List Byte) (a : RowAcc) (ts : List (Nat × Nat)) : RowAcc :=
  let vint (i d : Nat) : Int := pageElem pg 0x400 c.vfp4 i d
  let infs := (ts.filter (fun t => t.2 == plusInf)).map (fun t => t.1)
  let a1 := infs.foldl (fun (b : RowAcc) i => { b with
    kinf := b.kinf + 1
    oinf := b.oinf.zipIdx.map (fun o => rne32 (flAdd (f32 o.1) (vTerm c pg o.2 (Frac.ofInt (vint i o.2))))) }) a
  let fin := ts.filter (fun t => (f32 t.2).finite)
  let nans := (ts.filter (fun t => f32 t.2 == .nan)).length
  let a2 := { a1 with nans := a1.nans + nans }
  match fin with
  | [] => a2
  | f :: rest =>
    let bm := rest.foldl (fun x t => if Frac.lt (f32 x).val (f32 t.2).val then t.2 else x) f.2
    let mn := match a2.m with
      | some m => if Frac.lt (f32 m).val (f32 bm).val then bm else m
      | none => bm
    let a3 := match a2.m with
      | some m =>
        if Frac.lt (f32 m).val (f32 mn).val then
          let g := aeExp2 (rne32 (flAdd (f32 m) (flNeg (f32 mn))))
          { a2 with l := rne32 (flMul (f32 a2.l) (f32 g)), o := a2.o.map (fun x => rne32 (flMul (f32 x) (f32 g))) }
        else a2
      | none => a2
    let ps := fin.map (fun t => (t.1, rnd8 (fp32Val (aeExp2 (rne32 (flAdd (f32 t.2) (flNeg (f32 mn))))))))
    let total := ps.foldl (fun x p => Frac.add x p.2) ⟨0, 1⟩
    { a3 with
      m := some mn
      l := rne32 (flAdd (f32 a3.l) (.fin false total))
      o := a3.o.zipIdx.map (fun o =>
        let x := ps.foldl (fun y p => Frac.add y (Frac.mul p.2 (Frac.ofInt (vint p.1 o.2)))) ⟨0, 1⟩
        rne32 (flAdd (f32 o.1) (vTerm c pg o.2 x))) }

/-- The output row: FP32 bits of y (R153). -/
def RowAcc.out (a : RowAcc) : List Nat :=
  if 0 < a.kinf then a.oinf.map (fun x => rne32 (flDiv (f32 x) (.fin false ⟨a.kinf, 1⟩)))
  else match a.m with
    | none => a.o.map (fun _ => 0)
    | some _ => a.o.map (fun x => rne32 (flDiv (f32 x) (f32 a.l)))

/-- ROWFLAGS of a row (Table 6.3). -/
def RowAcc.flags (a : RowAcc) : Nat :=
  b2n (decide (a.kinf = 0) && a.m.isNone) + 2 * b2n (decide (0 < a.kinf)) + 4 * b2n (decide (0 < a.nans))

/-- The weight of a score in the importance update (R158). -/
def impWeight (t anchor : Nat) : Nat :=
  if t = plusInf then 0x3F800000
  else if (f32 t).finite then
    let e := aeExp2 (rne32 (flAdd (f32 t) (flNeg (f32 anchor))))
    if Frac.lt ⟨1, 1⟩ (fp32Val e) then 0x3F800000 else e
  else 0

/-- The importance of position i after a walk: its scores per query head, in order. -/
def impNew (c : WalkCtx) (old : Nat) (ts : List Nat) : Nat :=
  let inc := ts.foldl (fun a t => rne32 (flAdd (f32 a) (f32 (impWeight t c.anchor)))) 0
  rne32 (flAdd (f32 (rne32 (flMul (f32 old) (f32 c.decay)))) (f32 inc))

/-- What a walk gathers. -/
structure WalkAcc where
  st : State
  rows : List RowAcc
  walked : Nat
  holes : Nat
  fails : Nat
  /-- largest finite score -/
  best : Option Nat
  /-- candidate block and its PAGE_SUM -/
  cand : Option (Nat × Nat)

/-- Is a PAGE_SUM lower than another? One that is no number is lower than none. -/
def sumLower (a b : Nat) : Bool :=
  match f32 a, f32 b with
  | .fin _ v, .fin _ w => Frac.lt v w
  | .inf n, .inf m => n && !m
  | .inf n, .fin _ _ => n
  | .fin _ _, .inf m => !m
  | .nan, _ => false
  | _, .nan => false

/-- FP32 bits as stored: those of a NaN, which the spec does not give, are those of a free NaN. DEDUCED, log entry 33. -/
def storeNan (s : State) (x : Nat) : Nat × State :=
  match f32 x with
  | .nan =>
    let (v, t) := s.free
    (v.toNat / 2 ^ 32 % 2 * 2 ^ 31 + 0x7F800001 + v.toNat % 2 ^ 32 % 0x7FFFFF, t)
  | _ => (x, s)

/-- A list of FP32 bits as stored. -/
def storeNans (s : State) (xs : List Nat) : List Nat × State :=
  xs.foldl (fun (a : List Nat × State) x => let (y, t) := storeNan a.2 x; (a.1 ++ [y], t)) ([], s)

/-- Walk one page that was fetched. -/
def walkPage (w : WalkAcc) (n : Nat) (c : WalkCtx) (va b next : Nat) (pg : List Byte) : WalkAcc :=
  let live := (List.range 16).filter (pageLive pg)
  let scores := c.qs.map (fun q => live.map (fun i => (i, score c pg q i)))
  let rows := List.zipWith (rowBlock c pg) w.rows scores
  let finite := (scores.flatten.map (fun t => t.2)).filter (fun t => (f32 t).finite)
  let best := finite.foldl (fun (x : Option Nat) t => match x with
    | some y => if Frac.lt (f32 y).val (f32 t).val then some t else x
    | none => some t) w.best
  let imp := (List.range 16).map (fun i =>
    let old := leAt pg (0x8C0 + 4 * i) 4
    if live.contains i then impNew c old (scores.map (fun r => match r.find? (fun t => t.1 == i) with | some t => t.2 | none => 0))
    else old)
  let sum := imp.foldl (fun a x => rne32 (flAdd (f32 a) (f32 x))) 0
  let o := aeOrigin n
  let (bits, s0) := storeNans w.st (imp ++ [sum])
  let w1 := virtWrite s0 o (va + 0x8C0) ((bits.take 16).flatMap (leBytes 4))
  let w2 := virtWrite w1.state o (va + 0x820) (leBytes 4 (bits.getD 16 0))
  let cand := if b + 1 = next then w.cand
    else match w.cand with
      | some (k, v) => if sumLower sum v then some (b, sum) else some (k, v)
      | none => some (b, sum)
  { w with st := w2.state, rows := rows, walked := w.walked + 1, best := best, cand := cand }

/-- A block's page in hand: walked, or skipped where the fetch failed or the page is another block's (R151). -/
def walkFetched (n : Nat) (c : WalkCtx) (x : SeqHead) (w : WalkAcc) (va b : Nat) (pg : List Byte) (bad : Bool) : WalkAcc :=
  if bad || leAt pg 0x814 4 != b then { w with fails := w.fails + 1 } else walkPage w n c va b x.next pg

/-- Walk one block: a hole, a failed page, or a page (R151). Its translation is read once, when the walk reaches it. -/
def walkBlock (n : Nat) (c : WalkCtx) (d : StepDesc) (x : SeqHead) (w : WalkAcc) (b : Nat) : WalkAcc :=
  let va := blockVa w.st x.heads d.seq d.head b
  let (t, s1) := translate w.st va false
  match t with
  | .fault 1 => { w with st := s1, holes := w.holes + 1 }
  | .fault k => { w with st := recordFault s1 (aeOrigin n) va k, fails := w.fails + 1 }
  | .phys a =>
    let r := busRead s1 (aeOrigin n) a 0x900
    walkFetched n c x { w with st := r.state } va b r.bytes r.poisoned
  | .remote _ _ =>
    let (bs, s2) := freeBytes s1 0x900
    walkFetched n c x { w with st := s2 } va b bs false

/-- Read the queries: g rows of 128 bytes, then g scales (Table 6.3). -/
def readQueries (bs : List Byte) (g : Nat) : List (List Byte × Nat) :=
  (List.range g).map (fun k => ((bs.drop (128 * k)).take 128, leAt bs (128 * g + 4 * k) 4))

/-- Output bytes of one row in OUTFMT, rounded once (R47); a NaN has no stated output and is free. -/
def outRow (s : State) (fmt : Nat) (ys : List Nat) : List Byte × State :=
  let f := outFloat' fmt
  let k := if fmt = 0 then 4 else 2
  ys.foldl (fun (a : List Byte × State) y =>
    match f32 y with
    | .fin _ v => (a.1 ++ leBytes k (f.roundSat v).1, a.2)
    | .inf neg => (a.1 ++ leBytes k (f.maxBits + (if neg then f.signBit else 0)), a.2)
    | .nan => let (v, t) := a.2.free; (a.1 ++ leBytes k v.toNat, t)) ([], s)
where
  /-- The format of OUTFMT. -/
  outFloat' (fmt : Nat) : FloatFmt := if fmt = 1 then bf16 else if fmt = 2 then fp16 else fp32

/-! ### The step -/

/-- A job fault of an engine (R148, R274): cause 1 Q, 2 NEW, 3 OUT, 0 an object of another owner; source 248 + n. -/
def aeFault (s : State) (n cause : Nat) : State :=
  let s1 := s.setRegN (Reg.AE_FAULT n) (s.fld (Fd.AE_RING_HEAD_INDEX n) * 256 + cause)
  computeReset (raiseShared ((s1.setFld (Fd.AE_STATUS_FAULT n) 1).setFld (Fd.AE_STATUS_RUN n) 0) (248 + n)) 5

/-- The end of every step: its record, the signal, the head, the engine at rest (R147). -/
def stepEnd (s : State) (n : Nat) (d : StepDesc) (status sflags walked holes : Nat) (rows : List Nat) : State :=
  let s1 := busWrite s (aeOrigin n) (aeDescAddr s n + 0x30) (stepRecord status (sflags ||| 1) walked holes rows)
  let s2 := match d.sig with
    | some o => unitSignal s1 (aeAgent n) o 1 false
    | none => s1
  if d.sig.any (fun o => !(jobObject s1 o)) then aeFault s1 n 0 else
  let s3 := ((aeAdvance s2 n).setRegN (Reg.AE_CUR n) 0).setFld (Fd.AE_STATUS_WALKING n) 0
  let s4 := showEpochs { s3 with
    aeStage := Tbl.set (fun _ => 0) s3.aeStage n 0
    aeDesc := Tbl.set noDesc s3.aeDesc n []
    aeEpoch := s3.aeEpoch.filter (fun p => p.1 != n) }
  match s4.owner with
  | some j => pauseCheck s4 j.handle
  | none => s4

/-- Append the step's positions (R145). -/
def appendAll (r : StepRun) (n : Nat) (d : StepDesc) (bs : List Byte) : StepRun :=
  let stride := rowStride d.infmt r.x.dim
  (List.range d.napp).foldl (fun r j =>
    let row (k : Nat) : List Fl := (List.range r.x.dim).map (rowElem d.infmt (bs.drop (stride * k)))
    appendOne r n d j (row j) (row (d.napp + j))) r

/-- Counters and descriptor of the sequence after the walk (R158, R159). -/
def stepFinish (w : WalkAcc) (n : Nat) (d : StepDesc) (x : SeqHead) : State :=
  let x1 := { x with anchor := w.best.getD x.anchor, cand := match w.cand with | some (b, _) => b | none => 0xFFFFFFFF }
  let s1 := (putSeqHead w.st (aeOrigin n) d.seq d.head x1).state
  let s2 := (s1.bumpBy (Reg.AE_PAGES n) w.walked).bumpBy (Reg.AE_PAGE_FAIL n) w.fails
  let s3 := s2.bumpBy (Reg.AE_NAN_SCORES n) ((w.rows.map (fun r => r.nans)).sum)
  let s4 := s3.bumpBy (Reg.AE_ALL_MASKED n) (w.rows.filter (fun r => r.flags % 2 == 1)).length
  (s4.bumpBy (Reg.AE_INF_ROWS n) (w.rows.filter (fun r => decide (0 < r.kinf))).length).bump (Reg.AE_STEPS n)

/-- Write the output rows (Table 6.3): g rows of D elements, each padded to 64 bytes. -/
def writeOutputs (s : State) (n : Nat) (d : StepDesc) (dim : Nat) (rows : List RowAcc) : Access :=
  rows.zipIdx.foldl (fun (a : Access) r =>
    if a.fault.isSome then a
    else
      let (bs, t) := outRow a.state d.outfmt r.1.out
      virtWrite t (aeOrigin n) (d.out + rowStride d.outfmt dim * r.2) bs) ⟨[], false, none, s⟩

/-- Run a step that was accepted: appends, walk, outputs, importance, record. DEDUCED, log entry 33. -/
def stepRun (s : State) (n : Nat) (d : StepDesc) (x : SeqHead) : State :=
  let o := aeOrigin n
  let q := virtRead s o d.q (132 * d.rows)
  if q.fault.isSome then aeFault q.state n 1
  else
    let nw := if d.napp = 0 then ⟨[], false, none, q.state⟩ else virtRead q.state o d.new (2 * d.napp * rowStride d.infmt x.dim)
    if nw.fault.isSome then aeFault nw.state n 2
    else if q.poisoned || nw.poisoned then computeReset nw.state 6
    else
      let r := appendAll ⟨nw.state, x, 0⟩ n d nw.bytes
      let c : WalkCtx := ⟨x.dim, x.kfp4, x.vfp4, d.s, readQueries q.bytes d.rows, r.x.anchor, r.x.decay⟩
      let blocks := (List.range (r.x.next - r.x.first)).map (fun k => r.x.first + k)
      let w := blocks.foldl (walkBlock n c d r.x) ⟨r.st, List.replicate d.rows (RowAcc.start x.dim), 0, 0, 0, none, none⟩
      let out := writeOutputs w.st n d x.dim w.rows
      if out.fault.isSome then aeFault out.state n 3
      else
        let s1 := stepFinish { w with st := out.state } n d r.x
        stepEnd s1 n d St.ok (r.sflags ||| (if 0 < w.fails then 4 else 0)) w.walked w.holes (w.rows.map RowAcc.flags)

/-- Stage of an engine (R147): 0 awaits its semaphore, 1 its descriptor's object, 2 may begin, 3 is in a query step, 4 waits for its head, which
counts once (R149, R289). -/
def aeStageOf (s : State) (n : Nat) : Nat := Tbl.get (fun _ => 0) s.aeStage n

/-- Set it. -/
def setAeStage (s : State) (n k : Nat) : State := { s with aeStage := Tbl.set (fun _ => 0) s.aeStage n k }

/-- An engine whose step is on the same pair of sequence and head (R149). -/
def headBusy (s : State) (n : Nat) (d : StepDesc) : Bool :=
  (List.range 8).any (fun m => m != n && s.flag (Fd.AE_CUR_V m) && s.fld (Fd.AE_CUR_SEQ m) == d.seq && s.fld (Fd.AE_CUR_HEAD m) == d.head)

/-- A sequence becomes active (R140). -/
def activate (s : State) (q : Nat) : State :=
  if s.kvActive.contains q then s
  else { s with kvActive := q :: s.kvActive }.setRegN Reg.AE0_KV_ACTIVE (s.kvActive.length + 1)

/-- Begin a step: refused (R148), at the active limit (R140), held by another engine's step (R149), or in progress with
its epoch taken (R165). -/
def stepBegin (s : State) (n : Nat) (d : StepDesc) : State :=
  let a := virtRead s (aeOrigin n) (seqDescVa s d.seq) 256
  if a.fault.isSome then computeReset a.state 4
  else if a.poisoned then computeReset a.state 6
  else
    let t := a.state
    if stepRefused d (seqHead a.bytes d.head) then stepEnd (t.bump (Reg.AE_STEP_BAD n)) n d St.badParam 0 0 0 []
    else if !(t.kvActive.contains d.seq) && decide (1024 ≤ t.kvActive.length) then
      stepEnd (countTdc (t.bump Reg.AE0_KV_ACTIVE_REFUSED) 8 (120 + n)) n d St.busy 0 0 0 []
    else if headBusy t n d then
      if aeStageOf t n = 4 then t else setAeStage (countTdc t 6 (120 + n)) n 4
    else
      let t1 := (activate t d.seq).setRegN (Reg.AE_CUR n) (2 ^ 31 + d.head * 2 ^ 14 + d.seq)
      let t2 := setAeStage (t1.setFld (Fd.AE_STATUS_WALKING n) 1) n 3
      showEpochs { t2 with aeEpoch := t2.aeEpoch ++ [(n, t2.regN Reg.DMMU_EPOCH)] }

/-- The step in progress runs to its end; a job without carriers deactivates its sequence then (R140). -/
def stepComplete (s : State) (n : Nat) (d : StepDesc) : State :=
  let a := virtRead s (aeOrigin n) (seqDescVa s d.seq) 256
  if a.fault.isSome then computeReset a.state 4
  else if a.poisoned then computeReset a.state 6
  else
    let s1 := stepRun a.state n d (seqHead a.bytes d.head)
    match s1.owner with
    | some j =>
      if j.carriers.isEmpty then
        let l := s1.kvActive.filter (fun q => q != d.seq)
        { s1 with kvActive := l }.setRegN Reg.AE0_KV_ACTIVE l.length
      else s1
    | none => s1

/-- Await an object at a stage; satisfied at once the engine goes on; an object of another owner is a fault that none of the causes of
AE[n].FAULT names (R274). DEDUCED, log entry 33. -/
def aeAwait (s : State) (n o : Nat) : State :=
  if !(jobObject s o) then aeFault s n 0 else waitObj (s.setFld (Fd.AE_STATUS_WAIT_SYNC n) 1) (aeAgent n) o

/-- ATTENTION_STEP (R147): the engine goes on as far as its semaphore and the descriptor's object let it: it begins the
step, and from the step in progress it runs it to its end. With a pause pending it takes no new descriptor (R268); an edit
held for it is applied before its next step (R167). DEDUCED, log entry 33. -/
def execAttentionStep (n : Fin 8) (s : State) : Host.Outcome State Fault Refusal :=
  up s (fun s =>
    let n := n.val
    if !(computeRunning s) || !(s.flag (Fd.AE_STATUS_RUN n)) || s.flag (Fd.AE_STATUS_FAULT n) || waits s (aeAgent n) then s
    else
      let pausing := match s.owner with | some j => j.pausing | none => false
      if aeStageOf s n = 3 then
        let r := aeTaken s n
        stepComplete r.state n (stepDesc r.bytes)
      else if (pausing && aeStageOf s n == 0) || s.flag (Fd.AE_STATUS_EDIT_HELD n) then s
      else
        let s1 := if aeStageOf s n = 0 then aeAwait s n (s.fld (Fd.AE_RING_CFG_SEM n)) else s
        if aeStageOf s1 n = 0 then s1
        else
          let r := aeTaken s1 n
          let d := stepDesc r.bytes
          if r.poisoned then computeReset r.state 6
          else
            let s2 := if aeStageOf r.state n = 1 then
                match d.wait with
                | some o => aeAwait r.state n o
                | none => setAeStage r.state n 2
              else r.state
            if aeStageOf s2 n = 2 || aeStageOf s2 n = 4 then stepBegin s2 n d else s2)

end Sys2Proof.Machine
end

