-- ==== Sys2Proof/Machine/Ffd.lean ====
section
/-! DEFINITION. The frozen-frame detector's part of a slot (R303 to R305, R353 to R357): the sections that the C-plane announces,
the sections that arrive, their verdicts, what they mark; symbol times (R390). -/

namespace Sys2Proof.Machine

/-! ### Symbol times (R390) -/

/-- Start of symbol l of slot j of a frame, from the frame's start, in units of 1 ÷ (30.72 MHz × 2^μ). -/
def symStart (mu : Nat) (ecp : Bool) (j l : Nat) : Nat :=
  let per := (if ecp then 6 else 7) * 2 ^ mu
  let n := j * (if ecp then 12 else 14) + l
  let k := n % per
  n / per * 15360 * 2 ^ mu + (if k = 0 then 0 else if ecp then k * 2560 else 16 * 2 ^ mu + k * 2192)

/-- Symbol l of slot j from the start of its slot. -/
def symOffset (s : State) (c j l : Nat) : Nat :=
  let mu := s.fld (Fd.TSU_CAR_MU c)
  let ecp := s.flag (Fd.TSU_CAR_ECP c)
  symStart mu ecp j l - symStart mu ecp j 0

/-- Twelfths of a REFCLK cycle past a bound of a symbol's receive window (R362, R389): negative before it, scaled by 256 × 2^μ. -/
def pastBound (s : State) (c j l bound at_ t0 : Nat) : Int :=
  ((at_ : Int) - t0 - 15 * bound) * 256 * 2 ^ s.fld (Fd.TSU_CAR_MU c) - (symOffset s c j l * 15625 : Nat)

/-! ### Announced sections (R303, R357) -/

/-- FHP port of a carrier's streams (Table 14.8). -/
def carPort (s : State) (c : Nat) : Nat := s.fld (Fd.FHP0_CAR_CFG_PORT c)

/-- Antenna, port or layer of an eAxC ID at FHP p (R354). -/
def ruPort (s : State) (p eaxc : Nat) : Nat := eaxc % 2 ^ s.fld (Fd.FHP_EAXC_FMT_RU_W p)

/-- The eAxC ID of a stream of carrier c. -/
def eaxcId (s : State) (p c ru : Nat) : Nat :=
  let w := s.fld (Fd.FHP_EAXC_FMT_RU_W p)
  (Config.eaxcUpper c * 2 ^ w + ru % 2 ^ w) % 65536

/-- The sections announced for the uplink allocations of an entry: one per allocation, receive antenna and symbol. -/
def dueOf (s : State) (c : Nat) (allocs : List Alloc) : List (Nat × Nat × Nat × Nat × Nat) :=
  (allocs.filter (fun a => decide (1 ≤ a.type) && decide (a.type ≤ 4))).flatMap (fun a =>
    (List.range a.nsym).flatMap (fun l =>
      (List.range (s.fld (Fd.FHP0_CAR_CFG_NANT c))).map (fun n => (carPort s c, n, a.sym0 + l, a.prb0, a.nprb))))

/-- Does a section carry a resource block of an announced one? -/
def RxSect.carries (r : RxSect) (d : Nat × Nat × Nat × Nat × Nat) (prb : Nat) : Bool :=
  r.ant == d.2.1 && r.sym == d.2.2.1 && decide (r.prb0 ≤ prb) && decide (prb < r.prb0 + r.nprb)

/-- Have the sections of a slot brought the whole of an announced one? -/
def sectArrived (rs : List RxSect) (d : Nat × Nat × Nat × Nat × Nat) : Bool :=
  (List.range d.2.2.2.2).all (fun k => rs.any (fun r => r.carries d (d.2.2.2.1 + k)))

/-! ### Marks (Table 12.2 bit 3, R305) -/

/-- Does a symbol and PRB range carry resource elements of a code block? -/
def sectCarries (x : SlotCtx) (sym prb0 nprb : Nat) (b : CodeBlock) : Bool :=
  match x.allocs[b.alloc]? with
  | some a => decide (a.sym0 ≤ sym) && decide (sym < a.sym0 + a.nsym) && decide (a.prb0 < prb0 + nprb) &&
      decide (prb0 < a.prb0 + a.nprb)
  | none => false

/-- A verdict other than OK marks the code blocks of a slot that the section carries, while FFD_EN is 1. -/
def markSection (s : State) (c id sym prb0 nprb : Nat) : State :=
  match s.slotCtx c id with
  | some x => if x.ffdEn then markSlot s c id 3 (sectCarries x sym prb0 nprb) else s
  | none => s

/-- A section reaches its slot's context. -/
def placeSect (s : State) (c id : Nat) (r : RxSect) : State :=
  match s.slotCtx c id with
  | none => s
  | some x =>
    let got := x.sects ++ [r]
    let s1 := s.setSlotCtx c { x with due := x.due.filter (fun d => !(sectArrived got d)), sects := got }
    if r.bad then markSection s1 c id r.sym r.prb0 r.nprb else s1

/-- The sections that arrived before their slot latched its entry. -/
def takeEarly (s : State) (c id abs : Nat) : State :=
  let mine (p : Nat × Nat × RxSect) : Bool := p.1 == c && p.2.1 == abs
  (s.rxEarly.filter mine).foldl (fun (t : State) (p : Nat × Nat × RxSect) => placeSect t c id p.2.2)
    { s with rxEarly := s.rxEarly.filter (fun p => !(mine p)) }

/-- A slot ticks, with or without an entry: its receive windows count from now (R362). Sections of earlier slots without an
entry go. -/
def noteTick (s : State) (c abs : Nat) : State :=
  let mine := (s.rxTicks.filter (fun p => p.1 == c)) ++ [(c, abs, nowT s)]
  { s with
    rxTicks := s.rxTicks.filter (fun p => p.1 != c) ++ mine.drop (mine.length - 64)
    rxEarly := s.rxEarly.filter (fun p => p.1 != c || decide (abs ≤ p.2.1)) }

/-! ### Verdicts (Table 12.4) -/

/-- A verdict other than OK: 1 SEQ, 2 MISSING, 3 CONSTANT, 4 FROZEN; counted and shown in LAST. -/
def ffdCount (s : State) (kind port sym eaxc : Nat) : State :=
  let s1 := s.bump (match kind with
    | 1 => Reg.FFD_SEQ_ERR
    | 2 => Reg.FFD_MISSING
    | 3 => Reg.FFD_CONSTANT
    | _ => Reg.FFD_FROZEN)
  s1.setRegN Reg.FFD_LAST (kind * 2 ^ 28 + port * 2 ^ 26 + sym * 2 ^ 22 + eaxc)

/-- Has a symbol's receive window closed: RXWIN.CLOSE of elapsed time has passed since the slot's tick (R362, R389)? -/
def symbolClosed (s : State) (c abs sym : Nat) : Bool :=
  match s.rxTicks.find? (fun p => p.1 == c && p.2.1 == abs) with
  | some (_, _, t0) => decide (0 ≤ pastBound s c (abs % slotsPerFrame s c) sym (s.fld (Fd.FHP0_CAR_RXWIN_CLOSE c)) (nowT s) t0)
  | none => true

/-- The close of a symbol's receive window: MISSING for each announced section that has not arrived (R303, R362). -/
def closeSymbol (s : State) (c id sym : Nat) : State :=
  match s.slotCtx c id with
  | none => s
  | some x =>
    if !(symbolClosed s c x.abs sym) then s
    else
    let gone := x.due.filter (fun d => d.2.2.1 == sym)
    let s1 := s.setSlotCtx c { x with due := x.due.filter (fun d => d.2.2.1 != sym) }
    if s.flag Fd.FFD_STATUS_RUN then
      gone.foldl (fun (t : State) (d : Nat × Nat × Nat × Nat × Nat) =>
        markSection (ffdCount t 2 d.1 sym (eaxcId t d.1 c d.2.1)) c id sym d.2.2.2.1 d.2.2.2.2) s1
    else s1

/-- RX_WINDOW_CLOSE (R362), of no effect before the window closes: carrier, number of the slot's tick on it, symbol. -/
def execRxWindowClose (carrier : Fin 8) (tick : BitVec 32) (sym : Fin 14) (s : State) : Host.Outcome State Fault Refusal :=
  up s (fun s => closeSymbol s carrier.val tick.toNat sym.val)

/-- The payload that FROZEN's CRC runs over (Table 12.4). -/
def sectBytes : List Int → List Int → List Byte
  | [], _ => []
  | e :: es, ps => leBytes 1 (wrapN 8 e) ++ (ps.take 24).flatMap (fun p => leBytes 2 (wrapN 16 p)) ++ sectBytes es (ps.drop 24)

/-- Values of the parts of a section, each times 2^32, so that they compare across exponents. -/
def sectValues : List Int → List Int → List Int
  | [], _ => []
  | e :: es, ps => (ps.take 24).map (fun p => p * 2 ^ (e + 32).toNat) ++ sectValues es (ps.drop 24)

/-- I and Q samples in pairs. -/
def pairs : List Int → List (Int × Int)
  | a :: b :: r => (a, b) :: pairs r
  | _ => []

/-- Every sample equals the first. -/
def sectConstant (r : RxSect) : Bool :=
  match pairs (sectValues r.exps r.parts) with
  | [] => true
  | p :: ps => ps.all (fun q => q == p)

/-- FROZEN, and the history after the section (R304): the CRCs of the four frames before `frame` are compared, then the oldest
goes. A key's 16 bytes stand at its place in the history; a poisoned read of them is a fallback fault (R301). DESIGN CHOICE, log entry 79. -/
def ffdHistory (s : State) (r : RxSect) (slot frame : Nat) : Bool × State :=
  let live := s.ffdHist.filter (fun k => k.held.any (fun h => decide (frame ≤ h.1 + 4)))
  let mine (k : FfdKey) : Bool := k.port == r.port && k.eaxc == r.eaxc && k.slot == slot && k.sym == r.sym && k.prb0 == r.prb0 &&
    k.nprb == r.nprb
  let crc := crc32 (sectBytes r.exps r.parts)
  let old := ((live.find? mine).map (fun k => k.held)).getD []
  let held := old.filter (fun h => decide (h.1 < frame) && decide (frame ≤ h.1 + 4))
  let place := s.regN Reg.FFD_HIST_BASE + 16 * (live.findIdx mine)
  if !(old.isEmpty) && poisoned s place 16 then (false, notePoison { s with ffdHist := live.filter (fun k => !(mine k)) } 41 place 16)
  else if old.isEmpty && decide (1048576 ≤ live.length) then
    (false, ({ s with ffdHist := live }.setFld Fd.FFD_KEYS_COUNT live.length).bump Reg.FFD_KEY_FULL)
  else
    let k : FfdKey := ⟨r.port, r.eaxc, slot, r.sym, r.prb0, r.nprb, held.drop (held.length - 3) ++ [(frame, crc)]⟩
    let hist := live.filter (fun k => !(mine k)) ++ [k]
    (held.any (fun h => h.2 == crc), { s with ffdHist := hist }.setFld Fd.FFD_KEYS_COUNT hist.length)

/-- The verdict of a section that has arrived, 0 for OK; `inSeq`: its message's SEQ_ID follows (R303). -/
def ffdExamine (s : State) (r : RxSect) (slot frame : Nat) (inSeq : Bool) : Nat × State :=
  if !(s.flag Fd.FFD_STATUS_RUN) then (0, s)
  else
    let (frozen, s1) := ffdHistory (s.bump Reg.FFD_SECTIONS) r slot frame
    let v := if !inSeq then 1 else if sectConstant r then 3 else if frozen then 4 else 0
    (v, if v = 0 then s1 else ffdCount s1 v r.port r.sym r.eaxc)

end Sys2Proof.Machine
end

