-- ==== Sys2Proof/Machine/Commands.lean ====
section
/-! DEFINITION. The capability block (R463 to R465) and the commands that need no unit: QUERY_CAPS, the SYNC commands
(R273 to R275), LOG_READ (R347). -/

namespace Sys2Proof.Machine

/-! ### The capability block -/

/-- Arrays that a field of MA[n].STATUS marks. -/
def countArrays (f : Nat → Bool) : Nat := ((List.range 96).filter f).length

/-- Bypassed rows of array n (R76). -/
def bypassed (s : State) (n : Nat) : Nat := s.fld (Fd.MA_SKEW_REP0_V n) + s.fld (Fd.MA_SKEW_REP1_V n)

/-- Is array n mappable: neither unavailable nor fenced (Table 19.2)? -/
def mappable (s : State) (n : Nat) : Bool := !(s.flag (Fd.MA_STATUS_UNAVAILABLE n)) && !(s.flag (Fd.MA_STATUS_FENCED n))

/-- The NOC attachment bits of a capability word (Table 19.2). -/
def attach (off : Nat) : Nat := (Config.layout off).toNat * 8

/-- The ARRAY[n] word (Table 19.2). -/
def capArray (s : State) (n : Nat) : Nat :=
  let b := bypassed s n
  (1 - s.fld (Fd.MA_STATUS_UNAVAILABLE n)) * 2 ^ 31 + s.fld (Fd.MA_STATUS_FENCED n) * 2 ^ 30 +
    s.fld (Fd.MA_STATUS_CHK_FENCED n) * 2 ^ 29 + b2n (b != 0) * 2 ^ 28 + b * 2 ^ 26 + (264 + b) * 2 ^ 16 + attach (0x400 + 4 * n)

/-- A unit word: available, fenced or not, in the fallback partition or not. -/
def capUnit (off : Nat) (fenced fallback : Bool) : Nat := 2 ^ 31 + b2n fenced * 2 ^ 30 + b2n fallback * 2 ^ 29 + attach off

/-- Island clock k of plan p in MHz (Table 1.2, Table 19.2). -/
def capClock (p k : Nat) : Nat :=
  ((if p = 0 then [320, 640, 960, 800, 1000] else [240, 480, 720, 600, 750])[k]?).getD 0

/-- Beat and guard cycles of island kind k. -/
def capBeat (k : Nat) : Nat :=
  let (c, g) := (([(64, 8), (128, 16), (192, 24), (160, 20), (200, 25)] : List (Nat × Nat))[k]?).getD (0, 0)
  c * 65536 + g

/-- The 32-bit words of the record at its low offsets (Table 19.2). -/
def capFixed (s : State) (off : Nat) : Nat :=
  match off with
  | 0x00 => 0x9624B001
  | 0x08 => 96 * 2 ^ 24 + 24 * 2 ^ 16 + 8 * 2 ^ 8 + 4
  | 0x0C => 16 * 2 ^ 24 + 16 * 2 ^ 16 + 4 * 2 ^ 8 + 8
  | 0x10 => 32 * 2 ^ 24 + 4 * 2 ^ 16 + 4 * 2 ^ 8 + 2 * 16 + 8
  | 0x14 => 12 * 2 ^ 24 + 12 * 2 ^ 16 + 8 * 2 ^ 8 + 8
  | 0x18 => countArrays (mappable s) * 2 ^ 16 + countArrays (fun n => s.flag (Fd.MA_STATUS_FENCED n)) * 2 ^ 8 +
      countArrays (fun n => bypassed s n != 0)
  | 0x1C => 16384 * 65536 + 64 * 256
  | 0x20 => 32 * 2 ^ 24 + 12 * 2 ^ 20 + 4 * 2 ^ 16 + 1024
  | 0x24 => 2048 * 65536 + 64 * 256 + 7
  | 0x28 => 256 * 65536 + 2048
  | 0x2C => 8192 * 65536 + 16
  | 0x40 => 1024
  | 0x44 => 960
  | 0x48 => 32768
  | 0x4C => 49152
  | 0x50 => 256
  | 0x54 => 240
  | 0x58 => 1024
  | 0x5C => 2048
  | 0x64 => 0x20
  | 0x6C => 0x1E
  | 0x70 => 0xF0000000
  | 0x74 => 0x1D
  | 0x78 => 32 * 65536 + 8533
  | 0x80 => 266 * 65536 + 264
  | 0x84 => 26 * 65536 + 6
  | 0x88 => 380 * 65536 + 110
  | 0x8C => 20 * 65536 + 16
  | _ =>
    if 0x90 ≤ off ∧ off < 0xD0 ∧ (off - 0x90) % 0x20 < 20 then capClock ((off - 0x90) / 0x20) ((off - 0x90) % 0x20 / 4)
    else if 0xD0 ≤ off ∧ off < 0xE4 then capBeat ((off - 0xD0) / 4)
    else 0

/-- The words of units (Table 19.2). -/
def capUnits (s : State) (off : Nat) : Nat :=
  if 0x400 ≤ off ∧ off < 0x580 then capArray s ((off - 0x400) / 4)
  else if 0x580 ≤ off ∧ off < 0x5E0 then capUnit off (s.regBit Reg.KAT_FENCED_VE ((off - 0x580) / 4)) false
  else if 0x5E0 ≤ off ∧ off < 0x600 then capUnit off (s.regBit Reg.KAT_FENCED_OTHER ((off - 0x5E0) / 4)) false
  else if 0x600 ≤ off ∧ off < 0x640 then
    let n := (off - 0x600) / 4
    capUnit off (decide (n < 12) && s.regBit Reg.KAT_FENCED_OTHER (8 + n)) (decide (12 ≤ n))
  else if 0x640 ≤ off ∧ off < 0x6D0 then capUnit off false false
  else if 0x6D0 ≤ off ∧ off < 0x710 then
    let n := (off - 0x6D0) / 4
    b2n (decide (n < 12) && s.regBit Reg.KAT_FENCED_OTHER (20 + n)) * 2 ^ 30
  else if 0x740 ≤ off ∧ off < 0x77C then attach off
  else if 0x780 ≤ off ∧ off < 0x840 then attach off
  else 0

/-- A 32-bit word of the capability block: the record reads 0 until self-test ends (R463); STATUS follows Table 19.3. DESIGN CHOICE, log entry 35. -/
def capWord (s : State) (off : Nat) : Nat :=
  if off = 0x1000 then s.regN Reg.CAP_STATUS
  else if !(s.flag Fd.CAP_STATUS_VALID) then 0
  else if off = 4 then s.regN Reg.CAP_EPOCH
  else if off < 0x400 then capFixed s off
  else capUnits s off

/-- Bytes of the block from one instant (R464). -/
def capBytes (s : State) (off n : Nat) : List Byte :=
  (((List.range ((n + 3) / 4)).flatMap (fun k => leBytes 4 (capWord s (off + 4 * k))))).take n

/-- QUERY_CAPS (R464). -/
def queryCapsBody (c : Cmd) (s : State) : State :=
  let off := c.pkt.p0.toNat
  let n := c.pkt.p1.toNat
  if off % 8 ≠ 0 ∨ 0x1008 ≤ off then refuse s c St.badParam 1
  else if n < 8 ∨ 4080 < n ∨ 0x1008 < off + n then refuse s c St.badParam 2
  else match unusedFrom c.pkt 2 with
    | some d => refuse s c St.badParam d
    | none => okCmd (postData s c (capBytes s off n)) c

/-- QUERY_CAPS (R464). -/
def execQueryCaps (p : Pkt) (s : State) : Host.Outcome State Fault Refusal := up s (hostCmd 0x02 p queryCapsBody)

/-! ### SYNC commands (R273 to R275) -/

/-- Who a new owner of an object is, judged for a command of port p: none where it may be given; else the refusal. DESIGN CHOICE, log entry 24. -/
def ownerRefusal (s : State) (p owner : Nat) : Option (Nat × Nat) :=
  if owner = 0x3FE then none
  else if owner = 0x3FF then some (St.notOwner, 0)
  else match s.job owner with
    | some j => if s.jobPort j = p then none else some (St.notOwner, 0)
    | none => if s.lostHandles.contains owner then some (St.jobLost, 0) else some (St.badParam, 1)

/-- SYNC_INIT (R273). DESIGN CHOICE, log entry 26. -/
def syncInitBody (c : Cmd) (s : State) : State :=
  let p := c.pkt
  let o := p.p0.toNat % 16384
  let type := bitsOf p.p0.toNat 15 14
  let owner := bitsOf p.p0.toNat 25 16
  if 2 ^ 26 ≤ p.p0.toNat then refuse s c St.badParam 1
  else if !(objInitOk type p.p1.toNat 0) then refuse s c St.badParam 2
  else if 2 ^ 27 ≤ p.p2.toNat ∨ (type = 0 ∧ p.p2 ≠ 0) then refuse s c St.badParam 3
  else match unusedFrom p 3 with
    | some d => refuse s c St.badParam d
    | none =>
      match (if type = 0 then none else ownerRefusal s p.port.val owner) with
      | some (st, d) => refuse s c st d
      | none =>
        if objForeign s p.port.val o then refuse s c St.notOwner 0
        else if type = 0 then okCmd (freeObj s o) c
        else okCmd (initObj { s with waiters := s.waiters.filter (fun w => w.obj != o) } o type owner p.p1.toNat p.p2.toNat) c

/-- SYNC_INIT (R273). -/
def execSyncInit (p : Pkt) (s : State) : Host.Outcome State Fault Refusal := up s (hostCmd 0x40 p syncInitBody)

/-- The checks that commands on an object share: its number, unused words from index k, a foreign owner, a free object.
DESIGN CHOICE, log entry 24. -/
def objRefusal (s : State) (c : Cmd) (k : Nat) : Option (Nat × Nat) :=
  if 16384 ≤ c.pkt.p0.toNat then some (St.badParam, 1)
  else match unusedFrom c.pkt k with
    | some d => some (St.badParam, d)
    | none => if objForeign s c.pkt.port.val c.pkt.p0.toNat then some (St.notOwner, 0) else none

/-- SYNC_SIGNAL (R274). A signal from a host carries no slot, so the supervisors do not see it (R306). -/
def syncSignalBody (c : Cmd) (s : State) : State :=
  let o := c.pkt.p0.toNat
  let n := c.pkt.p1.toNat % 2 ^ 24
  if extraBits c.pkt.p1 0x8000000000FFFFFF then refuse s c St.badParam 2
  else match objRefusal s c 2 with
    | some (st, d) => refuse s c st d
    | none =>
      if objType s o = 0 then refuse s c St.badParam 1
      else if signalOverflows s o n then refuse (s.bump Reg.SYN_SIG_REFUSED) c St.badParam 2
      else okCmd (signalObj s o n (bitOf c.pkt.p1.toNat 63)) c

/-- SYNC_SIGNAL (R274). -/
def execSyncSignal (p : Pkt) (s : State) : Host.Outcome State Fault Refusal := up s (hostCmd 0x41 p syncSignalBody)

/-- The waiter that a SYNC_WAIT is. -/
def hostAgent (c : Cmd) : Agent := .host c.pkt.port.val c.pkt.queue.val c.pkt.tag.toNat

/-- SYNC_WAITs of a port that wait (Table 10.6). -/
def hostWaits (s : State) (p : Nat) : Nat :=
  (s.waiters.filter (fun w => match w.agent with | .host q _ _ => q == p | _ => false)).length

/-- SYNC_WAIT (R275): a timeout of 0 tests once. -/
def syncWaitBody (c : Cmd) (s : State) : State :=
  let o := c.pkt.p0.toNat
  if 1000000 < c.pkt.p1.toNat then refuse s c St.badParam 2
  else match objRefusal s c 2 with
    | some (st, d) => refuse s c st d
    | none =>
      if objType s o = 0 then refuse s c St.badParam 1
      else if waitSatisfied s o then
        finishCmd (consumeWait s o) c St.ok 0 (BitVec.ofNat 64 (waitResult s o)) 0
      else if c.pkt.p1 = 0 then refuse s c St.deadlineMissed 0
      else if 256 ≤ hostWaits s c.pkt.port.val then refuse s c St.queueFull 0
      else waitObj s (hostAgent c) o

/-- SYNC_WAIT (R275). -/
def execSyncWait (p : Pkt) (s : State) : Host.Outcome State Fault Refusal := up s (hostCmd 0x42 p syncWaitBody)

/-- A host's wait reaches its timeout (R275): withdrawn, a barrier's arrival taken back. A wait whose object was set anew
has no waiter left and ends so too. DESIGN CHOICE, log entry 26. -/
def syncTimeout (s : State) (port queue tag : Nat) : State :=
  match s.waiters.find? (fun w => w.agent == .host port queue tag) with
  | none => finishWhere s 0x42 (fun c => hostAgent c == .host port queue tag) St.deadlineMissed 0 0 0
  | some w =>
    let s1 := dropWaiter s w
    let s2 := if objType s w.obj = 3 then setObjValue s1 w.obj (objValue s1 w.obj - 1) else s1
    finishWhere s2 0x42 (fun c => hostAgent c == .host port queue tag) St.deadlineMissed 0 0 0

/-- SYNC_WAIT_TIMEOUT (R275): the timeout of the wait with a tag of a queue passes. DESIGN CHOICE, log entry 10. -/
def execSyncWaitTimeout (port : Fin 2) (queue : Fin 32) (tag : BitVec 16) (s : State) : Host.Outcome State Fault Refusal :=
  up s (fun s => syncTimeout s port.val queue.val tag.toNat)

/-- The words of an object, two to a result (Table 10.3). -/
def objPair (s : State) (o k : Nat) : Word :=
  BitVec.ofNat 64 (s.regN (0xC0000 + 16 * o + 4 * k) + s.regN (0xC0000 + 16 * o + 4 * k + 4) * 2 ^ 32)

/-- SYNC_QUERY (Table 10.3). -/
def syncQueryBody (c : Cmd) (s : State) : State :=
  match objRefusal s c 1 with
  | some (st, d) => refuse s c st d
  | none => finishCmd s c St.ok 0 (objPair s c.pkt.p0.toNat 0) (objPair s c.pkt.p0.toNat 2)

/-- SYNC_QUERY (R259). -/
def execSyncQuery (p : Pkt) (s : State) : Host.Outcome State Fault Refusal := up s (hostCmd 0x43 p syncQueryBody)

/-- Has a wait's deadline come (R275)? A slot whose context is gone ticked long ago. -/
def waitDue (s : State) (w : Waiter) : Bool :=
  match s.slotOf (agentSlotKey w.agent) with
  | none => false
  | some (c, id) =>
    match s.slotCtx c id with
    | some x => decide (windowAt x (objDeadline s w.obj) ≤ nowT s)
    | none => true

/-- A unit still waits at its object's deadline (R275): counted, recorded, and in deterministic mode a choice of kind 5;
it keeps waiting. -/
def syncDeadline (s : State) (a : Agent) (o : Nat) : State :=
  match s.waiters.find? (fun w => w.agent == a && w.obj == o && w.deadline && !w.missed) with
  | none => s
  | some w =>
    if !(waitDue s w) then s
    else
      let s1 : State := { s with waiters := s.waiters.map (fun x => if x = w then { x with missed := true } else x) }
      let s2 := (s1.bump Reg.SYN_DL_MISS).log 0x10 (agentOrigin a) 0x80000 o (agentOrigin a)
      if s2.det then countTdc s2 5 (agentIsland a) else s2

/-- SYNC_DEADLINE (R275). -/
def execSyncDeadline (a : Agent) (obj : Fin 16384) (s : State) : Host.Outcome State Fault Refusal :=
  up s (fun s => syncDeadline s a obj.val)

/-! ### LOG_READ (R347) -/

/-- The 32 bytes of a LOG record (Table 13.5). -/
def logBytes (r : LogRec) : List Byte :=
  leBytes 4 r.seq ++ leBytes 1 r.kind ++ leBytes 1 (r.origin % 64 + b2n r.sticky * 64 + b2n r.write * 128) ++
    leBytes 2 r.unit ++ leBytes 8 r.addr ++ leBytes 8 r.data ++ leBytes 8 r.time

/-- The records whose SEQ is at or after `first`, by the distance modulo 2^32. -/
def logFrom (l : List LogRec) (first n : Nat) : List LogRec :=
  (l.filter (fun r => decide ((r.seq + 2 ^ 32 - first % 2 ^ 32) % 2 ^ 32 < 2 ^ 31))).take n

/-- A parameter that is an address with a space code: bits 51:50 and 49:0 (R259). -/
def addrSpace (p : Word) : Nat := bitsOf p.toNat 51 50
/-- Its address. -/
def addrBits (p : Word) : Nat := bitsOf p.toNat 49 0

/-- May a command of port p use the job virtual space: the one of the job that owns the compute, if it is p's (R258)? DESIGN CHOICE, log entry 25. -/
def virtRefusal (s : State) (p : Nat) (a : Word) (detail : Nat) : Option (Nat × Nat) :=
  if addrSpace a ≠ 0 then none
  else match s.owner with
    | none => some (St.badParam, detail)
    | some j => if s.jobPort j = p then none else some (St.notOwner, detail)

/-- LOG_READ (R347): an address that the job's space does not map is refused. DESIGN CHOICE, log entry 25. -/
def logReadBody (c : Cmd) (s : State) : State :=
  let p := c.pkt
  if extraBits p.p0 0x80000000FFFFFFFF then refuse s c St.badParam 1
  else if p.p1.toNat = 0 ∨ 64 < p.p1.toNat then refuse s c St.badParam 2
  else if 2 ^ 52 ≤ p.p2.toNat then refuse s c St.badParam 3
  else match unusedFrom p 3 with
    | some d => refuse s c St.badParam d
    | none =>
      match virtRefusal s p.port.val p.p2 3 with
      | some (st, d) => refuse s c st d
      | none =>
        if spaceQuiet s (addrSpace p.p2) then setCmdPhase s c .fetched else
        let rs := logFrom (if bitOf p.p0.toNat 63 then s.stickyLog else s.mainLog) p.p0.toNat p.p1.toNat
        let a := spaceWrite s 38 (addrSpace p.p2) (addrBits p.p2) (rs.flatMap logBytes)
        if a.fault.isSome then refuse a.state c St.badParam 3
        else finishCmd a.state c St.ok 0 (BitVec.ofNat 64 rs.length) 0

/-- LOG_READ (R347). -/
def execLogRead (p : Pkt) (s : State) : Host.Outcome State Fault Refusal := up s (hostCmd 0x53 p logReadBody)

end Sys2Proof.Machine
end

