-- ==== Sys2Proof/Machine/Engine.lean ====
section
/-! DEFINITION. The control unit of a vector engine (R114, R119 to R125): issue, faults, scalar and branch instructions,
transfers, synchronisation. -/

namespace Sys2Proof.Machine

/-- First offset of the diagnostic area of an engine's memory (R325). -/
def veDiagBase : Nat := 0x3C000

/-- The register block of engine n. -/
def veBlock (n : Nat) : Nat := 0x600000 + 0x4000 * n

/-- Does engine n issue? DESIGN CHOICE, log entry 27. -/
def veReady (s : State) (n : Nat) : Bool :=
  s.flag (Fd.VE_STATUS_RUN n) && !(s.flag (Fd.VE_STATUS_FAULT n)) && !(waits s (veAgent n))

/-- A vector-engine fault (R125) at a program address: recorded, source 224 + n, a job fault. -/
def veFaultAt (s : State) (n pc cause : Nat) : State :=
  let s1 := s.setRegN (Reg.VE_FAULT n) (pc * 65536 + cause)
  let s2 := (s1.setFld (Fd.VE_STATUS_FAULT n) 1).setFld (Fd.VE_STATUS_RUN n) 0
  computeReset (raiseShared { s2 with pcOut := s2.pcOut.filter (fun k => k != 96 + n) } (224 + n)) 2

/-- A fault of the instruction at the program counter. -/
def veFault (s : State) (n cause : Nat) : State := veFaultAt s n (s.regN (Reg.VE_PC n)) cause

/-- Sequential issue. -/
def veNext (s : State) (n : Nat) : State :=
  let pc := s.regN (Reg.VE_PC n)
  if pc = 1023 then veFault s n 3 else s.setRegN (Reg.VE_PC n) (pc + 1)

/-- A branch by the sign-extended immediate. -/
def veBranch (s : State) (n : Nat) (imm : BitVec 16) : State :=
  let t : Int := (s.regN (Reg.VE_PC n) : Int) + imm.toInt
  if t < 0 ∨ 1023 < t then veFault s n 3 else s.setRegN (Reg.VE_PC n) t.toNat

/-- Scalar register i; X0 reads as zero (R119). -/
def xreg (s : State) (n : Nat) (i : BitVec 5) : Nat := if i = 0 then 0 else s.regN (Reg.VE_X n i.toNat)

/-- Write scalar register i; writes to X0 are ignored (R119). -/
def setXreg (s : State) (n : Nat) (i : BitVec 5) (v : Nat) : State :=
  if i = 0 then s else s.setRegN (Reg.VE_X n i.toNat) (v % 2 ^ 32)

/-- The handle of the job that engine n serves, and its logical number. -/
def State.engineJob (s : State) (n : Nat) : Option (Job × Nat) :=
  s.jobs.findSome? (fun j => (j.lv.find? (fun p => p.2 == n)).map (fun p => (j, p.1)))

/-- Handle of an engine's job, 0 none. -/
def engineHandle (s : State) (n : Nat) : Nat :=
  match s.engineJob n with
  | some (j, _) => j.handle
  | none => 0

/-- The word of the program memory at the program counter of engine n. -/
def veWord (s : State) (n : Nat) : Word := s.reg (Reg.VE_PROG n (s.regN (Reg.VE_PC n)))

/-- Does a mapped engine stand at a word whose opcode Tables 5.3 and 5.4 do not list (R125)? An engine that no job has mapped holds no
program to compare with. DESIGN CHOICE, log entry 27. -/
def veIllegal (s : State) (n : Nat) : Bool := s.flag (Fd.VE_ID_MAPPED n) && (decodeVe (Fin.ofNat 24 n) (veWord s n)).isNone

/-- Is a row's instruction the one that engine n stands at: the one that the word at its program counter spells (R119)? An engine that no
job has mapped holds no program. DESIGN CHOICE, log entry 27. -/
def veStands (s : State) (n : Fin 24) (c : Instr) : Bool :=
  !(s.flag (Fd.VE_ID_MAPPED n.val)) || decodeVe n (veWord s n.val) == some c

/-- Issue one instruction: a fault of the fetch, an illegal opcode, nothing where the engine stands at another instruction, or its effect.
`bad`: its types, RND, MOD or IMM are ones that JOB_LOAD refuses; Table 5.4a names no cause for them and they fault as an illegal opcode
does (R125). DESIGN CHOICE, log entry 113. -/
def veIssue (n : Fin 24) (c : Instr) (bad : Bool) (f : Nat → State → State) (s : State) : Host.Outcome State Fault Refusal :=
  up s (fun s =>
    if !(veReady s n.val) then s
    else if s.pcOut.contains (96 + n.val) then veFault s n.val 3
    else if veIllegal s n.val then veFault s n.val 1
    else if !(veStands s n c) then s
    else if bad then veFault s n.val 1
    else f n.val (s.setFld (Fd.VE_STATUS_WAIT_XFER n.val) 0))

/-- Hold the instruction at the program counter on a transfer (R121). -/
def veHold (s : State) (n : Nat) : State := s.setFld (Fd.VE_STATUS_WAIT_XFER n) 1

/-- A scalar or control instruction rounds to nearest and has no modifiers: any other RND, any MOD bit, is refused (R125). -/
def scalarBad (i : VFields) : Bool := i.rnd != 0 || i.mod != 0

/-- NOP. -/
def execVeNop (n : Fin 24) (i : VFields) : State → Host.Outcome State Fault Refusal :=
  veIssue n (.veNop n i) (scalarBad i) (fun n s => veNext s n)

/-- HALT: when every transfer is complete sets DONE and stops; source 224 + n. -/
def execVeHalt (n : Fin 24) (i : VFields) : State → Host.Outcome State Fault Refusal :=
  veIssue n (.veHalt n i) (scalarBad i) (fun n s =>
    if s.veXfers.any (fun x => x.engine == n) then veHold s n
    else
      let s1 := (s.setFld (Fd.VE_STATUS_DONE n) 1).setFld (Fd.VE_STATUS_RUN n) 0
      pauseCheck (raiseShared s1 (224 + n)) (engineHandle s n))

/-- SETVL: VLEN and XD := min(XA, 4,096) (R114). -/
def execSetvl (n : Fin 24) (i : VFields) : State → Host.Outcome State Fault Refusal :=
  veIssue n (.setvl n i) (scalarBad i) (fun n s =>
    let v := min (xreg s n i.xa) 4096
    veNext (setXreg (s.setRegN (Reg.VE_VLEN n) v) n i.xd v) n)

/-- LI: the immediate, sign-extended. -/
def execLi (n : Fin 24) (i : VFields) : State → Host.Outcome State Fault Refusal :=
  veIssue n (.li n i) (scalarBad i) (fun n s => veNext (setXreg s n i.xd (wrapN 32 i.imm.toInt)) n)

/-- LUI: the upper half; the lower half is kept. -/
def execVeLui (n : Fin 24) (i : VFields) : State → Host.Outcome State Fault Refusal :=
  veIssue n (.veLui n i) (scalarBad i) (fun n s => veNext (setXreg s n i.xd (i.imm.toNat * 65536 + xreg s n i.xd % 65536)) n)

/-- ADDI. -/
def execVeAddi (n : Fin 24) (i : VFields) : State → Host.Outcome State Fault Refusal :=
  veIssue n (.veAddi n i) (scalarBad i) (fun n s => veNext (setXreg s n i.xd (wrapN 32 ((xreg s n i.xa : Int) + i.imm.toInt))) n)

/-- ADD. -/
def execVeAdd (n : Fin 24) (i : VFields) : State → Host.Outcome State Fault Refusal :=
  veIssue n (.veAdd n i) (scalarBad i) (fun n s => veNext (setXreg s n i.xd (xreg s n i.xa + xreg s n i.xb)) n)

/-- SUB. -/
def execVeSub (n : Fin 24) (i : VFields) : State → Host.Outcome State Fault Refusal :=
  veIssue n (.veSub n i) (scalarBad i) (fun n s => veNext (setXreg s n i.xd (wrapN 32 ((xreg s n i.xa : Int) - xreg s n i.xb))) n)

/-- SHLI: by IMM[4:0]. -/
def execShli (n : Fin 24) (i : VFields) : State → Host.Outcome State Fault Refusal :=
  veIssue n (.shli n i) (scalarBad i) (fun n s => veNext (setXreg s n i.xd (xreg s n i.xa * 2 ^ (i.imm.toNat % 32))) n)

/-- SHRI: logical, by IMM[4:0]. -/
def execShri (n : Fin 24) (i : VFields) : State → Host.Outcome State Fault Refusal :=
  veIssue n (.shri n i) (scalarBad i) (fun n s => veNext (setXreg s n i.xd (xreg s n i.xa / 2 ^ (i.imm.toNat % 32))) n)

/-- JMP. -/
def execVeJmp (n : Fin 24) (i : VFields) : State → Host.Outcome State Fault Refusal :=
  veIssue n (.veJmp n i) (scalarBad i) (fun n s => veBranch s n i.imm)

/-- LOOP. -/
def execVeLoop (n : Fin 24) (i : VFields) : State → Host.Outcome State Fault Refusal :=
  veIssue n (.veLoop n i) (scalarBad i) (fun n s =>
    let s1 := setXreg s n i.xd (wrapN 32 ((xreg s n i.xd : Int) - 1))
    if xreg s1 n i.xd = 0 then veNext s1 n else veBranch s1 n i.imm)

/-- BEQZ. -/
def execVeBeqz (n : Fin 24) (i : VFields) : State → Host.Outcome State Fault Refusal :=
  veIssue n (.veBeqz n i) (scalarBad i) (fun n s => if xreg s n i.xa = 0 then veBranch s n i.imm else veNext s n)

/-- BNEZ. -/
def execBnez (n : Fin 24) (i : VFields) : State → Host.Outcome State Fault Refusal :=
  veIssue n (.bnez n i) (scalarBad i) (fun n s => if xreg s n i.xa = 0 then veNext s n else veBranch s n i.imm)

/-! ### Transfers (R122) -/

/-- Transfers of engine n in progress. -/
def xfersOf (s : State) (n : Nat) : List VeXfer := s.veXfers.filter (fun x => x.engine == n)

/-- Show the number of transfers pending (Table 5.10). -/
def showXfers (s : State) (n : Nat) : State := s.setRegN (Reg.VE_XFER n) (xfersOf s n).length

/-- Are the operands of a VGET or VPUT as R122 asks? -/
def xferOk (local_ va len : Nat) : Bool :=
  decide (len % 64 = 0) && decide (64 ≤ len) && decide (len ≤ 65536) && decide (local_ % 64 = 0) && decide (va % 64 = 0) &&
    decide (local_ + len ≤ veDiagBase)

/-- VGET or VPUT: the transfer becomes pending; a ninth waits (R122). -/
def xferIssue (put : Bool) (i : VFields) (n : Nat) (s : State) : State :=
  let va := xreg s n i.xb % 65536 * 2 ^ 32 + xreg s n i.xa
  let local_ := xreg s n i.xd
  let len := xreg s n i.xc
  if !(xferOk local_ va len) then veFault s n 3
  else if 8 ≤ (xfersOf s n).length then veHold s n
  else
    let x : VeXfer := ⟨n, put, local_, va, len, s.regN Reg.DMMU_EPOCH, s.regN (Reg.VE_PC n)⟩
    veNext (showEpochs (showXfers { s with veXfers := s.veXfers ++ [x] } n)) n

/-- VGET. -/
def execVget (n : Fin 24) (i : VFields) : State → Host.Outcome State Fault Refusal := veIssue n (.vget n i) (scalarBad i) (xferIssue false i)

/-- VPUT. -/
def execVput (n : Fin 24) (i : VFields) : State → Host.Outcome State Fault Refusal := veIssue n (.vput n i) (scalarBad i) (xferIssue true i)

/-- Move the bytes of a transfer. DESIGN CHOICE, log entry 31. -/
def xferMove (s : State) (x : VeXfer) : Access :=
  if x.put then
    let r := portRead s 33 (veBase x.engine + x.local_) x.len
    let w := virtWrite r.state 33 x.va r.bytes
    { w with poisoned := r.poisoned }
  else
    let r := virtRead s 33 x.va x.len
    if r.fault.isSome then r
    else { r with state := portWrite r.state 33 (veBase x.engine + x.local_) r.bytes }

/-- VE_TRANSFER_COMPLETE: the oldest transfer of an engine completes (R122); a translation fault or poison ends the job
(R125, R237, Table 9.6). -/
def execVeTransferComplete (n : Fin 24) (s : State) : Host.Outcome State Fault Refusal :=
  up s (fun s =>
    match xfersOf s n.val with
    | [] => s
    | x :: _ =>
      let a := xferMove s x
      let s1 := showXfers { a.state with veXfers := a.state.veXfers.erase x } n.val
      let s2 := showEpochs (s1.setFld (Fd.VE_STATUS_WAIT_XFER n.val) 0)
      if a.fault.isSome then veFaultAt s2 n.val x.pc 4
      else if a.poisoned then computeReset s2 6
      else s2)

/-- VWAITX: waits for every transfer. -/
def execVwaitx (n : Fin 24) (i : VFields) : State → Host.Outcome State Fault Refusal :=
  veIssue n (.vwaitx n i) (scalarBad i) (fun n s => if (xfersOf s n).isEmpty then veNext s n else veHold s n)

/-! ### Synchronisation -/

/-- The object SIG and WAIT name (Table 5.3). -/
def veObject (s : State) (n : Nat) (i : VFields) : Nat := (if bitOf i.mod.toNat 0 then xreg s n i.xa else i.imm.toNat) % 16384

/-- Is an object owned by the engine's job? -/
def objOfEngine (s : State) (n o : Nat) : Bool :=
  objOfJob s o (engineHandle s n)

/-- MOD holds no bit but bit 0 (R125). -/
def syncModBad (i : VFields) : Bool := i.rnd != 0 || decide (2 ≤ i.mod.toNat)

/-- SIG (R123). -/
def execVeSig (n : Fin 24) (i : VFields) : State → Host.Outcome State Fault Refusal :=
  veIssue n (.veSig n i) (syncModBad i) (fun n s =>
    let o := veObject s n i
    if objOfEngine s n o then veNext (passPoint (unitSignal s (veAgent n) o 1 false) false n (s.regN (Reg.VE_PC n))) n else veFault s n 5)

/-- WAIT: WAIT_SYNC while the object is not satisfied; then issue goes on at the next address (R123). -/
def execVeWait (n : Fin 24) (i : VFields) : State → Host.Outcome State Fault Refusal :=
  veIssue n (.veWait n i) (syncModBad i) (fun n s =>
    let o := veObject s n i
    if objOfEngine s n o then waitObj (s.setFld (Fd.VE_STATUS_WAIT_SYNC n) 1) (veAgent n) o else veFault s n 5)

/-- PPOINT: recorded; with a pause pending the engine stops once its transfers are complete (R124). -/
def execVePpoint (n : Fin 24) (i : VFields) : State → Host.Outcome State Fault Refusal :=
  veIssue n (.vePpoint n i) (scalarBad i) (fun n s =>
    match s.engineJob n with
    | none => s
    | some (j, _) =>
      if j.pausing && !((xfersOf s n).isEmpty) then veHold s n
      else
        let s1 := s.setRegN (Reg.VE_SEQ_PPOINT n) (s.regN (Reg.VE_PC n) * 65536 + i.imm.toNat)
        if j.pausing then
          if s.regN (Reg.VE_PC n) = 1023 then veFault s1 n 3
          else pauseCheck ((veNext s1 n).setFld (Fd.VE_STATUS_RUN n) 0) j.handle
        else veNext s1 n)

end Sys2Proof.Machine
end

