-- ==== Sys2Proof/Machine/Vector.lean ====
section
/-! DEFINITION. The vector operations of Table 5.4 on an engine's memory: operand checks (R116), hazards with transfers
(R121), events (R134), residue mismatches (R136). -/

namespace Sys2Proof.Machine

/-! ### Operands -/

/-- A byte range of an engine's memory: start and length. -/
abbrev VRange := Nat × Nat

/-- Do two ranges meet? -/
def VRange.meets (a b : VRange) : Bool := decide (a.1 < b.1 + b.2) && decide (b.1 < a.1 + a.2)

/-- Alignment, bounds and overlap of the operands (R116, R325); `al` is the destination's alignment. -/
def vRangesOk (srcs dsts : List VRange) (al : Nat) : Bool :=
  srcs.all (fun r => decide (r.1 % 64 = 0) && decide (r.1 + r.2 ≤ veDiagBase)) &&
  dsts.all (fun r => decide (r.1 % al = 0) && decide (r.1 + r.2 ≤ veDiagBase)) &&
  dsts.all (fun d => srcs.all (fun r => d.1 == r.1 || !(VRange.meets d r)))

/-- Does a pending transfer hold the instruction: a VGET that writes a byte it touches, a VPUT that reads a byte it writes
(R121)? -/
def vHazard (s : State) (n : Nat) (srcs dsts : List VRange) : Bool :=
  (xfersOf s n).any (fun x =>
    dsts.any (fun r => VRange.meets r (x.local_, x.len)) || (!x.put && srcs.any (fun r => VRange.meets r (x.local_, x.len))))

/-- Reading the operands corrects their words with one bad bit (R226). -/
def vCorrect (s : State) (n : Nat) (srcs : List VRange) : State :=
  srcs.foldl (fun t r => correctWords t (veBase n + r.1) r.2) s

/-- Run a vector instruction whose encoding is valid: nothing with VLEN 0 (R114); a fault, a hold, a poisoned operand
(Table 9.6), or its effect. -/
def vecRun (n : Nat) (srcs dsts : List VRange) (al : Nat) (eff : State → State) (s : State) : State :=
  if s.regN (Reg.VE_VLEN n) = 0 then veNext s n
  else if !(vRangesOk srcs dsts al) then veFault s n 3
  else if vHazard s n srcs dsts then veHold s n
  else
    let t := vCorrect s n srcs
    match srcs.find? (fun r => poisoned t (veBase n + r.1) r.2) with
    | some r => computeReset (notePoison t 33 (veBase n + r.1) r.2) 6
    | none => veNext ((eff t).bump (Reg.VE_INSTR n)) n

/-- Elements of an operand. -/
def vRead (s : State) (n t a len : Nat) : List Nat := vtUnpack t len (s.bytes (veBase n + a) (vtBytes t len))

/-- Store bytes of a destination. -/
def vWrite (s : State) (n a : Nat) (bs : List Byte) : State := portWrite s 33 (veBase n + a) bs

/-- The counter of an event (Table 5.10). -/
def evReg (n : Nat) : VEv → Nat
  | .isat => Reg.VE_EVT_ISAT n
  | .fovf => Reg.VE_EVT_FOVF n
  | .div0 => Reg.VE_EVT_DIV0 n
  | .nan => Reg.VE_EVT_NAN n
  | .inf => Reg.VE_EVT_INF n
  | .domain => Reg.VE_EVT_DOMAIN n
  | .cvtSat => Reg.VE_EVT_CVT_SAT n
  | .cvtNan => Reg.VE_EVT_CVT_NAN n
  | .scaleClamp => Reg.VE_EVT_SCALE_CLAMP n
  | .badTrit => Reg.VE_EVT_BADTRIT n

/-- Count the events of an instruction. -/
def countEvs (s : State) (n : Nat) (evs : List VEv) : State := evs.foldl (fun t e => t.bump (evReg n e)) s

/-- Store results as elements of a type and count their events. DESIGN CHOICE, log entry 32. -/
def vStore (s : State) (n t a : Nat) (rs : List VRes) : State :=
  countEvs (vWrite s n a (vtPack t (rs.map (fun r => r.1)))) n (rs.flatMap (fun r => r.2))

/-- Ternary bytes of 243 or more in an operand are counted (R131). -/
def countTrits (s : State) (n t a len : Nat) : State :=
  if t = 10 then s.bumpBy (Reg.VE_EVT_BADTRIT n) (badTrits (s.bytes (veBase n + a) (vtBytes t len))) else s

/-- Operand B: a run of elements, or the value of XB broadcast (Table 5.2); how a 64-bit type reads XB is not stated, so
the value is free. DESIGN CHOICE, log entry 32. -/
def vOperandB (s : State) (n t : Nat) (i : VFields) (len : Nat) : List Nat × State :=
  if bitOf i.mod.toNat 7 then
    if vtBits t = 64 then let (v, s1) := s.free; (List.replicate len v.toNat, s1)
    else (List.replicate len (xreg s n i.xb % 2 ^ vtBits t), s)
  else (vRead s n t (xreg s n i.xb) len, s)

/-- Operand B as a source range. -/
def vRangeB (s : State) (n t : Nat) (i : VFields) (len : Nat) : List VRange :=
  if bitOf i.mod.toNat 7 then [] else [(xreg s n i.xb, vtBytes t len)]

/-- A residue mismatch (R136): counted unless the engine's checker was found faulty (R336), recorded; the job's slots in
flight become doubtful; a decision opens. -/
def residueMismatch (s : State) (n pc lane : Nat) : State :=
  let s1 := if s.resStopped.contains n then s else s.bump (Reg.VE_RES_MISMATCH n)
  let s2 := (s1.setRegN (Reg.VE_RES_LAST n) (pc * 65536 + lane)).log 0x06 33 (veBlock n) pc lane
  let s3 := match s2.engineJob n with
    | some (j, _) => markJobCarriers s2 j 1
    | none => s2
  if s3.flag (Fd.KAT_VE_DECISION n) then s3
  else { s3 with decisions := s3.decisions ++ [(⟨n, true, 5, 0, pc, 0, 0, 0, [], none⟩ : Decision)] }.setFld (Fd.KAT_VE_DECISION n) 1

/-- The residue unit's report of an instruction that it checks. DESIGN CHOICE, log entry 32. -/
def vResidue (s : State) (n pc : Nat) (r : Option (Fin 256)) : State :=
  match r with
  | some lane => residueMismatch s n pc lane.val
  | none => s

/-- A scalar field of a vector instruction out of range: RND other than 0, a reserved MOD bit (R125). -/
def vBad (i : VFields) (modMask : Nat) : Bool := i.rnd != 0 || (i.mod.toNat &&& (255 - modMask)) != 0

/-- Source and destination types that pass a test and are both integer or both floating point. DESIGN CHOICE, log entry 113. -/
def vTypes (i : VFields) (p : Nat → Bool) : Bool :=
  p i.st.toNat && p i.dt.toNat && vtFloat i.st.toNat == vtFloat i.dt.toNat

/-- INT8 to INT64 and floating point: VCMP and VSEL take INT64 too. DESIGN CHOICE, log entry 113. -/
def vtArith (t : Nat) : Bool := decide (t ≤ 6)
/-- INT8 to INT32 and floating point. -/
def vtArith32 (t : Nat) : Bool := vtInt32 t || vtFloat t
/-- INT32 and floating point. -/
def vtWide (t : Nat) : Bool := t == 2 || vtFloat t
/-- DT = ST. -/
def vSame (i : VFields) (p : Nat → Bool) : Bool := i.st == i.dt && p i.st.toNat

/-! ### Elementwise operations -/

/-- A binary operation. -/
def vecBin (c : Instr) (op : VBin) (p : Nat → Bool) (n : Fin 24) (i : VFields) (r : Option (Fin 256)) :
    State → Host.Outcome State Fault Refusal :=
  veIssue n c (vBad i 0x80 || !(vTypes i p)) (fun n s =>
    let len := s.regN (Reg.VE_VLEN n)
    let st := i.st.toNat
    let dt := i.dt.toNat
    let pc := s.regN (Reg.VE_PC n)
    vecRun n ((xreg s n i.xa, vtBytes st len) :: vRangeB s n st i len) [(xreg s n i.xd, vtBytes dt len)] 64 (fun s =>
      let (b, s1) := vOperandB s n st i len
      let rs := List.zipWith (vBin op st dt) (vRead s n st (xreg s n i.xa) len) b
      vResidue (vStore s1 n dt (xreg s n i.xd) rs) n pc r) s)

/-- VADD. -/
def execVadd (n : Fin 24) (i : VFields) (residue : Option (Fin 256)) : State → Host.Outcome State Fault Refusal :=
  vecBin (.vadd n i none) .add vtArith n i residue
/-- VSUB. -/
def execVsub (n : Fin 24) (i : VFields) (residue : Option (Fin 256)) : State → Host.Outcome State Fault Refusal :=
  vecBin (.vsub n i none) .sub vtArith n i residue
/-- VMUL. -/
def execVmul (n : Fin 24) (i : VFields) (residue : Option (Fin 256)) : State → Host.Outcome State Fault Refusal :=
  vecBin (.vmul n i none) .mul vtArith32 n i residue
/-- VDIV. -/
def execVdiv (n : Fin 24) (i : VFields) : State → Host.Outcome State Fault Refusal := vecBin (.vdiv n i) .div vtWide n i none
/-- VMIN. -/
def execVmin (n : Fin 24) (i : VFields) : State → Host.Outcome State Fault Refusal := vecBin (.vmin n i) .min vtArith n i none
/-- VMAX. -/
def execVmax (n : Fin 24) (i : VFields) : State → Host.Outcome State Fault Refusal := vecBin (.vmax n i) .max vtArith n i none

/-- VFMA: one rounding. -/
def execVfma (n : Fin 24) (i : VFields) (residue : Option (Fin 256)) : State → Host.Outcome State Fault Refusal :=
  veIssue n (.vfma n i none) (vBad i 0x80 || !(vTypes i vtWide)) (fun n s =>
    let len := s.regN (Reg.VE_VLEN n)
    let st := i.st.toNat
    let dt := i.dt.toNat
    let size := vtBytes st len
    let pc := s.regN (Reg.VE_PC n)
    vecRun n ((xreg s n i.xa, size) :: (xreg s n i.xc, size) :: vRangeB s n st i len) [(xreg s n i.xd, vtBytes dt len)] 64
      (fun s =>
        let (b, s1) := vOperandB s n st i len
        let ab := List.zip (vRead s n st (xreg s n i.xa) len) b
        let rs := List.zipWith (fun x c => vFma st dt x.1 x.2 c) ab (vRead s n st (xreg s n i.xc) len)
        vResidue (vStore s1 n dt (xreg s n i.xd) rs) n pc residue) s)

/-- An operation of one operand. -/
def vecUn (c : Instr) (f : Nat → Nat → Nat → VRes) (ok : VFields → Bool) (n : Fin 24) (i : VFields) :
    State → Host.Outcome State Fault Refusal :=
  veIssue n c (vBad i 0x80 || !(ok i)) (fun n s =>
    let len := s.regN (Reg.VE_VLEN n)
    let st := i.st.toNat
    let dt := i.dt.toNat
    vecRun n [(xreg s n i.xa, vtBytes st len)] [(xreg s n i.xd, vtBytes dt len)] 64 (fun s =>
      let s1 := countTrits s n st (xreg s n i.xa) len
      vStore s1 n dt (xreg s n i.xd) ((vRead s n st (xreg s n i.xa) len).map (f st dt))) s)

/-- VABS. -/
def execVabs (n : Fin 24) (i : VFields) : State → Host.Outcome State Fault Refusal := vecUn (.vabs n i) vAbs (fun i => vTypes i vtArith32) n i
/-- VNEG. -/
def execVneg (n : Fin 24) (i : VFields) : State → Host.Outcome State Fault Refusal := vecUn (.vneg n i) vNeg (fun i => vTypes i vtArith32) n i
/-- VEXP2. -/
def execVexp2 (n : Fin 24) (i : VFields) : State → Host.Outcome State Fault Refusal :=
  vecUn (.vexp2 n i) (fun _ _ x => vExp2 x) (fun i => vSame i (fun t => t == 6)) n i
/-- VLOG2. -/
def execVlog2 (n : Fin 24) (i : VFields) : State → Host.Outcome State Fault Refusal :=
  vecUn (.vlog2 n i) (fun _ _ x => vLog2 x) (fun i => vSame i (fun t => t == 6)) n i
/-- VRCP. -/
def execVrcp (n : Fin 24) (i : VFields) : State → Host.Outcome State Fault Refusal :=
  vecUn (.vrcp n i) (fun _ _ x => vRcp x) (fun i => vSame i (fun t => t == 6)) n i
/-- VRSQ. -/
def execVrsq (n : Fin 24) (i : VFields) : State → Host.Outcome State Fault Refusal :=
  vecUn (.vrsq n i) (fun _ _ x => vRsq x) (fun i => vSame i (fun t => t == 6)) n i
/-- VMOV: copies elements of any type. -/
def execVmov (n : Fin 24) (i : VFields) : State → Host.Outcome State Fault Refusal :=
  vecUn (.vmov n i) (fun st _ x => vCopy st x) (fun i => vSame i (fun t => decide (t ≤ 13))) n i

/-- A shift or a bitwise operation: DT = ST, INT8 to INT32. -/
def vecLogic (c : Instr) (f : Nat → Nat → Nat → VRes) (n : Fin 24) (i : VFields) : State → Host.Outcome State Fault Refusal :=
  veIssue n c (vBad i 0x80 || !(vSame i vtInt32)) (fun n s =>
    let len := s.regN (Reg.VE_VLEN n)
    let t := i.st.toNat
    vecRun n ((xreg s n i.xa, vtBytes t len) :: vRangeB s n t i len) [(xreg s n i.xd, vtBytes t len)] 64 (fun s =>
      let (b, s1) := vOperandB s n t i len
      vStore s1 n t (xreg s n i.xd) (List.zipWith (f t) (vRead s n t (xreg s n i.xa) len) b)) s)

/-- VSHL. -/
def execVshl (n : Fin 24) (i : VFields) : State → Host.Outcome State Fault Refusal := vecLogic (.vshl n i) vShl n i
/-- VSHRA. -/
def execVshra (n : Fin 24) (i : VFields) : State → Host.Outcome State Fault Refusal := vecLogic (.vshra n i) vShra n i
/-- VAND. -/
def execVand (n : Fin 24) (i : VFields) : State → Host.Outcome State Fault Refusal := vecLogic (.vand n i) (fun _ a b => (a &&& b, [])) n i
/-- VOR. -/
def execVor (n : Fin 24) (i : VFields) : State → Host.Outcome State Fault Refusal := vecLogic (.vor n i) (fun _ a b => (a ||| b, [])) n i
/-- VXOR. -/
def execVxor (n : Fin 24) (i : VFields) : State → Host.Outcome State Fault Refusal := vecLogic (.vxor n i) (fun _ a b => (a ^^^ b, [])) n i

/-- VCMP: 1 or 0 as INT8 by the relation in MOD[2:0]. -/
def execVcmp (n : Fin 24) (i : VFields) : State → Host.Outcome State Fault Refusal :=
  let rel := i.mod.toNat % 8
  veIssue n (.vcmp n i) (vBad i 0x87 || decide (5 < rel) || i.dt != 0 || !(vtArith i.st.toNat)) (fun n s =>
    let len := s.regN (Reg.VE_VLEN n)
    let st := i.st.toNat
    vecRun n ((xreg s n i.xa, vtBytes st len) :: vRangeB s n st i len) [(xreg s n i.xd, len)] 64 (fun s =>
      let (b, s1) := vOperandB s n st i len
      vStore s1 n 0 (xreg s n i.xd) (List.zipWith (vCompare st rel) (vRead s n st (xreg s n i.xa) len) b)) s)

/-- VSEL: a where the INT8 element of C is not 0, else b. R133 is applied to the element selected. DESIGN CHOICE, log entry 113. -/
def execVsel (n : Fin 24) (i : VFields) : State → Host.Outcome State Fault Refusal :=
  veIssue n (.vsel n i) (vBad i 0x80 || !(vSame i vtArith)) (fun n s =>
    let len := s.regN (Reg.VE_VLEN n)
    let t := i.st.toNat
    vecRun n ((xreg s n i.xa, vtBytes t len) :: (xreg s n i.xc, len) :: vRangeB s n t i len)
      [(xreg s n i.xd, vtBytes t len)] 64 (fun s =>
        let (b, s1) := vOperandB s n t i len
        let ab := List.zip (vRead s n t (xreg s n i.xa) len) b
        let rs := List.zipWith (fun x c => vCopy t (if c != 0 then x.1 else x.2)) ab
          (vRead s n 0 (xreg s n i.xc) len)
        vStore s1 n t (xreg s n i.xd) rs) s)

/-! ### Scan, reduction, top-k, softmax, statistics -/

/-- Of scans and reductions the residue unit checks the sums, not min and max (Table 5.6). -/
def sumResidue (m : Nat) (r : Option (Fin 256)) : Option (Fin 256) := if m % 4 = 0 then r else none

/-- VSCAN (R126). -/
def execVscan (n : Fin 24) (i : VFields) (residue : Option (Fin 256)) : State → Host.Outcome State Fault Refusal :=
  let m := i.mod.toNat
  veIssue n (.vscan n i none) (vBad i 0x8F || m % 4 == 3 || !(vTypes i vtArith)) (fun n s =>
    let len := s.regN (Reg.VE_VLEN n)
    let st := i.st.toNat
    let dt := i.dt.toNat
    let seg := bitOf m 3
    let pc := s.regN (Reg.VE_PC n)
    vecRun n ((xreg s n i.xa, vtBytes st len) :: (if seg then [(xreg s n i.xc, len)] else []))
      [(xreg s n i.xd, vtBytes dt len)] 64 (fun s =>
        let flags := if seg then vRead s n 0 (xreg s n i.xc) len else List.replicate len 0
        let rs := vScan st dt (m % 4) (bitOf m 2) seg [] (List.zip (vRead s n st (xreg s n i.xa) len) flags)
        vResidue (vStore s n dt (xreg s n i.xd) rs) n pc (sumResidue m residue)) s)

/-- VRED: one element at D, aligned to its size (R126); EXCL and SEG mean nothing in a reduction. DESIGN CHOICE, log entry 113. -/
def execVred (n : Fin 24) (i : VFields) (residue : Option (Fin 256)) : State → Host.Outcome State Fault Refusal :=
  let m := i.mod.toNat
  veIssue n (.vred n i none) (vBad i 0x8F || m % 4 == 3 || !(vTypes i vtArith)) (fun n s =>
    let len := s.regN (Reg.VE_VLEN n)
    let st := i.st.toNat
    let dt := i.dt.toNat
    let pc := s.regN (Reg.VE_PC n)
    vecRun n [(xreg s n i.xa, vtBytes st len)] [(xreg s n i.xd, vtBits dt / 8)] (vtBits dt / 8) (fun s =>
      let r := vFoldOut st dt (m % 4) (vRead s n st (xreg s n i.xa) len)
      vResidue (vStore s n dt (xreg s n i.xd) [r]) n pc (sumResidue m residue)) s)

/-- VTOPK: values to D, INT16 indices to B (R127); BS means nothing where B is a destination. DESIGN CHOICE, log entry 113. -/
def execVtopk (n : Fin 24) (i : VFields) : State → Host.Outcome State Fault Refusal :=
  let k := i.imm.toNat
  veIssue n (.vtopk n i) (vBad i 0x81 || k == 0 || decide (256 < k) || !(vSame i vtArith32)) (fun n s =>
    let len := s.regN (Reg.VE_VLEN n)
    let t := i.st.toNat
    vecRun n [(xreg s n i.xa, vtBytes t len)] [(xreg s n i.xd, vtBytes t k), (xreg s n i.xb, 2 * k)] 64 (fun s =>
      let top := topK t (bitOf i.mod.toNat 0) k (vRead s n t (xreg s n i.xa) len)
      let s1 := vStore s n t (xreg s n i.xd) (top.map (fun x => x.1))
      vWrite s1 n (xreg s n i.xb) (vtPack 1 (top.map (fun x => x.2)))) s)

/-- VSOFTMAX: one row of VLEN elements with the factor in XB (R128). -/
def execVsoftmax (n : Fin 24) (i : VFields) (residue : Option (Fin 256)) : State → Host.Outcome State Fault Refusal :=
  veIssue n (.vsoftmax n i none) (vBad i 0x80 || !(vtFloat i.st.toNat) || !(vtFloat i.dt.toNat)) (fun n s =>
    let len := s.regN (Reg.VE_VLEN n)
    let pc := s.regN (Reg.VE_PC n)
    vecRun n [(xreg s n i.xa, vtBytes i.st.toNat len)] [(xreg s n i.xd, vtBytes i.dt.toNat len)] 64 (fun s =>
      let rs := vSoftmax i.st.toNat i.dt.toNat (xreg s n i.xb) (vRead s n i.st.toNat (xreg s n i.xa) len)
      vResidue (vStore s n i.dt.toNat (xreg s n i.xd) rs) n pc residue) s)

/-- VSTATS: mean and variance of VLEN statistics records of 24 bytes (R130). -/
def execVstats (n : Fin 24) (i : VFields) (residue : Option (Fin 256)) : State → Host.Outcome State Fault Refusal :=
  veIssue n (.vstats n i none) (vBad i 0x80 || i.st != 3 || i.dt != 6) (fun n s =>
    let len := s.regN (Reg.VE_VLEN n)
    let pc := s.regN (Reg.VE_PC n)
    vecRun n [(xreg s n i.xa, 24 * len)] [(xreg s n i.xd, 8 * len)] 64 (fun s =>
      let bs := s.bytes (veBase n + xreg s n i.xa) (24 * len)
      let out := (List.range len).flatMap (fun k =>
        let (m, v) := vStats (leAt bs (24 * k) 8) (signed 64 (leAt bs (24 * k + 8) 8)) (leAt bs (24 * k + 16) 8)
        [m, v])
      vResidue (vWrite s n (xreg s n i.xd) (vtPack 6 out)) n pc residue) s)

/-! ### Partial sums (R129) -/

/-- VACCX: exact words; a result outside 48 bits saturates. -/
def execVaccx (n : Fin 24) (i : VFields) (residue : Option (Fin 256)) : State → Host.Outcome State Fault Refusal :=
  veIssue n (.vaccx n i none) (vBad i 0x80 || !(vSame i (fun t => t == 12))) (fun n s =>
    let len := s.regN (Reg.VE_VLEN n)
    let pc := s.regN (Reg.VE_PC n)
    vecRun n ((xreg s n i.xa, 8 * len) :: vRangeB s n 12 i len) [(xreg s n i.xd, 8 * len)] 64 (fun s =>
      let (b, s1) := vOperandB s n 12 i len
      let rs := List.zipWith (fun x y =>
        let z := signed 64 x + signed 64 y
        let w := satS 48 z
        ((sext64 w, if w = z then [] else [VEv.isat]) : VRes)) (vRead s n 12 (xreg s n i.xa) len) b
      vResidue (vStore s1 n 12 (xreg s n i.xd) rs) n pc residue) s)

/-- VACCC: compact words under comb (R105). -/
def execVaccc (n : Fin 24) (i : VFields) (residue : Option (Fin 256)) : State → Host.Outcome State Fault Refusal :=
  veIssue n (.vaccc n i none) (vBad i 0x80 || !(vSame i (fun t => t == 13))) (fun n s =>
    let len := s.regN (Reg.VE_VLEN n)
    let pc := s.regN (Reg.VE_PC n)
    vecRun n ((xreg s n i.xa, 4 * len) :: vRangeB s n 13 i len) [(xreg s n i.xd, 4 * len)] 64 (fun s =>
      let (b, s1) := vOperandB s n 13 i len
      let rs := List.zipWith (fun x y =>
        let (w, isOver) := comb x y
        ((w, if isOver then [VEv.isat] else []) : VRes)) (vRead s n 13 (xreg s n i.xa) len) b
      vResidue (vStore s1 n 13 (xreg s n i.xd) rs) n pc residue) s)

/-! ### VDQ (R129) -/

/-- The record that C points at. -/
structure DqRecord where
  mode : Nat
  g : Nat
  h : Nat
  sout : Nat
  act : Nat
  u : Nat
  la : Nat
  scaleOff : Nat
  count : Nat
  base : Nat

/-- Read the record. -/
def dqRecord (bs : List Byte) : DqRecord :=
  ⟨leAt bs 0 4, leAt bs 4 4, leAt bs 8 4, leAt bs 12 4 % 256, leAt bs 16 1, leAt bs 17 1, leAt bs 18 1, leAt bs 20 4,
    leAt bs 24 4, leAt bs 28 4⟩

/-- A record that is not fault cause 2. -/
def DqRecord.ok (r : DqRecord) : Bool := decide (r.mode % 8 ≤ 4) && decide (r.u ≤ 2) && fp32Finite r.g && fp32Finite r.h

/-- Value of a partial sum. -/
def partialVal (compact : Bool) (x : Nat) : Int := if compact then compactVal x else signed 48 x

/-- Bytes of an output row of `len` entries. -/
def vdqRowBytes (fmt len : Nat) : Nat := if fmt = 0 then 4 * len else if fmt ≤ 2 then 2 * len else (len + 1) / 2

/-- A row's output and events; with RND 1 every output format rounds stochastically (R132): `scales` is the output-scale code of each block of 256 entries. -/
def vdqRow (r : DqRecord) (rnd : Bool) (seed : Nat) (ws : Nat → Nat) (scales : List Nat) (row len : Nat) (xs : List Int) :
    List Byte × Nat :=
  let prod (e : Nat) : Frac := Frac.mul (ue5m3 r.act) (ue5m3 (ws e))
  let fmt := r.mode % 8
  if fmt ≤ 2 then
    let vs := xs.zipIdx.map (fun x =>
      let y := dequant x.1 r.u (prod x.2) r.g
      (outFloat fmt).roundSat (if rnd then stochFloat (outFloat fmt) y (gen32 seed 1 r.la (r.base + row * len + x.2) r.count) else y))
    (vs.flatMap (fun v => leBytes (if fmt = 0 then 4 else 2) v.1), (vs.filter (fun v => v.2)).length)
  else
    let vs := xs.zipIdx.map (fun x =>
      let c := scales.getD (x.2 / 256) 0
      if c = 0 then (0, false)
      else requant r.mode fmt (Frac.div (dequant x.1 r.u (prod x.2) r.h) (ue5m3 c))
        (gen32 seed 1 r.la (r.base + row * len + x.2) r.count))
    (packNibbles (vs.map (fun v => v.1)), (vs.filter (fun v => v.2)).length)

/-- The output scale of block k over all rows, and whether it was clamped (R51). -/
def vdqScale (r : DqRecord) (ws : Nat → Nat) (rows : List (List Int)) (k : Nat) : Nat × Bool :=
  if dqDynamic r.mode then
    let mags := rows.flatMap (fun xs => ((xs.zipIdx.drop (256 * k)).take 256).map (fun x =>
      (dequant x.1 r.u (Frac.mul (ue5m3 r.act) (ue5m3 (ws x.2))) r.h).abs))
    let amax := mags.foldl (fun a x => if Frac.lt a x then x else a) ⟨0, 1⟩
    let l : Int := if r.mode % 8 = 3 then 7 else 6
    if amax.isZero then (0x78, false)
    else if scaleClamps amax l then (0xFF, true)
    else (ue5m3Ceil (Frac.div amax ⟨l, 1⟩), false)
  else (r.sout, false)

/-- The effect of VDQ on rows already read. -/
def vdqRun (s : State) (n : Nat) (i : VFields) (r : DqRecord) (ws : Nat → Nat) (len nrows : Nat) : State :=
  let compact := i.st.toNat == 13
  let t := i.st.toNat
  let stride := i.imm.toNat * 64
  let rows := (List.range nrows).map (fun k => (vRead s n t (xreg s n i.xa + k * stride) len).map (partialVal compact))
  let seed := match s.engineJob n with | some (j, _) => j.seed | none => 0
  let blocks := if r.mode % 8 ≤ 2 then [] else (List.range ((len + 255) / 256)).map (vdqScale r ws rows)
  let s1 := rows.zipIdx.foldl (fun u x =>
    let (bs, sats) := vdqRow r (i.rnd == 1) seed ws (blocks.map (fun b => b.1)) x.2 len x.1
    (vWrite u n (xreg s n i.xd + x.2 * stride) bs).bumpBy (Reg.VE_EVT_CVT_SAT n) sats) s
  let s2 := if blocks.isEmpty then s1 else vWrite s1 n r.scaleOff (blocks.map (fun b => BitVec.ofNat 8 b.1))
  s2.bumpBy (Reg.VE_EVT_SCALE_CLAMP n) (blocks.filter (fun b => b.2)).length

/-- VDQ: de-quantises or re-quantises rows of partial sums (R129). A transfer that still writes the record holds it (R121). The output-scale
area has to lie within the job part and is aligned to a byte; RND 1 or the record's SR makes INT4 and FP4 round stochastically, RND 1 alone
the other formats. DESIGN CHOICE, log entry 113. -/
def execVdq (n : Fin 24) (i : VFields) (residue : Option (Fin 256)) : State → Host.Outcome State Fault Refusal :=
  let m := i.mod.toNat
  veIssue n (.vdq n i none) ((m &&& 0x60) != 0 || decide (1 < i.rnd.toNat) || i.dt != 0 || !(i.st == 12 || i.st == 13)) (fun n s =>
    let len := s.regN (Reg.VE_VLEN n)
    let pc := s.regN (Reg.VE_PC n)
    let nrows := m % 16 + 1
    let stride := i.imm.toNat * 64
    let r0 := dqRecord (s.bytes (veBase n + xreg s n i.xc) 32)
    let r : DqRecord := if i.rnd = 1 then { r0 with mode := r0.mode ||| 32 } else r0
    let ents := if bitOf m 4 then (len + 1) / 2 else len
    let bcast := bitOf m 7
    let srcs := (List.range nrows).map (fun k => (xreg s n i.xa + k * stride, vtBytes i.st.toNat len)) ++
      (if bcast then [] else [(xreg s n i.xb, ents)]) ++ [(xreg s n i.xc, 32)]
    let dsts := (List.range nrows).map (fun k => (xreg s n i.xd + k * stride, vdqRowBytes (r.mode % 8) len))
    if len = 0 then veNext s n
    else if !(vRangesOk srcs [] 64) then veFault s n 3
    else if vHazard s n [(xreg s n i.xc, 32)] [] then veHold s n
    else if !r.ok then veFault s n 2
    else if decide (2 < r.mode % 8) && decide (veDiagBase < r.scaleOff + (len + 255) / 256) then veFault s n 3
    else if decide (2 < r.mode % 8) && vHazard s n [] [(r.scaleOff, (len + 255) / 256)] then veHold s n
    else
      let scales := if bcast then [] else s.bytes (veBase n + xreg s n i.xb) ents
      let ws (e : Nat) : Nat := if bcast then xreg s n i.xb % 256 else byteAt scales (if bitOf m 4 then e / 2 else e)
      vecRun n srcs dsts 64 (fun s => vResidue (vdqRun s n i r ws len nrows) n pc residue) s)

/-! ### VCVT (R131, R132) -/

/-- Scale of each group, and the clamps: none without SC. -/
def vcvtScales (s : State) (n : Nat) (i : VFields) (len : Nat) (xs : List Nat) : Option (List Nat) × Nat :=
  let m := i.mod.toNat
  let g := 2 ^ (m % 16)
  let groups := (len + g - 1) / g
  if !(bitOf m 4) then (none, 0)
  else if bitOf m 5 then
    let cs := (List.range groups).map (fun k => vGroupScale i.st.toNat i.dt.toNat ((xs.drop (g * k)).take g))
    (some (cs.map (fun c => c.1)), (cs.filter (fun c => c.2)).length)
  else if bitOf m 7 then (some (List.replicate groups (xreg s n i.xb % 256)), 0)
  else (some (vRead s n 0 (xreg s n i.xb) groups), 0)

/-- Fields of a VCVT that no image may hold (R125, R131): RND, group size, dynamic scales without SC or of a type for which R131 gives no L,
types. DESIGN CHOICE, log entry 113. -/
def vcvtBad (i : VFields) : Bool :=
  let m := i.mod.toNat
  let dyn := bitOf m 5
  decide (1 < i.rnd.toNat) || decide (12 < m % 16) || (dyn && !(bitOf m 4)) || (dyn && !(cvtNarrow i.dt.toNat)) ||
    decide (11 < i.st.toNat) || decide (11 < i.dt.toNat)

/-- VCVT: converts VLEN elements from ST to DT. With DYN and BS the group scales are applied and not written. DESIGN CHOICE, log entry 113. -/
def execVcvt (n : Fin 24) (i : VFields) : State → Host.Outcome State Fault Refusal :=
  let m := i.mod.toNat
  let dyn := bitOf m 5
  veIssue n (.vcvt n i) (vcvtBad i) (fun n s =>
    let len := s.regN (Reg.VE_VLEN n)
    let st := i.st.toNat
    let dt := i.dt.toNat
    let g := 2 ^ (m % 16)
    let groups := (len + g - 1) / g
    let sc := bitOf m 4 && !(bitOf m 7)
    let srcs := (xreg s n i.xa, vtBytes st len) :: (if sc && !dyn then [(xreg s n i.xb, groups)] else [])
    let dsts := (xreg s n i.xd, vtBytes dt len) :: (if sc && dyn then [(xreg s n i.xb, groups)] else [])
    vecRun n srcs dsts 64 (fun s =>
      let xs := vRead s n st (xreg s n i.xa) len
      let (scales, clamps) := vcvtScales s n i len xs
      let (seed, lv) := match s.engineJob n with | some (j, l) => (j.seed, l) | none => (0, 0)
      let rs := xs.zipIdx.map (fun x =>
        let r := if i.rnd = 1 then
            some (gen32 seed 2 (0x80 + lv) ((xreg s n i.xc + x.2) % 2 ^ 32) (s.regN (Reg.VE_X n 31)))
          else none
        vConvert st dt (bitOf m 6) (scales.map (fun c => c.getD (x.2 / g) 0)) x.1 r)
      let s1 := vStore (countTrits s n st (xreg s n i.xa) len) n dt (xreg s n i.xd) rs
      let s2 := if sc && dyn then vWrite s1 n (xreg s n i.xb) ((scales.getD []).map (BitVec.ofNat 8)) else s1
      s2.bumpBy (Reg.VE_EVT_SCALE_CLAMP n) clamps) s)

end Sys2Proof.Machine
end

