-- ==== Sys2Proof/Machine/Image.lean ====
section
/-! DEFINITION. The checks of a job image at JOB_LOAD (R267): what the image claims of the device, its layers, every word of
its programs (R486, R125), its memory, its objects, its preemption points. -/

namespace Sys2Proof.Machine

/-! ### Sequencer programs (R84, R486, Table 3.7) -/

/-- Is a sequencer word one that the device executes? -/
def seqWordOk (w : Word32) : Bool :=
  let n := w.toNat
  let op := bitsOf n 31 26
  let d := bitsOf n 25 22
  let flags := bitsOf n 9 0
  let imm := bitsOf n 17 0
  match op with
  | 0x01 | 0x02 | 0x07 | 0x08 | 0x12 | 0x14 | 0x18 => flags == 0
  | 0x04 | 0x05 => decide (imm < 65536)
  | 0x06 | 0x0C | 0x0D | 0x0E | 0x1E => true
  | 0x10 => !(modeBad imm)
  | 0x11 => flags == 0 && d == 0
  | 0x13 => decide (flags < 8)
  | 0x15 => decide (flags < 2)
  | 0x16 => decide (flags < 16) && d == 0 && (!(bitOf flags 3) || bitOf flags 2)
  | 0x1C | 0x1D => bitsOf n 21 15 == 0
  | _ => false

/-! ### Vector-engine programs (R125, Tables 5.2 to 5.4) -/

/-- Are the types, rounding, modifiers and immediate of a vector operation allowed? -/
def veVectorOk (op : Nat) (i : VFields) : Bool :=
  let m := i.mod.toNat
  let red := !(vBad i 0x8F) && m % 4 != 3 && vTypes i vtArith
  match op with
  | 0x10 | 0x11 | 0x15 | 0x16 => !(vBad i 0x80) && vTypes i vtArith
  | 0x12 | 0x17 | 0x18 => !(vBad i 0x80) && vTypes i vtArith32
  | 0x13 | 0x14 => !(vBad i 0x80) && vTypes i vtWide
  | 0x19 | 0x1A | 0x1B | 0x1C | 0x1D => !(vBad i 0x80) && vSame i vtInt32
  | 0x1E => !(vBad i 0x87) && decide (m % 8 ≤ 5) && i.dt == 0 && vtArith i.st.toNat
  | 0x1F => !(vBad i 0x80) && vSame i vtArith
  | 0x20 | 0x21 | 0x22 | 0x23 => !(vBad i 0x80) && vSame i (fun t => t == 6)
  | 0x24 => !(vBad i 0x80) && vSame i (fun t => decide (t ≤ 13))
  | 0x30 | 0x32 => red
  | 0x34 => !(vBad i 0x81) && decide (1 ≤ i.imm.toNat ∧ i.imm.toNat ≤ 256) && vSame i vtArith32
  | 0x36 => !(vBad i 0x80) && vtFloat i.st.toNat && vtFloat i.dt.toNat
  | 0x38 => !(vBad i 0x80) && i.st == 3 && i.dt == 6
  | 0x3A => !(vBad i 0x80) && vSame i (fun t => t == 12)
  | 0x3B => !(vBad i 0x80) && vSame i (fun t => t == 13)
  | 0x3C => (m &&& 0x60) == 0 && decide (i.rnd.toNat ≤ 1) && i.dt == 0 && (i.st == 12 || i.st == 13)
  | 0x40 => !(vcvtBad i)
  | _ => false

/-- Is a vector-engine word one that the device executes? -/
def veWordOk (w : Word) : Bool :=
  let op := bitsOf w.toNat 63 56
  let i := veFields w
  if (decide (0x01 ≤ op) && decide (op ≤ 0x0A)) || (decide (0x0C ≤ op) && decide (op ≤ 0x0F)) ||
      [0x58, 0x59, 0x5A, 0x5E].contains op then !(scalarBad i)
  else if op = 0x5C ∨ op = 0x5D then !(syncModBad i)
  else veVectorOk op i

/-! ### Layers (R48, R52, R92, Table 4.1) -/

/-- The largest magnitude of an array integer of a format, as activations and as weights (Table 4.1): 4-bit, 2-bit, ternary and INT8;
INT4 beside INT8 counts 8, of which a 4-bit pairing counts 12. -/
def fmtPeak (fmt other : Nat) : Nat :=
  match fmt with
  | 8 => 128
  | 2 => 2
  | _ => if other = 8 then 8 else 12

/-- Bits of an activation format, and of a weight format, as PMODE codes them (R84). -/
def actBits (p : PMode) : Nat := [4, 4, 2, 8].getD p.afmt 4

/-- See `actBits`. -/
def weightBits (p : PMode) : Nat := [4, 4, 2, 2, 8].getD p.wfmt 4

/-- The bound per weight load of a pairing: its largest product times 256 (Table 4.1). -/
def loadBound (p : PMode) : Nat := fmtPeak (actBits p) (weightBits p) * fmtPeak (weightBits p) (actBits p) * 256

/-- The largest spill interval of a pairing: the smaller of 32,768 and (2^31 - 1) / bound (Table 4.1, R91). -/
def spillLimit (bound : Nat) : Nat := min 32768 ((2 ^ 31 - 1) / bound)

/-- Does a layer declare what the device allows? -/
def layerOk (l : LayerDecl) : Bool :=
  fp32Finite l.g.toNat && fp32Finite l.h.toNat && !(l.wholeK && l.readsDynamic) &&
    (!l.wholeK || ((PMode.ofNat l.pairing).valid && decide (l.interval ≤ spillLimit (loadBound (PMode.ofNat l.pairing))) &&
      decide (l.loads * loadBound (PMode.ofNat l.pairing) ≤ 2 ^ 47 - 1)))

/-! ### Units that a job can take -/

/-- Vector engines that are not fenced. -/
def freeEngines (s : State) : List Nat := (List.range 24).filter (fun n => !(s.regBit Reg.KAT_FENCED_VE n))

/-- Attention engines that are not fenced: a job's rings go to them in order (Table 13.3). -/
def freeAes (s : State) : List Nat := (List.range 8).filter (fun n => !(s.regBit Reg.KAT_FENCED_OTHER n))

/-- Arrays that a job can take: neither unavailable nor fenced. -/
def freeArrays (s : State) : List Nat := (List.range 96).filter (mappable s)

/-- Free firewall regions for jobs (R309). -/
def freeRegions (s : State) : List Nat := (List.range 256).filter (fun i => decide (64 ≤ i) && !((fwInUse s).contains i))

/-! ### Memory (R3, R225, R325) -/

/-- Last byte and one of the LPDDR5X that jobs use (Table 9.2). DEDUCED, log entry 42. -/
def jobLpddr : Nat := 0x1DF0000000

/-- Bits of a mask that a byte range touches, in units of `unit` bytes. -/
def touches (mask off len unit : Nat) : Bool :=
  (List.range ((off + len + unit - 1) / unit)).any (fun k => decide (off / unit ≤ k) && bitOf mask k)

/-- Unused banks of a unit. -/
def unusedMask (l : List (Nat × Nat)) (u : Nat) : Nat := ((l.filter (fun p => p.1 == u)).map (fun p => p.2)).foldl (· ||| ·) 0

/-- Does data lie in the memory the device reports, outside diagnostic areas and banks marked unused? -/
def dataOk (g : JobImage) (d : JobData) : Bool :=
  let len := d.bytes.length
  match d.space with
  | 0 => decide (d.unit < g.seqProgs.length) && decide (d.off + len ≤ diagBase) &&
      !(touches (unusedMask g.lspUnused d.unit) d.off len 0x10000)
  | 1 => decide (d.off + len ≤ sspSize) && !(touches g.sspUnused d.off len 0x100000)
  | 2 => decide (d.unit < g.veProgs.length) && decide (d.off + len ≤ veDiagBase)
  | 3 => decide (d.unit < 12) && decide (d.off + len ≤ 0x100000) &&
      !(touches (unusedMask g.dscUnused d.unit) d.off len 0x10000)
  | 4 => g.frames.any (fun f => decide (f.1 * 65536 ≤ d.off) && decide (d.off + len ≤ f.2 * 65536))
  | _ => false

/-- Is a bank of array n marked unused, through the logical array that the load would put there (R225)? DEDUCED, log entry 42. -/
def lspBankUnused (s : State) (g : JobImage) (n bank : Nat) : Bool :=
  match ((freeArrays s).take g.seqProgs.length).findIdx? (fun m => m == n) with
  | some la => bitOf (unusedMask g.lspUnused la) bank
  | none => false

/-- Is `len` bytes from `a`, within one 64 KiB, memory that the job may map: LPDDR5X for jobs (R3), no diagnostic area (R325), no unused bank
(R225)? The units' memories are named at the physical places that the load gives them. DEDUCED, log entry 42. -/
def placeOk (s : State) (g : JobImage) (a len : Nat) : Bool :=
  match placeOf a with
  | .lsp n => decide (a % 0x100000 + len ≤ diagBase) && !(lspBankUnused s g n (a % 0x100000 / 0x10000))
  | .ve _ => decide ((a - veBase 0) % 0x40000 + len ≤ veDiagBase)
  | .ssp b => !(bitOf g.sspUnused b)
  | .lpddr => decide (a + len ≤ jobLpddr)
  | .dsc n => decide (12 ≤ n) || a % 0x100000 / 0x10000 == 0 || !(bitOf (unusedMask g.dscUnused n) (a % 0x100000 / 0x10000))
  | .control | .nothing => false

/-- Does a translation of a page of `len` bytes, all of it, map memory that the job may map? A remote page lies in no memory of this device. -/
def frameOk (s : State) (g : JobImage) (e : Word) (len : Nat) : Bool :=
  let a := fieldGet e 39 12 * 4096 / len * len
  bitOf e.toNat 5 || (List.range (max 1 (len / 0x10000))).all (fun k => placeOk s g (a + 0x10000 * k) (min len 0x10000))

/-- Bits of a page size: 4 KiB, 64 KiB, 2 MiB (R232). -/
def pageBits (size : Nat) : Nat := match size with | 0 => 12 | 1 => 16 | _ => 21

/-- A pinned translation: no reserved bit, the C bit for 64 KiB, and memory that the job may map. -/
def pinnedOk (s : State) (g : JobImage) (size : Nat) (e : Word) : Bool :=
  !(entryReserved e) && bitOf e.toNat 4 == (size == 1) && frameOk s g e (2 ^ pageBits size)

/-- The physical place of image data in LPDDR5X, SSP or a cluster's memory, where page tables can lie; none for a logical unit's memory. -/
def dataPlace (d : JobData) : Option Nat :=
  match d.space with
  | 1 => some (sspBase + d.off)
  | 3 => some (dscBase d.unit + d.off)
  | 4 => some d.off
  | _ => none

/-- A byte of physical memory as the image lays it. -/
def imageByte (g : JobImage) (a : Nat) : Nat :=
  match g.data.find? (fun d => (dataPlace d).any (fun p => decide (p ≤ a) && decide (a < p + d.bytes.length))) with
  | some d => (d.bytes.getD (a - (dataPlace d).getD 0) 0).toNat
  | none => 0

/-- A table entry as the image lays it. -/
def imageEntry (g : JobImage) (a : Nat) : Nat := ((List.range 8).map (fun k => imageByte g (a + k) * 256 ^ k)).sum

/-- Does a page lie in a region over the image's tables (R233)? -/
def inTables (g : JobImage) (page : Nat) : Bool := g.tables.any (fun t => decide (t.1 ≤ page) && decide (page ≤ t.2))

/-- Bytes that an entry of a table `lvl` levels above L0 maps; the C bit makes 16 entries one page of 64 KiB (R232). -/
def leafBytes (lvl e : Nat) : Nat := if lvl = 1 then 0x200000 else if bitOf e 4 then 0x10000 else 4096

/-- Initial mappings: every table that the image lays lies in a declared region (R233), and every leaf, `lvl` levels above the leaves of L0, maps
memory that the job may map (R225, R325). -/
def tableOk (s : State) (g : JobImage) : Nat → Nat → Bool
  | 0, _ => true
  | lvl + 1, table => inTables g (table / 4096) && (List.range 512).all (fun i =>
      let e := imageEntry g (table + 8 * i)
      if !(bitOf e 0) then true
      else if bitOf e 1 then tableOk s g lvl (bitsOf e 39 12 * 4096)
      else frameOk s g (BitVec.ofNat 64 e) (leafBytes lvl e))

/-- The L3 table of the image. -/
def imageRoot (g : JobImage) : Nat := g.ttb / 4096 * 4096

/-- The image's page tables, where it lays data that can hold them at all. -/
def mappingsOk (s : State) (g : JobImage) : Bool := g.data.all (fun d => (dataPlace d).isNone) || tableOk s g 4 (imageRoot g)

/-- The page of this device that the image's tables map at a virtual address, from the table `lvl` levels above L0. -/
def imagePage (g : JobImage) (va : Nat) : Nat → Nat → Option Nat
  | 0, _ => none
  | lvl + 1, table =>
    let e := imageEntry g (table + 8 * (va / 2 ^ (12 + 9 * lvl) % 512))
    if !(bitOf e 0) then none
    else if bitOf e 1 then imagePage g va lvl (bitsOf e 39 12 * 4096)
    else if bitOf e 5 then none
    else
      let n := leafBytes lvl e
      some ((bitsOf e 39 12 * 4096 / n * n + va % n) / 4096)

/-- The sequence table, 16,384 descriptors of 256 bytes, lies in the declared regions as far as the image maps it (R140, R166). -/
def seqTableOk (g : JobImage) : Bool :=
  g.kvSeqBase == 0 || g.data.all (fun d => (dataPlace d).isNone) ||
    (List.range 1024).all (fun k => (imagePage g (g.kvSeqBase + 4096 * k) 4 (imageRoot g)).all (inTables g))

/-- Length of a live range in bytes. -/
def liveBytes (r : Nat × Nat × Nat) : Nat := if r.1 = 3 then 4 * r.2.2 else r.2.2

/-- A live range of a preemption point lies in its memory (R3). -/
def liveOk (r : Nat × Nat × Nat) : Bool :=
  match r.1 with
  | 0 => decide (r.2.1 + r.2.2 ≤ diagBase)
  | 1 => decide (r.2.1 + r.2.2 ≤ sspSize)
  | 2 => decide (r.2.1 + r.2.2 ≤ veDiagBase)
  | 3 => decide (r.2.1 + r.2.2 ≤ 32768)
  | 4 => decide (r.2.1 + r.2.2 ≤ 12 * 0x100000)
  | _ => false

/-- The L3 table lies in memory that the job may map (R3), in a region over the image's tables (R233), the sequence table likewise (R166).
DESIGN CHOICE, log entry 37. -/
def tablesDeclared (s : State) (g : JobImage) : Bool :=
  decide (g.ttb < 2 ^ 40) && placeOk s g (imageRoot g) 4096 && inTables g (g.ttb / 4096) && seqTableOk g

/-- The most that any one point of a unit saves. -/
def mostSaved (g : JobImage) (seq : Bool) (unit : Nat) : Nat :=
  ((g.points.filter (fun p => p.seq == seq && p.unit == unit)).map (fun p => (p.live.map liveBytes).sum)).foldl max 0

/-- The save area holds what the units save, each at one of its points, inside the job's frames (R3, R269). -/
def saveAreaOk (g : JobImage) : Bool :=
  let most := ((List.range g.seqProgs.length).map (mostSaved g true)).sum + ((List.range g.veProgs.length).map (mostSaved g false)).sum
  most == 0 || g.frames.any (fun f => decide (f.1 * 65536 ≤ g.saveArea) && decide (g.saveArea + most ≤ f.2 * 65536))

/-- A retention table names 2 to 64 buffers and a semaphore of the image (R205). -/
def retentionOk (g : JobImage) : Bool :=
  g.retention.all (fun r => decide (2 ≤ r.count ∧ r.count ≤ 64) && g.objects.any (fun o => o.obj == r.obj && o.type == 1))

/-- A season window: of at most 4,096 units of 64 bytes, inside the unit's memory (R201). DEDUCED, log entry 38. -/
def windowOk (size : Nat) (w : Nat × Nat) : Bool := decide (w.2 ≤ 4096) && decide ((w.1 + w.2) * 64 ≤ size)

/-! ### Preemption points (R88, R124, R326) -/

/-- Places of a sequencer program that follow the word at `pc`: the next, a branch's target, both, or none. -/
def seqAfter (prog : List Word32) (pc : Nat) : List Nat :=
  let w := (prog.getD pc 0)
  let dest := ((pc : Int) + (fmtIOf w).imm.toInt).toNat
  match (w.extractLsb' 26 6).toNat with
  | 0x02 => []
  | 0x0C => [dest]
  | 0x0D | 0x0E => [pc + 1, dest]
  | _ => [pc + 1]

/-- The places that a program reaches from some, going on only from those that `on` lets through: `seen` holds those reached. -/
def seqReach (prog : List Word32) (on : Nat → Bool) : Nat → List Nat → List Nat → List Nat
  | 0, _, seen => seen
  | _, [], seen => seen
  | k + 1, pc :: todo, seen =>
    if seen.contains pc || decide (prog.length ≤ pc) then seqReach prog on k todo seen
    else seqReach prog on k ((if on pc then seqAfter prog pc else []) ++ todo) (pc :: seen)

/-- Opcode of a sequencer word. -/
def seqOp (w : Word32) : Nat := bitsOf w.toNat 31 26

/-- Does every first PASS after a gap point carry NEWW, over all the ways that the text shows (R326)? -/
def gapText (prog : List Word32) (pc : Nat) : Bool :=
  (seqReach prog (fun k => seqOp (prog.getD k 0) != 0x13) (4 * prog.length + 4) (seqAfter prog pc) []).all (fun k =>
    let w := prog.getD k 0
    seqOp w != 0x13 || bitOf w.toNat 0)

/-- Is the pass queue empty and no push in progress at a gap point, as far as straight-line text shows: `before` are the words ahead of it, the
nearest first; one that queues a pass or a push is followed by a wait (R326)? DEDUCED, log entry 43. -/
def gapQuiet : List Word32 → Bool
  | [] => true
  | w :: rest =>
    if [0x12, 0x13, 0x16].contains (seqOp w) then false
    else if [0x02, 0x0C, 0x0D, 0x0E, 0x18, 0x1D, 0x1E].contains (seqOp w) then true
    else gapQuiet rest

/-- Is a word of a program a jump back, by its opcode and displacement: does the text show that the program goes round without end? -/
def loopsFor (prog : List (Nat × Int)) : Bool := prog.any (fun w => w.1 == 0x0C && decide (w.2 ≤ 0))

/-- A program that the text shows to go round without end has a gap point; an array's of a job with slots a slot point too (R326).
DEDUCED, log entry 43. -/
def pointsPlaced (g : JobImage) : Bool :=
  let has (seq : Bool) (u : Nat) (f : PrePoint → Bool) : Bool := g.points.any (fun p => p.seq == seq && p.unit == u && f p)
  g.seqProgs.zipIdx.all (fun p => !(loopsFor (p.1.map (fun w => (seqOp w, (fmtIOf w).imm.toInt)))) ||
    (has true p.2 (fun q => q.gap) && (g.slotTable.isEmpty || has true p.2 (fun q => q.slot)))) &&
  g.veProgs.zipIdx.all (fun p => !(loopsFor (p.1.map (fun w => (bitsOf w.toNat 63 56, (veFields w).imm.toInt)))) || has false p.2 (fun q => q.gap))

/-- Does a point's record name a PPOINT of its program with that record number, and does the text after a gap point hold? -/
def pointOk (g : JobImage) (p : PrePoint) : Bool :=
  decide ((p.live.map liveBytes).sum ≤ 48 * 0x100000) && p.live.all liveOk &&
  (if p.seq then
    match (g.seqProgs.getD p.unit [])[p.pc]? with
    | some w => bitsOf w.toNat 31 26 == 0x1E && bitsOf w.toNat 15 0 == p.record &&
        (!p.gap || (gapText (g.seqProgs.getD p.unit []) p.pc && gapQuiet ((g.seqProgs.getD p.unit []).take p.pc).reverse))
    | none => false
  else
    match (g.veProgs.getD p.unit [])[p.pc]? with
    | some w => bitsOf w.toNat 63 56 == 0x5E && bitsOf w.toNat 15 0 == p.record
    | none => false)

/-! ### Draw tables, slot table, season record -/

/-- A draw entry names arrays, rows, layers and code blocks that exist (R488). -/
def drawOk (g : JobImage) (d : Draw) : Bool :=
  decide (d.la < g.seqProgs.length) && (passPlaces g d.la).contains d.pc && decide (d.rowLo ≤ d.rowHi) &&
    g.slotTable.any (fun b => b.carrier.val == d.carrier) && decide (d.cbLo ≤ d.cbHi) && decide (d.cbHi < 2048)

/-- A carrier's line: a ring of 4 to 64 entries on a 16 KiB boundary, in the job's frames (Table 10.13). -/
def bindOk (g : JobImage) (b : SlotBind) : Bool :=
  decide (2 ≤ b.log2n ∧ b.log2n ≤ 6) && b.ringBase % 0x4000 == 0 &&
    g.frames.any (fun f => decide (f.1 * 65536 ≤ b.ringBase) && decide (b.ringBase + 2 ^ b.log2n * 0x4000 ≤ f.2 * 65536))

/-- Are the elements of a list distinct? -/
def distinct (l : List Nat) : Bool := l.length == l.eraseDups.length

/-- May the job have an object: free, or its initial value allowed and no other owner (R273)? DEDUCED, log entry 43. -/
def objDeclOk (s : State) (o : JobObj) : Bool :=
  decide (o.obj < 16384) && decide (o.type ≤ 3) && objInitOk o.type o.init o.deadline && decide (o.deadline < 2 ^ 27) &&
    (objType s o.obj == 0 || objOwner s o.obj == 0x3FE)

/-- A descriptor ring: 16 to 256 entries of 64 bytes, inside SSP (R3, R147, R245). -/
def ringOk (r : Nat × Nat × Nat) : Bool := decide (r.2.1 ≤ 4) && decide (r.1 + 64 * 2 ^ (r.2.1 + 4) ≤ sspSize)

/-- Claims against the device: no physical names, no VC1 slots, background shares, units and memory that exist. -/
def claimsOk (s : State) (g : JobImage) : Bool :=
  !g.namesPhysical && !g.claimsVc1 && !(g.det && g.starvesBackground) &&
  decide (g.seqProgs.length ≤ (freeArrays s).length) && decide (g.veProgs.length ≤ (freeEngines s).length) &&
  g.seqProgs.all (fun p => decide (p.length ≤ 1024)) && g.veProgs.all (fun p => decide (p.length ≤ 1024)) &&
  decide (g.tables.length + g.regions.length ≤ (freeRegions s).length) && decide (g.pinned.length ≤ 8192) &&
  decide (g.aeRings.length ≤ (freeAes s).length) && decide (g.eguRings.length ≤ 4) && (g.aeRings ++ g.eguRings).all ringOk &&
  g.cores.all (fun c => decide (c.1 < 12 ∧ c.2 < 4) && !(s.regBit Reg.KAT_FENCED_OTHER (8 + c.1))) && decide (1 ≤ g.ldpcIter ∧ g.ldpcIter ≤ 32)

/-- Programs and layers. -/
def programsOk (g : JobImage) : Bool :=
  g.seqProgs.all (fun p => p.all seqWordOk) && g.veProgs.all (fun p => p.all veWordOk) && g.layers.all layerOk

/-- Memory, translations, windows, frames. -/
def memoryOk (s : State) (g : JobImage) : Bool :=
  g.data.all (dataOk g) && g.pinned.all (fun p => pinnedOk s g p.2.1.val p.2.2) && mappingsOk s g && tablesDeclared s g && saveAreaOk g &&
  g.lspWindows.all (windowOk diagBase) && g.dscWindows.all (windowOk 0x100000) &&
  g.lspUnused.all (fun p => !(bitOf p.2 15)) &&
  g.frames.all (fun f => decide (f.1 ≤ f.2) && decide (f.2 * 65536 ≤ jobLpddr)) &&
  g.kvBase % 2 ^ 40 == 0 && decide (g.kvBase < 2 ^ 48) && g.kvSeqBase % 4096 == 0 && decide (g.kvSeqBase < 2 ^ 48)

/-- Objects, carriers, draw tables, preemption points. -/
def tablesOk (s : State) (g : JobImage) : Bool :=
  g.objects.all (objDeclOk s) && distinct (g.objects.map (fun o => o.obj)) &&
  g.slotTable.all (bindOk g) && distinct (g.slotTable.map (fun b => b.carrier.val)) &&
  g.draws.all (drawOk g) && retentionOk g && g.points.all (pointOk g) && pointsPlaced g && decide (g.spacing ≤ 100)

/-- Does JOB_LOAD accept an image (R267 step 2)? DESIGN CHOICE, log entry 5. DESIGN CHOICE, log entry 37. DEDUCED, log entry 43. -/
def imageOk (s : State) (g : JobImage) : Bool := claimsOk s g && programsOk g && memoryOk s g && tablesOk s g

end Sys2Proof.Machine
end

