-- ==== Sys2Proof/Machine/Jobs.lean ====
section
/-! DEFINITION. The job commands (R266 to R270, R487, Table 10.8a): load, start, pause, resume, save, restore, kill; the
reference beat (R283). -/

namespace Sys2Proof.Machine

/-! ### Mapping and installation (R14, R267) -/

/-- The next handle: increasing modulo 256, skipping 0 and handles in use (R267). -/
def nextHandle (s : State) : Nat :=
  ((List.range 255).map (fun k => (s.lastHandle + 1 + k) % 256)).find? (fun h => h != 0 && (s.job h).isNone) |>.getD 1

/-- The first free entry of the job table. -/
def nextEntry (s : State) : Nat := ((List.range 9).find? (fun i => s.fld (Fd.JOB_V i) == 0)).getD 8

/-- Number a list of physical units as logical 0, 1, …: `n` of them. -/
def mapUnits (free : List Nat) (n : Nat) : List (Nat × Nat) := ((free.take n).zipIdx).map (fun p => (p.2, p.1))

/-- Every bank that a job may have powered down wakes, zeroed (R225). -/
def wakeBanks (s : State) : State :=
  let s1 := (List.range 96).foldl (fun t n => t.setRegN (Reg.MA_LSP_ON n) 0xFFFF) s
  let s2 := s1.setRegN Reg.DMMU_SSP_ON (2 ^ 48 - 1)
  (List.range 12).foldl (fun t d => t.setRegN (Reg.DSC_MEM_ON d) 0xFFFF) s2

/-- A program in a unit's program memory. -/
def installProg {w : Nat} (s : State) (at_ : Nat → Nat) (words : List (BitVec w)) : State :=
  (words.zipIdx).foldl (fun t p => t.setRegN (at_ p.2) p.1.toNat) s

/-- Show a logical array on its physical one, with its season window; a fault of an earlier job is over (R86). DESIGN CHOICE, log entry 27. -/
def mapArray (s : State) (la n : Nat) (win : Nat × Nat) : State :=
  let s0 := ((unmapArray s n).setFld (Fd.MA_STATUS_SEQ_FAULT n) 0).setRegN (Reg.MA_SEQ_FAULT n) 0
  let s1 := (s0.setFld (Fd.MA_ID_MAPPED n) 1).setFld (Fd.MA_ID_LA n) la
  (s1.setFld (Fd.MA_SWIN_LEN n) win.2).setFld (Fd.MA_SWIN_BASE n) win.1

/-- Show a logical engine on its physical one; a fault of an earlier job is over (R125). DESIGN CHOICE, log entry 27. -/
def mapEngine (s : State) (lv n : Nat) : State :=
  let s0 := ((unmapEngine s n).setRegN (Reg.VE_STATUS n) 0).setRegN (Reg.VE_FAULT n) 0
  (s0.setFld (Fd.VE_ID_MAPPED n) 1).setFld (Fd.VE_ID_LV n) lv

/-- Attention engines and DSP cores hold no fault of an earlier job (R148, R178). DESIGN CHOICE, log entry 27. -/
def clearUnitFaults (s : State) : State :=
  let s1 := (List.range 8).foldl (fun t n => (t.setFld (Fd.AE_STATUS_FAULT n) 0).setRegN (Reg.AE_FAULT n) 0) s
  (List.range 12).foldl (fun t d =>
    (List.range 4).foldl (fun t c => t.setRegN (Reg.DSC_CORE_FAULT d c) 0) (t.setFld (Fd.DSC_STATUS_FAULT d) 0)) s1

/-- Map a job's logical arrays, engines and clusters. -/
def mapJob (s : State) (j : Job) : State :=
  let s1 := j.la.foldl (fun t p => mapArray t p.1 p.2 (j.image.lspWindows.getD p.1 (0, 0))) s
  let s2 := clearUnitFaults (j.lv.foldl (fun t p => mapEngine t p.1 p.2) s1)
  (List.range 12).foldl (fun t d =>
    let w := j.image.dscWindows.getD d (0, 0)
    (t.setFld (Fd.DSC_SWIN_LEN d) w.2).setFld (Fd.DSC_SWIN_BASE d) w.1) s2

/-- The place of a piece of image data. -/
def dataAddr (j : Job) (d : JobData) : Nat :=
  match d.space with
  | 0 => lspBase ((j.pa d.unit).getD 0) + d.off
  | 1 => sspBase + d.off
  | 2 => veBase (((j.lv.find? (fun p => p.1 == d.unit)).map (fun p => p.2)).getD 0) + d.off
  | 3 => dscBase d.unit + d.off
  | _ => d.off

/-- Programs and data of an image. -/
def installPrograms (s : State) (j : Job) : State :=
  let s1 := j.la.foldl (fun t p => installProg t (Reg.MA_PROG p.2) (j.image.seqProgs.getD p.1 [])) s
  let s2 := j.lv.foldl (fun t p => installProg t (Reg.VE_PROG p.2) (j.image.veProgs.getD p.1 [])) s1
  j.image.data.foldl (fun t d => t.putBytes (dataAddr j d) d.bytes) s2

/-- The window contents, in both banks (R201). DEDUCED, log entry 38. -/
def installWindows (s : State) (j : Job) : State :=
  let put (t : State) (u : Nat) (bs : List Byte) : State := (t.putBank u 0 0 bs).putBank u 1 0 bs
  let s1 := j.la.foldl (fun t p => put t p.2 ((j.image.season.getD p.1 []).take (winBytes t p.2))) s
  (List.range 12).foldl (fun t d =>
    put t (96 + d) ((j.image.season.getD (j.image.seqProgs.length + d) []).take (t.fld (Fd.DSC_SWIN_LEN d) * 64))) s1

/-- The rings, tables and decoder limits that the image sets (R141, R147, R184, R245). -/
def installRings (s : State) (g : JobImage) : State :=
  let s1 := (List.zip g.aeRings (freeAes s)).foldl (fun t r =>
    ((t.setRegN (Reg.AE_RING_BASE r.2) (r.1.1 % 2 ^ 32)).setRegN (Reg.AE_RING_CFG r.2) (r.1.2.1 % 8 * 65536 + r.1.2.2 % 16384)).setRegN
      (Reg.AE_RING_HEAD r.2) 0) s
  let s2 := (g.eguRings.zipIdx).foldl (fun t r =>
    ((t.setRegN (Reg.EGU_RING_BASE r.2) (r.1.1 % 2 ^ 32)).setRegN (Reg.EGU_RING_CFG r.2) (r.1.2.1 % 8 * 65536 + r.1.2.2 % 16384)).setRegN
      (Reg.EGU_RING_HEAD r.2) 0) s1
  let s3 := (s2.setRegN Reg.AE0_KV_BASE g.kvBase).setRegN Reg.AE0_KV_SEQ_BASE g.kvSeqBase
  (List.range 12).foldl (fun t n => t.setRegN (Reg.DEC_LDPC_CFG n) g.ldpcIter) s3

/-- The DMMU serves the job: its tables, and in deterministic mode its pinned translations (R234). -/
def installDmmu (s : State) (g : JobImage) : State :=
  let pins : List TbEntry := if g.det then g.pinned.map (fun p => ⟨p.1, pageBits p.2.1.val, p.2.2, true⟩) else []
  let s1 := (s.setRegN Reg.DMMU_TTB (g.ttb % 2 ^ 40 / 4096 * 4096)).setRegN Reg.DMMU_PINNED_N pins.length
  { s1.setFld Fd.DMMU_STATUS_PINNED (b2n g.det) with tb := pins }

/-- Who writes page tables and the tables of KV ranges: SC, the edit engine, the attention engines (R166, R233). -/
def tableWriters : Nat := 1 + 2 ^ 10 + 0xFF000000

/-- The firewall regions of a job: those over its tables, read as without a region, then those that it declares beside. -/
def jobRegions (s : State) (g : JobImage) : List (Nat × Nat × Nat × Nat) :=
  g.tables.map (fun t => (t.1, t.2, (s.reg Reg.FW_DEFAULT_RMASK).toNat, tableWriters)) ++ g.regions

/-- The firewall regions of a job, in the lowest free numbers from 64 (R309). DESIGN CHOICE, log entry 37. -/
def installRegions (s : State) (g : JobImage) (nums : List Nat) : State :=
  (List.zip nums (jobRegions s g)).foldl (fun t r =>
    let (base, limit, rm, wm) := r.2
    let t1 := (t.setFld (Fd.FW_REGION_BASE_ADDR r.1) base).setFld (Fd.FW_REGION_LIMIT_ADDR r.1) limit
    (t1.setRegN (Reg.FW_REGION_RMASK r.1) rm).setRegN (Reg.FW_REGION_WMASK r.1) wm) s

/-- The objects that the image declares; type 0 frees one (R273). -/
def installObjects (s : State) (j : Job) : State :=
  j.image.objects.foldl (fun t o => if o.type = 0 then freeObj t o.obj else initObj t o.obj o.type j.handle o.init o.deadline) s

/-- Bind the carriers of a job's slot table (R261). -/
def bindCarriers (s : State) (j : Job) (port : Nat) : State :=
  j.image.slotTable.foldl (fun t b =>
    let c := b.carrier.val
    let k := t.car c
    let t1 := t.setCar c { k with job := j.handle, port := Fin.ofNat 2 port, queue := b.queue, objs := b.objs, seq := 0, binding := k.binding + 1, blocked := false }
    let t2 := t1.setRegN (Reg.SLOT_RING c) (b.ringBase / 0x4000 * 0x4000 + b.log2n)
    ((t2.setRegN (Reg.SLOT_TAIL c) 0).setRegN (Reg.SLOT_HEAD c) 0).setRegN (Reg.SLOT_DONE c) 0) s

/-- DET at JOB_LOAD and JOB_RESTORE: the job's mode, its counts zero (R281, R294). -/
def installDet (s : State) (g : JobImage) : State :=
  let s1 := ((s.setFld Fd.DET_CTRL_MODE (b2n g.det)).setRegN Reg.DET_TDC 0).setRegN Reg.DET_TDC_VAL 0
  (List.range 160).foldl (fun t i => t.setRegN (Reg.DET_SRC i) 0) s1

/-- The ten event counters of an engine are zero at JOB_LOAD (R134). -/
def zeroEvents (s : State) (j : Job) : State :=
  { s with regs := j.lv.foldl (fun m p => Tbl.clearRange m (Reg.VE_EVT_ISAT p.2) (Reg.VE_EVT_ISAT p.2 + 0x28)) s.regs }

/-- A job's line in the job table (Table 10.13). -/
def showJob (s : State) (j : Job) (port state : Nat) : State :=
  s.setRegN (Reg.JOB j.entry) (2 ^ 31 + state * 2 ^ 24 + port * 2 ^ 20 + j.handle)

/-- Install an image whose checks have passed (R267 steps 3 and 4): the job is LOADED and owns the compute.
Its frames that still awaited zeroing are cleared first (R445). -/
def installJob (s : State) (j : Job) (port : Nat) : State :=
  let g := j.image
  let s0 := g.frames.foldl (fun t f => clearPending t f.1 f.2) s
  let s1 := installDet (wakeBanks s0) g
  let s2 := zeroEvents (mapJob s1 j) j
  let s3 := installWindows (installPrograms s2 j) j
  let s4 := installRegions (installDmmu (installRings s3 g) g) g j.regions
  let s5 := installObjects { s4 with jobs := s4.jobs ++ [j], lastHandle := j.handle,
                                     lostHandles := s4.lostHandles.filter (fun h => h != j.handle) } j
  let s6 := bindCarriers s5 j port
  ((showJob s6 j port 1).setFld Fd.COMPUTE_OWNER j.handle).setFld Fd.DET_STATUS_REF_V 0

/-- The job that an image becomes. -/
def newJob (s : State) (p : Pkt) (g : JobImage) : Job :=
  let free := freeArrays s
  let asked := p.p3.toNat % 16
  { entry := nextEntry s, handle := nextHandle s, image := g, seed := p.p2.toNat, key := bitsOf p.p3.toNat 15 8
    la := mapUnits free g.seqProgs.length, lv := mapUnits (freeEngines s) g.veProgs.length
    reserve := (free.drop g.seqProgs.length).take asked, asked := asked, fencedFrom := [], saved := none
    regions := (freeRegions s).take (g.tables.length + g.regions.length), pausing := false, stopTime := 0 }

/-! ### JOB_LOAD (R267, R442) -/

/-- Does the signature check pass (R442)? Index 0 names no key: allowed unless signatures are required. -/
def signatureOk (s : State) (key : Nat) (g : JobImage) : Bool :=
  if key = 0 then !(s.flag Fd.BOOT_KEYS_REQUIRE)
  else match s.keys.find? (fun k => k.index == key) with
    | some k => Config.slhVerify k.set k.key g.signedBytes g.signature
    | none => false

/-- A refusal of JOB_LOAD by its parameters. -/
def loadParamBad (p : Pkt) : Option Nat :=
  if 2 ^ 52 ≤ p.p0.toNat ∨ addrSpace p.p0 = 0 then some 1
  else if p.p1 = 0 then some 2
  else if extraBits p.p3 0xFF0F ∨ 8 < p.p3.toNat % 16 then some 4
  else unusedFrom p 4

/-- JOB_LOAD: while SRAM is being zeroed it waits (Table 10.8a). DESIGN CHOICE, log entry 5. DESIGN CHOICE, log entry 37. -/
def jobLoadBody (g : JobImage) (c : Cmd) (s : State) : State :=
  match loadParamBad c.pkt with
  | some d => refuse s c St.badParam d
  | none =>
    if s.fld Fd.COMPUTE_OWNER ≠ 0 then refuse s c St.busy 0
    else if s.flag Fd.BOOT_ZERO_SRAM_BUSY then setCmdPhase s c .fetched
    else if !(signatureOk s (bitsOf c.pkt.p3.toNat 15 8) g) then refuse (s.bump Reg.BOOT_JOB_AUTH_FAIL) c St.authFailed 0
    else if !(imageOk s g) then refuse s c St.badParam 1
    else
      let j := newJob s c.pkt g
      finishCmd (installJob s j c.pkt.port.val) c St.ok 0 (BitVec.ofNat 64 j.handle) (BitVec.ofNat 64 j.reserve.length)

/-- JOB_LOAD (R267). `img` is the image at the address of P0 (DESIGN CHOICE, log entry 5). -/
def execJobLoad (p : Pkt) (img : JobImage) (s : State) : Host.Outcome State Fault Refusal :=
  up s (hostCmd 0x10 p (jobLoadBody img))

/-! ### Starting and resuming (R209, R225, R268, R270, R283) -/

/-- Power down one unit's unused banks: their contents are lost (R225). -/
def powerDown (s : State) (reg base unit mask : Nat) : State :=
  let banks := (List.range 48).filter (fun b => bitOf mask b)
  let s1 := banks.foldl (fun t b => t.setRegBit reg b false) s
  { s1 with mem := banks.foldl (fun m b => Tbl.clearRange m (base + unit * b) (base + unit * (b + 1))) s1.mem }

/-- JOB_START and JOB_RESTORE power down what the image marks unused, except DSC bank 0 and LSP bank 15 (R225, R325). -/
def powerDownUnused (s : State) (j : Job) : State :=
  let g := j.image
  let s1 := j.la.foldl (fun t p =>
    powerDown t (Reg.MA_LSP_ON p.2) (lspBase p.2) 0x10000 (unusedMask g.lspUnused p.1 % 2 ^ 15)) s
  let s2 := powerDown s1 Reg.DMMU_SSP_ON sspBase 0x100000 (g.sspUnused % 2 ^ 48)
  (List.range 12).foldl (fun t d =>
    powerDown t (Reg.DSC_MEM_ON d) (dscBase d) 0x10000 (unusedMask g.dscUnused d % 2 ^ 16 / 2 * 2)) s2

/-- Set a LOADED job's units to their starting state. -/
def primeUnits (s : State) (j : Job) : State :=
  let s1 := j.la.foldl (fun t p => { t with arr := Tbl.set arrReset t.arr p.2 (Tbl.get arrReset t.arr p.2).emptied }.setRegN (Reg.MA_SPILL_CNT p.2) 0) s
  let s2 : State := { s1 with aeStage := [], aeDesc := [], editHeld := [], eguStage := [], aeEpoch := [], veXfers := [], unitSlot := [] }
  (s2.setRegN Reg.DMMU_EPOCH 1).setRegN Reg.DMMU_EPOCH_MIN 0xFFFFFFFF

/-- Every unit of the job runs that has neither ended nor runs already. DEDUCED, log entry 59. -/
def runUnits (s : State) (j : Job) : State :=
  let s1 := j.la.foldl (fun t p =>
    if t.flag (Fd.MA_STATUS_DONE p.2) then t else t.setFld (Fd.MA_STATUS_RUN p.2) 1) s
  let s2 := j.lv.foldl (fun t p =>
    if t.flag (Fd.VE_STATUS_DONE p.2) then t else t.setFld (Fd.VE_STATUS_RUN p.2) 1) s1
  let s4 := ((freeAes s2).take j.image.aeRings.length).foldl (fun t n => t.setFld (Fd.AE_STATUS_RUN n) 1) s2
  let s5 := (List.range j.image.eguRings.length).foldl (fun t n => t.setFld (Fd.EGU_STATUS_RUN n) 1) s4
  s5.setFld (Fd.JOB_STATE j.entry) 2

/-- The DSP cores of a job start at the beginning of their programs (R173). DEDUCED, log entry 59. -/
def runCores (s : State) (j : Job) : State :=
  j.image.cores.foldl (fun t p =>
    let n := 4 * p.1 + p.2 % 4
    let k := Tbl.get dspReset t.dsp n
    { t with dsp := Tbl.set dspReset t.dsp n { k with pc := 0, loops := [], sp := [] } }.setRegBit (Reg.DSC_STATUS p.1) (p.2 % 4) true) s

/-- The reference beat of JOB_START (R283): latched, and the signatures begin anew (R293). -/
def latchReference (s : State) (beat : Nat) : State :=
  let s1 := (s.setRegN Reg.DET_REF_BEAT beat).setFld Fd.DET_STATUS_REF_V 1
  (List.range 160).foldl (fun t i => t.setRegN (Reg.DET_XSIG i) 0) (s1.setRegN Reg.DET_TSIG 0)

/-- A start or a resume that waits for its reference beat: its command, by opcode. -/
def startPending (s : State) (j : Job) : Option Cmd :=
  s.cmds.find? (fun c => (c.opcode == 0x11 || c.opcode == 0x13) && c.phase == .executing && c.pkt.job.toNat == j.handle)

/-- Release a job's units and answer its JOB_START or JOB_RESUME (R283): none has latched a slot since (R275). -/
def releaseJob (s : State) (j : Job) (c : Cmd) (beat : Nat) : State :=
  let s1 := if c.opcode = 0x11 then (if s.det then latchReference s beat else s) else s
  let s2 := runUnits { s1 with slotFresh := [] } j
  okCmd (if c.opcode = 0x11 then runCores s2 j else s2) c

/-- The reference beat releases a waiting start or resume (R283). -/
def releasePending (s : State) (j : Job) (beat : Nat) : State :=
  match startPending s j with
  | some c => releaseJob s j c beat
  | none => s

/-- REFERENCE_BEAT of a job without carriers: the first beat after acceptance, whose beat the command holds (R283). A job with carriers starts at
the tick beat of its lowest carrier. -/
def referenceBeat (s : State) : State :=
  match s.owner with
  | none => s
  | some j =>
    match startPending s j with
    | some c => if s.det && j.carriers.isEmpty && decide (c.aux < s.regN Reg.DET_BEAT) then releasePending s j (c.aux + 1) else s
    | none => s

/-- An accepted start or resume: at once in throughput mode, else it waits for the reference beat and holds the beat of its acceptance. -/
def startOrWait (s : State) (j : Job) (c : Cmd) : State :=
  let b := s.regN Reg.DET_BEAT
  if s.det then setCmdAux s c b else releaseJob s j c b

/-- REFERENCE_BEAT (R283). -/
def execReferenceBeat (s : State) : Host.Outcome State Fault Refusal := up s referenceBeat

/-- A command that names a job and has no parameter: its job, in one of some states; else the refusal. -/
def jobInState (s : State) (c : Cmd) (states : List Nat) : Except Nat Job :=
  match unusedFrom c.pkt 0 with
  | some d => .error d
  | none => match s.job c.pkt.job.toNat with
    | none => .error 8
    | some j => if states.contains (s.jobState j) then .ok j else .error 8

/-- Does a carrier register name a carrier that the slot table does not name (R209)? -/
def tickSourceBad (s : State) (j : Job) : Bool :=
  !j.image.slotTable.isEmpty &&
    (!(j.carriers.contains (s.fld Fd.CAL_CTRL_TICK_SRC)) || !(j.carriers.contains (s.fld Fd.AE0_KV_TICK_SRC_CARRIER)))

/-- JOB_START (R208, R209, R225, R267): in throughput mode at once, else at the reference beat. After a return from Idle it
waits until every array has passed a year (R450). -/
def jobStartBody (c : Cmd) (s : State) : State :=
  match jobInState s c [1] with
  | .error d => refuse s c St.badParam d
  | .ok j =>
    if tickSourceBad s j then refuse s c St.badParam 8
    else if !(s.yearWait.isEmpty) then setCmdPhase s c .fetched
    else
      let s1 := powerDownUnused (primeUnits (initialSeason s j) j) j
      startOrWait s1 j c

/-- JOB_START (R267). -/
def execJobStart (p : Pkt) (s : State) : Host.Outcome State Fault Refusal := up s (hostCmd 0x11 p jobStartBody)

/-- JOB_RESUME (R270). -/
def jobResumeBody (c : Cmd) (s : State) : State :=
  match jobInState s c [3] with
  | .error d => refuse s c St.badParam d
  | .ok j => startOrWait s j c

/-- JOB_RESUME (R270). -/
def execJobResume (p : Pkt) (s : State) : Host.Outcome State Fault Refusal := up s (hostCmd 0x13 p jobResumeBody)

/-! ### Pausing (R268) -/

/-- JOB_PAUSE: without effect on a PAUSED job; else every unit stops at its next preemption point (R268). DEDUCED, log entry 46. -/
def jobPauseBody (c : Cmd) (s : State) : State :=
  match jobInState s c [2, 3] with
  | .error d => refuse s c St.badParam d
  | .ok j =>
    if s.jobState j = 3 then finishCmd s c St.ok 0 j.stopTime 0
    else pauseCheck (s.setJob { j with pausing := true }) j.handle

/-- JOB_PAUSE (R268). -/
def execJobPause (p : Pkt) (s : State) : Host.Outcome State Fault Refusal := up s (hostCmd 0x12 p jobPauseBody)

/-- PAUSE_DEADLINE: units that have not all stopped within the spacing plus 100 µs: the pause is cancelled (R268). -/
def pauseDeadline (s : State) : State :=
  match s.owner with
  | some j =>
    if j.pausing then
      finishWhere (runUnits (s.setJob { j with pausing := false }) j) 0x12 (fun c => c.pkt.job.toNat == j.handle)
        St.deadlineMissed 0 0 0
    else s
  | none => s

/-- PAUSE_DEADLINE (R268). -/
def execPauseDeadline (s : State) : Host.Outcome State Fault Refusal := up s pauseDeadline

/-! ### Saving and restoring (R14, R103, R269) -/

/-- Registers of an array that a job owns by logical number, by their offset in the block. -/
def arraySaved (r : Nat) : Bool :=
  [0x14, 0x18, 0x20].contains r || (decide (0x100 ≤ r) && decide (r < 0x140)) || (decide (0x1000 ≤ r) && decide (r < 0x2000)) ||
    (decide (0x3000 ≤ r) && decide (r < 0x3010)) || r == 0x3100 || r == 0x3104 || (decide (0x3120 ≤ r) && decide (r < 0x3160)) ||
    r == 0x3204 || r == 0x3208

/-- Registers of an engine that a job owns, the event counters among them (R134). -/
def engineSaved (r : Nat) : Bool :=
  [0x08, 0x10, 0x18].contains r || (decide (0x40 ≤ r) && decide (r < 0x68)) || (decide (0x100 ≤ r) && decide (r < 0x180)) ||
    decide (0x2000 ≤ r)

/-- Registers outside arrays and engines that a job owns: rings, tables, stream contexts, clusters, DMMU, season state. -/
def sharedSaved (o : Nat) : Bool :=
  (List.range 4).any (fun n => [Reg.EGU_RING_BASE n, Reg.EGU_RING_CFG n, Reg.EGU_RING_HEAD n].contains o) ||
  (decide (Reg.AE0_KV_BASE ≤ o) && decide (o < Reg.AE0_KV_TICK_SRC)) ||
  (decide (0x200000 ≤ o) && decide (o < 0x220000) && decide (0x100 ≤ o % 0x1000) && decide (o % 0x1000 < 0x200)) ||
  (List.range 12).any (fun d => [Reg.DSC_STATUS d, Reg.DSC_SBANK d, Reg.DSC_SSEASON d, Reg.DEC_LDPC_CFG d].contains o) ||
  [Reg.DMMU_TTB, Reg.DMMU_EPOCH, Reg.DMMU_RETIRING, Reg.DMMU_PINNED_N, Reg.DMMU_STATUS, Reg.DET_REF_BEAT, Reg.DET_STATUS,
   Reg.CAL_STATUS, Reg.CAL_SEASON, Reg.CAL_STAGED, Reg.CAL_LAST_CHANGE, Reg.CAL_ADAPT_STEP_NO, Reg.CAL_RETAINED, Reg.DET_TSIG].contains o ||
  (decide (Reg.DET_XSIG 0 ≤ o) && decide (o < Reg.DET_XSIG 160))

/-- Registers of an attention engine's ring, by their offset in its block. -/
def aeSaved (r : Nat) : Bool := [Reg.AE_RING_BASE 0, Reg.AE_RING_CFG 0, Reg.AE_RING_HEAD 0].contains (0x680000 + r)

/-- The logical offset of a register that a job owns, over the attention engines that serve it. -/
def logicalReg (j : Job) (aes : List Nat) (o : Nat) : Option Nat :=
  if 0x400000 ≤ o ∧ o < 0x580000 then
    ((j.la.find? (fun p => p.2 == (o - 0x400000) / 0x4000)).filter (fun _ => arraySaved (o % 0x4000))).map
      (fun p => 0x400000 + 0x4000 * p.1 + o % 0x4000)
  else if 0x600000 ≤ o ∧ o < 0x660000 then
    ((j.lv.find? (fun p => p.2 == (o - 0x600000) / 0x4000)).filter (fun _ => engineSaved (o % 0x4000))).map
      (fun p => 0x600000 + 0x4000 * p.1 + o % 0x4000)
  else if 0x680000 ≤ o ∧ o < 0x6A0000 ∧ aeSaved (o % 0x4000) = true then
    (aes.findIdx? (fun n => n == (o - 0x680000) / 0x4000)).map (fun k => 0x680000 + 0x4000 * k + o % 0x4000)
  else if sharedSaved o then some o else none

/-- The physical offset of a logical one under a mapping. -/
def physicalReg (j : Job) (aes : List Nat) (o : Nat) : Nat :=
  if 0x400000 ≤ o ∧ o < 0x580000 then 0x400000 + 0x4000 * (j.pa ((o - 0x400000) / 0x4000)).getD 0 + o % 0x4000
  else if 0x600000 ≤ o ∧ o < 0x660000 then
    0x600000 + 0x4000 * ((j.lv.find? (fun p => p.1 == (o - 0x600000) / 0x4000)).map (fun p => p.2)).getD 0 + o % 0x4000
  else if 0x680000 ≤ o ∧ o < 0x6A0000 ∧ aeSaved (o % 0x4000) = true then 0x680000 + 0x4000 * aes.getD ((o - 0x680000) / 0x4000) 0 + o % 0x4000
  else o

/-- The points at which a job's units stopped (R269). -/
def stoppedPoints (s : State) (j : Job) : List PrePoint :=
  j.la.filterMap (fun p => if s.flag (Fd.MA_STATUS_DONE p.2) then none else j.point true p.1 (s.fld (Fd.MA_SEQ_PPOINT_PC p.2))) ++
  j.lv.filterMap (fun p => if s.flag (Fd.VE_STATUS_DONE p.2) then none else j.point false p.1 (s.fld (Fd.VE_SEQ_PPOINT_PC p.2)))

/-- The address of a live range in a memory of a unit. -/
def liveAddr (j : Job) (space unit off : Nat) : Nat := if space = 4 then dscBase 0 + off else dataAddr j ⟨space, unit, off, []⟩

/-- The live ranges of a point, memory and bytes. -/
def savedMem (s : State) (j : Job) (p : PrePoint) : List (Nat × Nat × Nat × List Byte) :=
  (p.live.filter (fun r => r.1 != 3)).map (fun r => (r.1, p.unit, r.2.1, s.bytes (liveAddr j r.1 p.unit r.2.1) r.2.2))

/-- The live OAB entries of a point. -/
def savedOab (s : State) (j : Job) (p : PrePoint) : List (Nat × Word32) :=
  match j.pa p.unit with
  | some n => (p.live.filter (fun r => r.1 == 3)).flatMap (fun r =>
      (List.range r.2.2).map (fun k => (32768 * p.unit + r.2.1 + k, Tbl.get zeroWord32 s.oab (32768 * n + r.2.1 + k))))
  | none => []

/-- The season banks of a job's units by logical key: array LA, or 96 + cluster. -/
def savedBanks (s : State) (j : Job) : List Host.Cell :=
  let move (m : List Host.Cell) (u v len : Nat) : List Host.Cell :=
    let m1 := (s.banks.filter (fun p => decide (bankKey u 0 0 ≤ p.1) && decide (p.1 < bankKey u 0 0 + 2 ^ 19))).foldl
      (fun t p => Tbl.set zeroByte t (bankKey v 0 0 + (p.1 - bankKey u 0 0)) p.2) m
    if len = 0 then m else m1
  let m1 := j.la.foldl (fun m p => move m p.2 p.1 (winBytes s p.2)) []
  (List.range 12).foldl (fun m d => move m (96 + d) (96 + d) (s.fld (Fd.DSC_SWIN_LEN d))) m1

/-- The key of a unit's latched slot, by logical number; none for a unit that is not the job's. -/
def logicalSlotKey (j : Job) (k : Nat) : Option Nat :=
  if k < 96 then (j.la.find? (fun p => p.2 == k)).map (fun p => p.1)
  else if k < 120 then (j.lv.find? (fun p => p.2 == k - 96)).map (fun p => 96 + p.1)
  else some k

/-- The key of a logical unit's latched slot under a mapping. -/
def physicalSlotKey (j : Job) (k : Nat) : Nat :=
  if k < 96 then (j.pa k).getD 0
  else if k < 120 then 96 + ((j.lv.find? (fun p => p.1 == k - 96)).map (fun p => p.2)).getD 0
  else k

/-- What JOB_SAVE writes (R269). DESIGN CHOICE, log entry 39. -/
def saveJob (s : State) (j : Job) : SavedJob :=
  let ps := stoppedPoints s j
  { regs := s.regs.filterMap (fun p => (logicalReg j (freeAes s) p.1).map (fun o => (o, p.2)))
    mem := ps.flatMap (savedMem s j)
    oab := (ps.filter (fun p => p.seq)).flatMap (savedOab s j)
    banks := savedBanks s j
    arrs := j.la.map (fun p => (p.1, s.arrOf p.2))
    done := ((j.la.filter (fun p => s.flag (Fd.MA_STATUS_DONE p.2))).map (fun p => p.1)) ++
      ((j.lv.filter (fun p => s.flag (Fd.VE_STATUS_DONE p.2))).map (fun p => 96 + p.1))
    streams := s.streams, tb := s.tb.filter (fun t => t.pinned)
    kvFree := s.kvFree, kvPages := s.kvPages, kvRetiring := s.kvRetiring, kvActive := s.kvActive
    dsp := s.dsp.filter (fun p => decide (p.1 < 48)), fftExp := s.fftExp.filter (fun p => decide (p.1 < 12))
    aeStage := s.aeStage.filterMap (fun p => ((freeAes s).findIdx? (fun n => n == p.1)).map (fun k => (k, p.2)))
    eguStage := s.eguStage
    unitSlot := s.unitSlot.filterMap (fun p => (logicalSlotKey j p.1).map (fun k => (k, p.2)))
    seasonAt := s.seasonAt, comp := s.comp, candidate := s.candidate, shadowLeft := s.shadowLeft }

/-- Live bytes that a save writes. -/
def savedBytes (s : State) (j : Job) : Nat := ((stoppedPoints s j).map (fun p => (p.live.map liveBytes).sum)).sum

/-- The mark of a command that awaits the end of the SRAM clear. -/
@[reducible] def zeroMark : Nat := 1

/-- JOB_SAVE (R269): the reply waits for the SRAM clear. The manual lays the save area out nowhere: its bytes are free values.
DESIGN CHOICE, log entry 39. -/
def jobSaveBody (c : Cmd) (s : State) : State :=
  match jobInState s c [3] with
  | .error d => refuse s c St.badParam d
  | .ok j =>
    if 8 ≤ (s.jobs.filter (fun k => k.saved.isSome)).length then refuse s c St.queueFull 0
    else
      let n := savedBytes s j
      let (area, s0) := freeBytes s n
      let s1 := (s0.putBytes j.image.saveArea area).setJob { j with saved := some (saveJob s j), la := [], lv := [], reserve := [] }
      let s2 := (releaseUnits s1 j).setFld (Fd.JOB_STATE j.entry) 4
      setCmdAux (startZero s2) c (zeroMark + 2 * n)

/-- JOB_SAVE (R269). -/
def execJobSave (p : Pkt) (s : State) : Host.Outcome State Fault Refusal := up s (hostCmd 0x15 p jobSaveBody)

/-- Put back what a job's units held, on its new mapping: its registers take their saved values, and their reset values where none is saved. -/
def restoreUnits (s : State) (j : Job) (v : SavedJob) : State :=
  let kept : State := { s with regs := s.regs.filter (fun p => (logicalReg j (freeAes s) p.1).isNone) }
  let s1 := v.regs.foldl (fun t p => t.setReg (physicalReg j (freeAes s) p.1) p.2) kept
  let s2 := v.mem.foldl (fun t m => t.putBytes (liveAddr j m.1 m.2.1 m.2.2.1) m.2.2.2) s1
  let oab := v.oab.foldl (fun m p => Tbl.set zeroWord32 m (32768 * (j.pa (p.1 / 32768)).getD 0 + p.1 % 32768) p.2) s2.oab
  let banks := v.banks.foldl (fun m p =>
    let u := p.1 / 2 ^ 19
    Tbl.set zeroByte m (bankKey (if u < 96 then (j.pa u).getD 0 else u) 0 0 + p.1 % 2 ^ 19) p.2) s2.banks
  let s3 : State := { s2 with oab := oab, banks := banks }
  let s4 := v.arrs.foldl (fun t p => match j.pa p.1 with
    | some n => t.setArr n p.2
    | none => t) s3
  let s5 := v.done.foldl (fun t d =>
    if d < 96 then t.setFld (Fd.MA_STATUS_DONE ((j.pa d).getD 0)) 1
    else t.setFld (Fd.VE_STATUS_DONE (((j.lv.find? (fun p => p.1 == d - 96)).map (fun p => p.2)).getD 0)) 1) s4
  let s6 := v.unitSlot.foldl (fun t p => t.setSlotOf (physicalSlotKey j p.1) p.2) s5
  { s6 with streams := v.streams, tb := v.tb, kvFree := v.kvFree, kvPages := v.kvPages, kvRetiring := v.kvRetiring,
            kvActive := v.kvActive, aeStage := v.aeStage.foldl (fun m p => Tbl.set (fun _ => 0) m ((freeAes s).getD p.1 0) p.2) [], eguStage := v.eguStage, slotFresh := []
            dsp := v.dsp.foldl (fun m p => Tbl.set dspReset m p.1 p.2) (s6.dsp.filter (fun p => decide (48 ≤ p.1)))
            fftExp := v.fftExp.foldl (fun m p => Tbl.set (fun _ => 0) m p.1 p.2) (s6.fftExp.filter (fun p => decide (12 ≤ p.1)))
            seasonAt := v.seasonAt, comp := v.comp, candidate := v.candidate, shadowLeft := v.shadowLeft }

/-- The instruction memories of the clusters, which the job's image holds, are installed again. -/
def reinstallCores (s : State) (j : Job) : State :=
  (j.image.data.filter (fun d => d.space == 3 && decide (d.off < 0x10000))).foldl (fun t d => t.putBytes (dataAddr j d) d.bytes) s

/-- A saved job mapped afresh onto free units (R14, R267). -/
def remapJob (s : State) (j : Job) : Job :=
  let free := freeArrays s
  let n := j.image.seqProgs.length
  { j with la := mapUnits free n, lv := mapUnits (freeEngines s) j.image.veProgs.length,
           reserve := (free.drop n).take j.asked, fencedFrom := [], saved := none }

/-- JOB_RESTORE (R269): PAUSED, the owner of the compute; while SRAM is being zeroed it waits. DESIGN CHOICE, log entry 39. -/
def jobRestoreBody (c : Cmd) (s : State) : State :=
  match jobInState s c [4] with
  | .error d => if s.fld Fd.COMPUTE_OWNER ≠ 0 ∧ (unusedFrom c.pkt 0).isNone then refuse s c St.busy 0 else refuse s c St.badParam d
  | .ok j =>
    if s.fld Fd.COMPUTE_OWNER ≠ 0 then refuse s c St.busy 0
    else if s.flag Fd.BOOT_ZERO_SRAM_BUSY then setCmdPhase s c .fetched
    else match j.saved with
      | none => refuse s c St.badParam 8
      | some v =>
        if (freeArrays s).length < j.image.seqProgs.length ∨ (freeEngines s).length < j.image.veProgs.length then
          refuse s c St.badParam 8
        else
          let k := remapJob s j
          let s1 := mapJob (installDet (wakeBanks (s.setJob k)) k.image) k
          let s2 := restoreUnits (reinstallCores (powerDownUnused s1 k) k) k v
          let s3 := (bindCarriers s2 k (s2.jobPort k)).setFld (Fd.JOB_STATE k.entry) 3
          finishCmd (seasonRaise (s3.setFld Fd.COMPUTE_OWNER k.handle) (s.regN Reg.CAL_SEASON)) c St.ok 0 0 (BitVec.ofNat 64 k.reserve.length)

/-- JOB_RESTORE (R269). -/
def execJobRestore (p : Pkt) (s : State) : Host.Outcome State Fault Refusal := up s (hostCmd 0x16 p jobRestoreBody)

/-! ### Ending (R487) -/

/-- JOB_KILL (R487): the reply of a job that owned the compute waits for the SRAM clear. -/
def jobKillBody (c : Cmd) (s : State) : State :=
  match jobInState s c [1, 2, 3, 4] with
  | .error d => refuse s c St.badParam d
  | .ok j =>
    let s1 := loseCommands s j (some c)
    if s1.fld Fd.COMPUTE_OWNER = j.handle then setCmdAux (startZero (dropJob (releaseCompute s1 j) j)) c zeroMark
    else okCmd (dropJob (endSaved s1 j) j) c

/-- JOB_KILL (R487). -/
def execJobKill (p : Pkt) (s : State) : Host.Outcome State Fault Refusal := up s (hostCmd 0x14 p jobKillBody)

/-- The SRAM clear ends (R443): the replies that waited for it are posted. DEDUCED, log entry 104. -/
def zeroDone (s : State) : State :=
  let s1 := ((s.setFld Fd.BOOT_ZERO_SRAM_BUSY 0).setFld Fd.COMPUTE_ZEROING 0).setFld Fd.COMPUTE_RESETTING 0
  (s1.cmds.filter (fun c => (c.opcode == 0x14 || c.opcode == 0x15) && c.phase == .executing && c.aux % 2 == 1)).foldl
    (fun t c => finishCmd t c St.ok 0 (if c.opcode = 0x15 then BitVec.ofNat 64 (c.aux / 2) else 0) 0) s1

/-- SRAM_ZERO_COMPLETE (R443). -/
def execSramZeroComplete (s : State) : Host.Outcome State Fault Refusal :=
  up s (fun s => if s.flag Fd.BOOT_ZERO_SRAM_BUSY then zeroDone s else s)

/-- GRANULE_ZERO: the zero engine clears the first pending granule (R445); in Retain it stops (R451). -/
def execGranuleZero (s : State) : Host.Outcome State Fault Refusal :=
  up s (fun s => if s.fld Fd.PMU_STATE_STATE = 2 then s else match s.zeroing with
    | (a, b) :: rest => if a < b then clearGranule s a else { s with zeroing := rest }
    | [] => s)

end Sys2Proof.Machine
end

