-- ==== Sys2Proof/Machine/Slots.lean ====
section
/-! DEFINITION. Slot ticks (R28, R29, R262, R265, R299, R390): where a carrier's slots begin, what an entry's allocations may
ask for, the slot context, what happens at a tick; the release of code blocks (R31, R297, R298) and the slot reply with what
it delivers (R190, R262, R263). -/

namespace Sys2Proof.Machine

/-! ### Slot boundaries (R390) -/

/-- Start of slot j of a frame in units of 1 ÷ (30.72 MHz × 2^μ). -/
def slotStart (mu : Nat) (ecp : Bool) (j : Nat) : Nat :=
  if mu = 0 then j * 30720
  else
    let per := 2 ^ (mu - 1)
    let k := j % per
    j / per * 15360 * 2 ^ mu + (if k = 0 then 0 else if ecp then 12 * k * 2560 else 16 * 2 ^ mu + 14 * k * 2192)

/-- Has a position in the frame, in 2^-48 ns, reached the start of slot j? -/
def slotBegun (mu : Nat) (ecp : Bool) (pos j : Nat) : Bool :=
  decide (slotStart mu ecp j * 3125 * 2 ^ 48 ≤ pos * 96 * 2 ^ mu)

/-- One frame, 10 ms, in units of 2^-48 ns. -/
def frameUnits : Nat := 10000000 * 2 ^ 48

/-- The frame of carrier c at a device time, counted from 1,024 frames before time 0, and the position in it. -/
def frameAt (s : State) (c t : Nat) : Nat × Nat :=
  let x := t + 1024 * frameUnits - s.fld (Fd.TSU_CAR_OFFSET c) * 2 ^ 48
  (x / frameUnits, x % frameUnits)

/-- The slot of a frame that a position lies in. -/
def slotAt (s : State) (c pos : Nat) : Nat :=
  ((List.range (slotsPerFrame s c)).filter (slotBegun (s.fld (Fd.TSU_CAR_MU c)) (s.flag (Fd.TSU_CAR_ECP c)) pos)).length - 1

/-- The absolute slot of carrier c at a device time. -/
def absSlot (s : State) (c t : Nat) : Nat :=
  let (f, pos) := frameAt s c t
  f * slotsPerFrame s c + slotAt s c pos

/-- Twelfths of a REFCLK cycle in a beat: 125/4 or 125/3 cycles (R284). -/
def beatT (s : State) : Nat := if s.flag Fd.DET_CTRL_PLAN then 500 else 375

/-- The tick beat of a tick raised now: the smallest k with k × Q ≥ e + Q ÷ 8 (R284). DESIGN CHOICE, log entry 109. -/
def tickBeat (s : State) : Nat :=
  let e := 12 * (s.elapsed - s.originEdge)
  let q := beatT s
  (8 * e + q + 8 * q - 1) / (8 * q)

/-- The instant of a tick beat. -/
def beatInstant (s : State) (k : Nat) : Nat := 12 * s.originEdge + k * beatT s

/-! ### Allocations (R171, R195, Tables 7.1 to 7.3) -/

/-- Read an allocation record (Table 10.7a). -/
def allocRec (b : List Byte) : Alloc :=
  { type := leAt b 0 1, flags := leAt b 1 1, ue := leAt b 2 2 % 16384, prb0 := leAt b 4 2, nprb := leAt b 6 2
    sym0 := leAt b 8 1, nsym := leAt b 9 1, layer0 := leAt b 10 1 % 16, layers := leAt b 10 1 / 16 + 1, qm := leAt b 11 1
    dmrs := leAt b 12 4, tbs := leAt b 16 4, code := leAt b 20 1, harq := leAt b 21 1, format := leAt b 22 1
    softbuf := leAt b 24 8, dataVa := leAt b 32 8, precoderVa := leAt b 40 8, amp := leAt b 48 2, prg := leAt b 50 1 }

/-- Largest PRB count of a numerology (Table 7.1). -/
def maxPrb (mu : Nat) : Nat := [270, 273, 264, 264].getD mu 0

/-- Symbols of a slot. -/
def slotSymbols (s : State) (c : Nat) : Nat := if s.flag (Fd.TSU_CAR_ECP c) then 12 else 14

/-- Transform size of a carrier: the smallest power of two from 16 that holds its subcarriers. DEDUCED, log entry 66. -/
def transformSize (nprb : Nat) : Nat := ([16, 32, 64, 128, 256, 512, 1024, 2048].find? (fun n => decide (12 * nprb ≤ n))).getD 4096

/-- What `len` sample periods of a carrier last, in 2^-48 ns (R195, R401). -/
def rampSpan (s : State) (c len : Nat) : Nat :=
  len * (10 ^ 9 * 2 ^ 48) / (transformSize (s.fld (Fd.FHP0_CAR_CFG_NPRB c)) * 15000 * 2 ^ s.fld (Fd.TSU_CAR_MU c))

/-- Device time at which what an event of output n begins is over: the fall of an envelope lasts its ramp. -/
def txEnd (s : State) (n : Nat) (e : TxEdge) : Nat :=
  if e.kind = .paFall then e.time + rampSpan s (s.fld (Fd.TSU_TXON_CARRIER n)) e.len else e.time

/-- Cyclic prefix of a carrier in samples at its transform size: that of the symbols without the longer one. -/
def prefixLen (s : State) (c : Nat) : Nat :=
  let n := transformSize (s.fld (Fd.FHP0_CAR_CFG_NPRB c))
  if s.flag (Fd.TSU_CAR_ECP c) then n / 4 else n * 9 / 128

/-- Does a type of allocation use what Table 7.2 lists? -/
def channelOk (a : Alloc) (mu : Nat) : Bool :=
  let tp := bitOf a.flags 1
  match a.type with
  | 1 => (if tp then [1, 2, 4, 6, 8].contains a.qm && a.layers == 1 else [2, 4, 6, 8].contains a.qm) &&
      decide (a.layers ≤ 4) && decide (a.layer0 + a.layers ≤ 16)
  | 2 => (match a.format with
      | 0 | 2 => decide (a.nsym ≤ 2)
      | 1 | 3 | 4 => decide (4 ≤ a.nsym)
      | _ => false)
  | 3 => decide (a.format ≤ 12)
  | 4 => [1, 2, 4].contains a.layers
  | 5 => [2, 4, 6, 8, 10].contains a.qm && decide (a.layers ≤ 8) && decide (a.layer0 + a.layers ≤ 16)
  | 6 | 8 => true
  | 7 => mu != 2
  | _ => false

/-- Is an allocation within Tables 7.1 and 7.2, the carrier's PRBs, and its burst profile within the prefix (R171, R195)?.
DEDUCED, log entry 66. DEDUCED, log entry 67. -/
def allocOk (s : State) (c ramp : Nat) (a : Alloc) : Bool :=
  let mu := s.fld (Fd.TSU_CAR_MU c)
  let nprb := s.fld (Fd.FHP0_CAR_CFG_NPRB c)
  decide (nprb ≤ maxPrb mu) && decide (1 ≤ a.nprb) && decide (a.prb0 + a.nprb ≤ nprb) && decide (1 ≤ a.nsym) &&
    decide (a.sym0 + a.nsym ≤ slotSymbols s c) && channelOk a mu &&
    (!(bitOf a.flags 2) || decide (s.fld (Fd.DEC_RAMP_LEN ramp) ≤ prefixLen s c))

/-- Code blocks of a transport block of `tbs` bits (TS 38.212 clause 5.2.2, as R184 and R186 apply it). -/
def cbCount (tbs bg : Nat) : Nat :=
  let b := tbs + (if 3824 < tbs then 24 else 16)
  let kcb := if bg = 1 then 8448 else 3840
  if tbs = 0 then 0 else if b ≤ kcb then 1 else (b + kcb - 25) / (kcb - 24)

/-- Code blocks of an allocation: PUSCH carries those that SAF selects. -/
def allocCbs (a : Alloc) : Nat := if a.type = 1 then cbCount a.tbs (a.code % 2 + 1) else 0

/-- Mask of an allocation's layers. -/
def layerMask (a : Alloc) : Nat := (List.range a.layers).foldl (fun m k => m ||| 2 ^ (a.layer0 + k)) 0

/-- What the check of an entry's allocations keeps: the allocations, a dropped one of type 0, which is none; code blocks, allocations dropped, the first of them, whether the limit of
2,048 code blocks has been passed (R171, R299). -/
structure AllocScan where
  allocs : List Alloc
  cbs : List CodeBlock
  dropped : Nat
  first : Option Nat
  isOver : Bool

/-- One allocation of the check. DEDUCED, log entry 63. -/
def scanAlloc (s : State) (c ramp : Nat) (r : AllocScan) (p : Alloc × Nat) : AllocScan :=
  let n := allocCbs p.1
  let fits := decide (r.cbs.length + n ≤ 2048)
  let ok := !r.isOver && allocOk s c ramp p.1
  if ok && fits then
    { r with allocs := r.allocs ++ [p.1], cbs := r.cbs ++ (List.range n).map (fun k =>
      ⟨r.cbs.length + k, p.2, k, n, layerMask p.1, 0, 0, none, none, 0, none⟩) }
  else { r with allocs := r.allocs ++ [{ p.1 with type := 0 }], dropped := r.dropped + 1, first := some (r.first.getD p.2), isOver := r.isOver || (ok && !fits) }

/-! ### The configuration of a carrier (R28, R315) -/

/-- Is carrier c configured (R28)? -/
def configured (s : State) (c : Nat) : Bool := s.flag (Fd.TSU_CAR_V c) && s.flag (Fd.FHP0_CAR_CFG_V c)

/-- The fallback's antennas (R187): those that SAFETY_CONFIG names, else all, or every s-th for 16 of them. -/
def fallbackAntennas (s : State) (c : Nat) : List Nat :=
  match (s.safeCar c).antennas with
  | some l => l
  | none =>
    let a := s.fld (Fd.FHP0_CAR_CFG_NANT c)
    if a ≤ 16 then List.range a else (List.range 16).map (fun i => a / 16 * i)

/-- A carrier takes its new safety configuration; FB_OFF shows it (R315, R316). -/
def applySafeCar (s : State) (c : Nat) (x : SafeCar) (sups : List (Nat × Sup)) : State :=
  let cfg : SafeCfg := { s.safe with
    cars := Tbl.set (fun _ => safeCarInitial) s.safe.cars c x
    sups := s.safe.sups.filter (fun p => p.2.carrier != c) ++ sups }
  { s with safe := cfg, safeLate := s.safeLate.filter (fun p => p.1 != c) }.setRegBit Reg.SAF_STATUS (16 + c) (!x.fbEn)

/-- Every configured carrier has applied a configuration: the rest of it is in force, and its reply is posted (R315). -/
def safeDone (s : State) (p : SafePending) : State :=
  let cfg : SafeCfg := { s.safe with katInterval := p.cfg.katInterval, fbMaxIter := p.cfg.fbMaxIter }
  let s1 : State := { s with safe := cfg, safePend := none }
  let s2 := (List.range 4).foldl (fun t k => t.setFld (Fd.DEC_LDPC_CFG_MAX_ITER (12 + k)) p.cfg.fbMaxIter) s1
  let s3 := (List.zip [Reg.CAL_LIM_DC, Reg.CAL_LIM_IQ, Reg.CAL_LIM_GAIN, Reg.CAL_LIM_DC_RES, Reg.CAL_LIM_IQ_RES,
    Reg.CAL_LIM_GAIN_RES, Reg.CAL_LIM_ACT, Reg.CAL_RANGE_CLEAR] p.limits).foldl (fun t r => t.setRegN r.1 r.2) s2
  let s4 := s3.setRegN Reg.SAF_CFG_CRC p.crc
  finishWhere (if p.lock then s4.setFld Fd.SAF_STATUS_LOCKED 1 else s4) 0x58 (fun _ => true) St.ok 0 0 0

/-- A carrier no longer holds up a pending configuration. -/
def safePassed (s : State) (gone : Nat → Bool) : State :=
  match s.safePend with
  | none => s
  | some p =>
    let q := { p with carriers := p.carriers.filter (fun c => !(gone c)) }
    if q.carriers.isEmpty then safeDone s q else { s with safePend := some q }

/-- The safety configuration at a tick of carrier c (R315). DEDUCED, log entry 70. -/
def safeAtTick (s : State) (c : Nat) : State :=
  let s1 := match s.safeLate.find? (fun p => p.1 == c) with
    | some p => applySafeCar s c p.2.1 p.2.2
    | none => s
  safePassed s1 (fun k => k == c)

/-- FALLBACK_FORCE commands that await ticks; `aux` holds the carriers still to tick (R300). -/
def forcePending (s : State) : List Cmd := s.cmds.filter (fun c => c.opcode == 0x59 && c.phase == .executing)

/-- FALLBACK_FORCE takes effect as its reply is posted: slots that tick from now on (R300). -/
def forceDone (s : State) (c : Cmd) : State :=
  let mask := c.pkt.p0.toNat % 256
  let on := bitOf c.pkt.p0.toNat 8
  let f := s.fld Fd.SAF_STATUS_FORCED
  okCmd (s.setFld Fd.SAF_STATUS_FORCED (if on then f ||| mask else f &&& (255 - mask))) c

/-- Carriers leave the waits of FALLBACK_FORCE: they have ticked, or tick no longer. -/
def forcePassed (s : State) (gone : Nat → Bool) : State :=
  (forcePending s).foldl (fun t c =>
    let left := ((List.range 8).filter (fun k => bitOf c.aux k && !(gone k))).foldl (fun m k => m + 2 ^ k) 0
    let t1 := setCmdAux t c left
    if left = 0 then forceDone t1 { c with aux := 0 } else t1) s

/-- A carrier's V or CFG.V has changed: waits for the ticks of carriers that no longer tick, or are no longer configured, go
on without them (R300, R315). -/
def settleWaits (s : State) : State :=
  safePassed (forcePassed s (fun c => !(s.flag (Fd.TSU_CAR_V c)))) (fun c => !(configured s c))

/-! ### The tick (R29, R262, R265, R296, R299) -/

/-- SAF's entries in use by a carrier: its code blocks that are not released (R299). -/
def cbsInUse (s : State) (c : Nat) : Nat :=
  ((s.car c).slots.map (fun x => (x.cbs.filter (fun b => b.released.isNone)).length)).sum

/-- Show the entries in use. -/
def showCbs (s : State) : State := s.setRegN Reg.SAF_CB_IN_USE (((List.range 8).map (cbsInUse s)).sum)

/-- Arrays of a job that are doubtful on their known-answer tests (R29, R313). -/
def katDoubtful (s : State) (j : Job) : List Nat :=
  (j.la.map (fun p => p.2)).filter (fun n => s.regBit (Reg.SAF_ARRAY_DOUBT (n / 32)) (n % 32))

/-- The sources of doubt that a tick itself sets in every code block of a slot (Table 12.2). -/
def tickDoubt (s : State) (c : Nat) (job : Option Job) (late : Bool) : List Nat :=
  let owns := match job with
    | some j => s.fld Fd.COMPUTE_OWNER == j.handle
    | none => false
  let check := match job with
    | some j => s.checkJobs.contains j.handle
    | none => false
  let lost := match job with
    | some j => owns && decide (j.la.length < j.image.seqProgs.length)
    | none => false
  (if check then [1] else []) ++ (if s.regBit Reg.CAL_RANGE c then [4] else []) ++
    (if s.flag Fd.SUP_STATUS_HOLD then [6] else []) ++ (if lost then [7] else []) ++
    (if owns && s.flag Fd.CAL_STATUS_EXPELLED then [8] else []) ++ (if late then [9] else []) ++
    (if s.regBit Reg.SAF_STATUS (8 + c) then [11] else [])

/-- A code block released not decoded at once (R299): the table was full. -/
def dropCb (s : State) (b : CodeBlock) : State :=
  (List.range 13).foldl (fun t k => if bitOf b.doubt k then t.bump (Reg.SAF_DOUBT_CNT k) else t) (s.bump Reg.SAF_NOT_DECODED)

/-- SAF signals the slot objects of a carrier for its newest tick, in the season in force (R202): which slot each count stands for is kept
beside the object. -/
def signalSlot (s : State) (c : Nat) : State :=
  let k := s.car c
  k.objs.foldl (fun (t : State) o =>
    if signalOverflows t o.1 o.2 then signalObj t o.1 o.2 false
    else
      let old := Tbl.get (fun _ => []) t.slotSigs o.1
      let left := if objType t o.1 = 1 then old.drop (old.length - objValue t o.1) else []
      let q := left ++ List.replicate o.2 (c, k.ticks, t.regN Reg.CAL_SEASON)
      signalObj { t with slotSigs := Tbl.set (fun _ => []) t.slotSigs o.1 q } o.1 o.2 false) s

/-- The entry of a slot is latched: its context, its allocations, its doubt, its slot objects (R29, R262 step 4, R265).
DEDUCED, log entry 62. DEDUCED, log entry 63. -/
def latchEntry (s : State) (c : Nat) (h : EntryHdr) (abs t0 : Nat) : State :=
  let addr := slotEntryAddr s c (s.fld (Fd.SLOT_HEAD_INDEX c))
  let s1 := consumeEntry s c
  let r := if h.nalloc = 0 then ⟨[], false, false, s1⟩ else busRead s1 7 (addr + 64) (64 * h.nalloc)
  let k := s1.car c
  let job := s1.job k.job
  let running := match job with
    | some j => s1.jobState j == 2
    | none => false
  let late := !running || decide (2 ≤ s1.fld (Fd.SLOT_STATE_LEARNED c))
  let allocs := (List.range h.nalloc).map (fun i => allocRec ((r.bytes.drop (64 * i)).take 64))
  let scan := (allocs.zipIdx).foldl (scanAlloc s1 c h.ramp) ⟨[], [], 0, none, false⟩
  let full := decide (8192 < cbsInUse s1 c + 2048)
  let bits := tickDoubt s1 c job late
  let now := nowT s1
  let cbs := scan.cbs.map (fun b => bits.foldl (fun b i => b.mark i now) b)
  let season := s1.regN Reg.CAL_SEASON
  let sc := s1.safeCar c
  let x : SlotCtx :=
    { id := k.ticks, abs := abs, sfn := h.sfn, slot := h.slot, seq := h.seq, t0 := t0, season := season
      bank := season % 2, ramp := h.ramp, ul := h.ul, dl := h.dl, pshift := h.pshift, dtx := h.dtx, qrep := h.qrep
      allocs := scan.allocs, katDoubt := (job.map (katDoubtful s1)).getD [], fbLayers := sc.layers, fbEn := sc.fbEn
      configured := configured s1 c, ffdEn := sc.ffdEn, ffdAction := sc.ffdAction, late := late, learned := !late
      passed := [], radio := [], replied := false, dropped := scan.first, deadline := full
      cbs := if full then cbs.map (fun b => { b with released := some .notDecoded }) else cbs
      route := (k.port, k.queue, k.binding), fbAnts := fallbackAntennas s1 c, sups := s1.safe.sups.filter (fun p => p.2.carrier == c)
      supStart := [], supFinish := [], supStartEnd := [], supFinishEnd := [], due := dueOf s1 c (scan.allocs.filter (fun a => a.type != 0))
      recs := [], feSums := [], fbSums := [], prach := [], sects := [], uci := [], fbLlrs := [] }
  let s2 := (r.state.bumpBy Reg.DEC_ALLOC_BAD scan.dropped).setCar c { k with slots := k.slots ++ [x], out := k.out ++ [⟨k.ticks, none⟩] }
  let s3 := takeEarly (showCbs (if full then cbs.foldl dropCb s2 else s2)) c x.id abs
  if late then s3.bump (Reg.SLOT_LATE c)
  else signalSlot (s3.setFld (Fd.SLOT_STATE_LEARNED c) (s3.fld (Fd.SLOT_STATE_LEARNED c) + 1)) c

/-- A tick at which no entry is latched (R262): counted; the slot objects of a running job are signalled all the same, for the slot is not
late (R202). DEDUCED, log entry 63. -/
def tickEmpty (s : State) (c : Nat) : State :=
  let s1 := s.bump (Reg.SLOT_NOCFG c)
  match s1.job (s1.car c).job with
  | some j => if s1.jobState j == 2 then signalSlot s1 c else s1
  | none => s1

/-- The entries that a tick examines (R262): passed ones are consumed, the slot's own is latched; else NOCFG counts. -/
def examineRing : Nat → State → Nat → Nat → Nat → State
  | 0, s, c, _, _ => tickEmpty s c
  | fuel + 1, s, c, abs, t0 =>
    if 64 ≤ (s.car c).held.length then
      tickEmpty (s.setCar c { s.car c with blocked := true }) c
    else match peekEntry s c with
      | none => tickEmpty s c
      | some (h, s1) =>
        if entryStale s1 c h abs false then examineRing fuel (staleEntry s1 c h) c abs t0
        else if entryAhead s1 c h abs = 0 then latchEntry s1 c h abs t0
        else tickEmpty s1 c

/-- DET.TSIG takes a record of a tick of one of the job's carriers (R293). -/
def tickSignature (s : State) (c beat : Nat) : State :=
  match s.owner with
  | none => s
  | some j =>
    if s.det && j.carriers.contains c && s.flag Fd.DET_STATUS_REF_V then
      let rel := (beat + 2 ^ 32 - s.regN Reg.DET_REF_BEAT % 2 ^ 32) % 2 ^ 32
      let rec_ := leBytes 4 rel ++ leBytes 1 c ++ zeros 3
      s.setRegN Reg.DET_TSIG ((rec_.foldl crc32Byte (s.regN Reg.DET_TSIG ^^^ 0xFFFFFFFF)) ^^^ 0xFFFFFFFF)
    else s

/-- The reference beat of a waiting start or resume: the tick beat of a tick of the lowest carrier of the slot table
(R283). -/
def tickReference (s : State) (beat : Nat) : State :=
  match s.owner with
  | none => s
  | some j => releasePending s j beat

/-- Does a start or a resume wait for a tick of this carrier (R283)? -/
def tickAwaited (s : State) (c : Nat) : Bool :=
  match s.owner with
  | none => false
  | some j => s.det && j.carriers.min? == some c && (startPending s j).isSome

/-- Every sequence becomes inactive at the tick of the carrier named in KV_TICK_SRC (R140). -/
def tickSequences (s : State) (c : Nat) : State :=
  if s.fld Fd.AE0_KV_TICK_SRC_CARRIER = c then { s.setRegN Reg.AE0_KV_ACTIVE 0 with kvActive := [] } else s

/-- A stand-in whose list holds no wait begins it again at the tick of its job's lowest carrier (R340). -/
def restartStandIns (s : State) (c : Nat) : State :=
  match s.owner with
  | some j => if j.carriers.min? == some c then
      { s with standIns := s.standIns.map (fun x => if x.again ∧ x.left.isEmpty = true then { x with left := x.whole } else x) }
    else s
  | none => s

/-- The events of an output. -/
def txEvents (s : State) (n : Nat) : List TxEdge := Tbl.get (fun _ => []) s.txq n

/-- Set the events of an output. -/
def setTxEvents (s : State) (n : Nat) (q : List TxEdge) : State := { s with txq := Tbl.set (fun _ => []) s.txq n q }

/-- Is an event a falling edge? -/
def TxEdge.falls (e : TxEdge) : Bool := e.kind == .paFall || e.kind == .txonFall

/-- Where the burst that ends at `t` ends over the entries that go on from it. -/
def chainEnd (l : List DlSlot) (c : Nat) : Nat → Nat → Nat
  | 0, t => t
  | k + 1, t => match l.find? (fun d => d.carrier == c && d.t1 == t) with
    | some d => chainEnd l c k d.t2
    | none => t

/-- The burst profile at the slot tick (R194): a burst that begins in the slot takes its profile as it stands, and its events at the outputs
with it (R401); one that goes on keeps that of its first slot. -/
def latchBurst (s : State) (c abs : Nat) : State :=
  match s.dlSlots.find? (fun d => d.carrier == c && d.abs == abs) with
  | none => s
  | some d =>
    let before := s.dlSlots.find? (fun e => e.carrier == c && e.t2 == d.t1)
    let now := (s.fld (Fd.DEC_RAMP_LEN d.ramp), s.fld (Fd.DEC_RAMP_FLOOR d.ramp))
    let prof := ((before.map (fun e => e.prof)).getD none).getD now
    let s1 : State := { s with dlSlots := s.dlSlots.map (fun e => if e.carrier = c ∧ e.abs = abs then { e with prof := some prof } else e) }
    if before.isSome then s1
    else
      let t2 := chainEnd s.dlSlots c s.dlSlots.length d.t2
      (List.range 8).foldl (fun (t : State) n =>
        if t.flag (Fd.TSU_TXON_V n) && t.fld (Fd.TSU_TXON_CARRIER n) == c then
          let up_ := d.t1 - t.fld (Fd.TSU_TXON_LEAD n) * 8 * 2 ^ 48
          let down := t2 + t.fld (Fd.TSU_TXON_LAG n) * 8 * 2 ^ 48
          setTxEvents t n ((txEvents t n).map (fun e =>
            if (if e.falls then txEnd t n e == down else e.time == up_) then
              { e with len := prof.1, floor := prof.2, time := if e.kind = .paFall then down - rampSpan t c prof.1 else e.time }
            else e))
        else t) s1

/-- What a slot tick of carrier c does (R390), at once in throughput mode and at the tick beat in deterministic mode (R284): the pending commit (R207), the reference beat (R283), the safety configuration (R315);
then the ring is examined; FALLBACK_FORCE that waited for it is answered (R300). DEDUCED, log entry 62. -/
def tickWork (s : State) (p : TickPend) : State :=
  let c := p.carrier
  let k := s.car c
  let s1 := s.setCar c { k with ticks := k.ticks + 1 }
  let s2 := tickSignature (if p.starts then tickReference s1 p.beat else s1) c p.beat
  let s3 := safeAtTick (latchBurst (restartStandIns (tickSequences (commitAtTick s2 c) c) c) c p.abs) c
  forcePassed (examineRing 65 s3 c p.abs p.due) (fun k => k == c)

/-- Has a carrier reached a slot later than the last one that ticked (R390)? -/
def tickReached (s : State) (c : Nat) : Bool :=
  s.flag (Fd.TSU_CAR_V c) && (match (s.car c).lastAbs with
    | some last => decide (last < absSlot s c s.devTime)
    | none => true)

/-- A pending commit takes effect before the ticks of an instant at which the reference carrier ticks too: every slot whose tick falls at the
change instant latches the new season (R207). -/
def commitFirst (s : State) (sel : Nat → Bool) : State :=
  let r := s.fld Fd.CAL_CTRL_TICK_SRC
  if sel r then commitAtTick s r else s

/-- A slot tick is raised: its receive windows count from now; its effect comes at once, or in deterministic mode at the tick beat (R284,
R306). -/
def tickCarrier (s : State) (c abs : Nat) : State :=
  let s1 := noteTick (s.setCar c { s.car c with lastAbs := some abs }) c abs
  let k := tickBeat s1
  if s1.det then { s1 with tickPend := s1.tickPend ++ [⟨beatInstant s1 k, c, abs, k, tickAwaited s1 c⟩] }
  else tickWork (commitFirst s1 (tickReached s1)) ⟨nowT s1, c, abs, k, false⟩

/-- The ticks whose tick beat has come take effect, in the order of their beats and within a beat of their carriers (R284, R293). -/
def ticksDue (s : State) : State :=
  let due := (s.tickPend.filter (fun p => decide (p.due ≤ nowT s))).mergeSort (fun a b =>
    decide (a.due < b.due) || (a.due == b.due && decide (a.carrier ≤ b.carrier)))
  due.foldl (fun t p => tickWork (commitFirst t (fun r => due.any (fun q => q.due == p.due && q.carrier == r))) p) { s with tickPend := s.tickPend.filter (fun p => !(decide (p.due ≤ nowT s))) }

/-- SLOT_TICK: on a carrier that ticks, for a slot later than the last one that ticked (R390). -/
def slotTick (s : State) (c : Nat) : State :=
  let abs := absSlot s c s.devTime
  if tickReached s c then tickCarrier s c abs else s

/-- SLOT_TICK (R390). -/
def execSlotTick (carrier : Fin 8) (s : State) : Host.Outcome State Fault Refusal := up s (fun s => slotTick s carrier.val)

/-! ### Release (R30, R31, R296 to R298, R302) -/

/-- The verdicts of the sections that carry an allocation are in (R30). -/
def verdictsIn (x : SlotCtx) (a : Alloc) : Bool :=
  !(x.due.any (fun d => decide (a.sym0 ≤ d.2.2.1) && decide (d.2.2.1 < a.sym0 + a.nsym) &&
    decide (d.2.2.2.1 < a.prb0 + a.nprb) && decide (a.prb0 < d.2.2.2.1 + d.2.2.2.2)))

/-- The supervised tasks of the learned path on a code block's layers have met or passed their finish windows (R30). DEDUCED, log entry 69. -/
def windowsClosed (x : SlotCtx) (b : CodeBlock) : Bool :=
  (x.sups.filter (fun p => !p.2.safe && p.2.layers &&& b.layers != 0)).all (fun p =>
    x.supFinish.contains p.1 || x.supFinishEnd.contains p.1)

/-- The fallback task of a code block has passed its finish window (R298). DEDUCED, log entry 69. -/
def fallbackPassed (x : SlotCtx) (b : CodeBlock) : Bool :=
  x.sups.any (fun p => p.2.safe && p.2.layers &&& b.layers != 0 && x.supFinishEnd.contains p.1)

/-- The fallback's output missed its window and the learned one is not usable either (R298, Table 1.6). -/
def missedBoth (x : SlotCtx) (b : CodeBlock) : Bool :=
  fallbackPassed x b && b.fallback.isNone && (b.learned.isNone || bitOf b.doubt 2)

/-- Every layer of a code block lies in the fallback's set. -/
def inLayerSet (x : SlotCtx) (b : CodeBlock) : Bool :=
  (List.range 16).all (fun l => !(bitOf b.layers l) || x.fbLayers.contains l)

/-- Must a doubtful code block be released not decoded at once (R298)? -/
def neverDecodable (s : State) (x : SlotCtx) (b : CodeBlock) : Bool :=
  !(inLayerSet x b) || !x.fbEn || !x.configured || s.flag Fd.SAF_STATUS_FB_DOWN || (x.ffdAction && bitOf b.doubt 3)

/-- Does a queued pass of logical array `la` contribute to a code block of a slot with rows that have not drained (R30, R488)? -/
def passFeeds (s : State) (j : Job) (la : Nat) (p : Pass) (c id : Nat) (b : CodeBlock) : Bool :=
  match p.slot with
  | none => false
  | some (d, k) => (sameSlots s d k c).contains id && (match drawn j la p.pc p.next p.rows with
    | none => j.carriers.contains c
    | some es => es.any (fun e => e.carrier == c && drawNames e b))

/-- Every array pass that contributed to a code block has drained and been compared (R30). -/
def passesDrained (s : State) (c id : Nat) (b : CodeBlock) : Bool :=
  match s.owner with
  | none => true
  | some j => j.la.all (fun p => (s.arrOf p.2).passes.all (fun q => !(passFeeds s j p.1 q c id b)))

/-- What SAF can release of a code block now, and whether the slot then misses its deadline (R31, R297, R298). DESIGN CHOICE, log entry 68. -/
def releaseOf (s : State) (c : Nat) (x : SlotCtx) (b : CodeBlock) : Option (Release × Bool) :=
  if b.released.isSome then none
  else if b.doubt = 0 then
    if b.learned.isSome && verdictsIn x (x.allocs.getD b.alloc (allocRec [])) && windowsClosed x b && passesDrained s c x.id b then
      some (.learned, false)
    else none
  else if neverDecodable s x b then some (.notDecoded, missedBoth x b)
  else if b.fallback.isSome then some (.fallback, false)
  else if fallbackPassed x b then some (.notDecoded, missedBoth x b)
  else none

/-- Interruption of a fallback release in ns of elapsed time, rounded up (R302): 8 ns are 15 twelfths of a REFCLK cycle. -/
def interruption (s : State) (b : CodeBlock) : Nat := ((nowT s - max b.doubtAt b.fbAt) * 8 + 14) / 15

/-- Count a release. -/
def countRelease (s : State) (b : CodeBlock) (r : Release) : State :=
  match r with
  | .learned => s.bump Reg.SAF_LEARNED_REL
  | .notDecoded => dropCb s b
  | .fallback =>
    let s1 := (List.range 13).foldl (fun t k => if bitOf b.doubt k then t.bump (Reg.SAF_DOUBT_CNT k) else t) (s.bump Reg.SAF_FB_REL)
    s1.setRegN Reg.SAF_TAKEOVER_MAX (max (s1.regN Reg.SAF_TAKEOVER_MAX) (min (interruption s b) 0xFFFFFFFF))

/-- Release one code block of a slot, if it can be released. -/
def releaseCb (s : State) (c id num : Nat) : State :=
  match s.slotCtx c id with
  | none => s
  | some x => match x.cbs.find? (fun b => b.num == num) with
    | none => s
    | some b => match releaseOf s c x b with
      | none => s
      | some (r, missed) =>
        let cbs := x.cbs.map (fun k => if k.num = num then { k with released := some r } else k)
        showCbs (countRelease (s.setSlotCtx c { x with cbs := cbs, deadline := x.deadline || missed }) b r)

/-- CODE_BLOCK_RELEASE (R31): carrier, number of the slot's tick on it, code block. DESIGN CHOICE, log entry 68. -/
def execCodeBlockRelease (carrier : Fin 8) (tick : BitVec 32) (cb : Fin 2048) (s : State) : Host.Outcome State Fault Refusal :=
  up s (fun s => releaseCb s carrier.val tick.toNat cb.val)

/-! ### Outputs and marks that arrive at SAF -/

/-- An output arrives for a code block: held, or discarded and counted after its release (R31, R297). -/
def cbOutput (s : State) (c id num : Nat) (fallback : Bool) (o : CbOut) : State :=
  match s.slotCtx c id with
  | none => s.bump Reg.SAF_LATE_DISCARD
  | some x => match x.cbs.find? (fun b => b.num == num) with
    | none => s
    | some b =>
      if b.released.isSome then s.bump Reg.SAF_LATE_DISCARD
      else
        let now := nowT s
        let b1 := if fallback then { b with fallback := some o, fbAt := now } else { b with learned := some o }
        let b2 := if !fallback && !o.crcOk && decide (1 < b.ofTb) then b1.mark 12 now else b1
        s.setSlotCtx c { x with cbs := x.cbs.map (fun k => if k.num = num then b2 else k) }

/-! ### Slot replies and what they deliver (R190, R262, R263) -/

/-- Bits as bytes, the first bit of each the most significant. -/
def packBits : Nat → List Bool → List Byte
  | 0, _ => []
  | n + 1, bs => BitVec.ofNat 8 ((bs.take 8 ++ List.replicate (8 - min 8 bs.length) false).foldl (fun a b => 2 * a + b2n b) 0) ::
      packBits n (bs.drop 8)

/-- `n` free bits (DESIGN CHOICE, log entry 2). DESIGN CHOICE, log entry 64. -/
def freeBits (s : State) (n : Nat) : List Bool × State :=
  let (bs, t) := freeBytes s ((n + 7) / 8)
  ((bs.flatMap (fun b => (List.range 8).map (fun k => bitOf b.toNat k))).take n, t)

/-- The output that SAF released for a code block. -/
def CodeBlock.output (b : CodeBlock) : Option CbOut :=
  match b.released with
  | some .learned => b.learned
  | some .fallback => b.fallback
  | _ => none

/-- Bits of the transport block with its CRC that code block k of n carries: the first ones one bit more where n does not
divide them. -/
def cbShare (total n k : Nat) : Nat := total / n + b2n (decide (k < total % n))

/-- A transport block of an allocation over its released code blocks (R31): its bits, undecoded ones free; the CRC of a block
that is a transport block by itself counts for its decoder here (R184). DESIGN CHOICE, log entry 64. -/
def assembleTb (s : State) (x : SlotCtx) (i : Nat) (a : Alloc) : List Bool × State :=
  let bl := x.cbs.filter (fun b => b.alloc == i)
  let total := a.tbs + (if 3824 < a.tbs then 24 else 16)
  bl.foldl (fun (r : List Bool × State) b => match b.output with
    | some o =>
      let t := if b.ofTb = 1 ∧ o.crcOk = false then r.2.bump (Reg.DEC_LDPC_CB_CRC_FAIL o.dec) else r.2
      (r.1 ++ o.bits, t)
    | none =>
      let (bs, t) := freeBits r.2 (cbShare total b.ofTb b.inTb)
      (r.1 ++ bs, t)) ([], s)

/-- Deliver the transport block of an allocation at its DATA address. DESIGN CHOICE, log entry 64. -/
def deliverTb (s : State) (x : SlotCtx) (i : Nat) (a : Alloc) : State :=
  let (bits, s1) := assembleTb s x i a
  (virtWrite s1 34 a.dataVa (packBits ((a.tbs + 7) / 8) (bits.take a.tbs))).state

/-- The UEs with a PUSCH allocation that was kept, in order of their first. -/
def slotUes (x : SlotCtx) : List Nat := ((x.allocs.filter (fun a => a.type == 1)).map (fun a => a.ue)).eraseDups

/-- A ratio in units of 0.25 dB (R191): rne(40 log10(a ÷ b)) within -128 … 256 is -128 and one for each odd number of 0.125 dB that the
ratio reaches; no ratio of whole numbers stands at one. -/
def ratioLevel (a b : Nat) : Int :=
  -128 + (((List.range 384).filter (fun i =>
    if 128 ≤ i then decide (10 ^ (2 * i - 255) * b ^ 80 ≤ a ^ 80) else decide (b ^ 80 ≤ 10 ^ (255 - 2 * i) * a ^ 80))).length : Nat)

/-- A quality level from two sums (R191): N = 0 gives 256, S = 0 is not measured. DEDUCED, log entry 65. -/
def qualityLevel (a b : Nat) : Nat := if a = 0 then 0x8000 else if b = 0 then 256 else wrapN 16 (ratioLevel a b)

/-- EVM_FB from the sums of |z − d|² and |d|² (R191): no error gives -128, no data element is not measured. DEDUCED, log entry 65. -/
def evmLevel (a b : Nat) : Nat := if b = 0 then 0x8000 else if a = 0 then wrapN 16 (-128) else wrapN 16 (ratioLevel a b)

/-- The quality record of a UE (Table 7.8). DEDUCED, log entry 65. -/
def qualityRecord (c : Nat) (x : SlotCtx) (ue : Nat) : List Byte :=
  let mine (b : CodeBlock) : Bool := (x.allocs.getD b.alloc (allocRec [])).ue == ue
  let bl := x.cbs.filter mine
  let fb := (bl.filter (fun b => b.released == some .fallback)).length
  let outs := bl.filterMap (fun b => b.output)
  let own (i : Nat) : Bool := (x.allocs.getD i (allocRec [])).type == 1 && (x.allocs.getD i (allocRec [])).ue == ue
  let ms := (x.fbSums.filter (fun l => own l.1)).map (fun l => l.2)
  let lv : Nat × Nat := if ms.isEmpty then (0x8000, 0x8000) else
    (qualityLevel ((ms.map (fun m => m.1.1)).sum) ((ms.map (fun m => m.1.2)).sum),
     evmLevel ((ms.map (fun m => m.2.1)).sum) ((ms.map (fun m => m.2.2)).sum))
  let fe := (x.feSums.filter (fun l => own l.1)).map (fun l => l.2)
  let outside := (x.allocs.filter (fun a => a.type == 1 && a.ue == ue)).all (fun a =>
    (List.range 16).any (fun l => bitOf (layerMask a) l && !(x.fbLayers.contains l)))
  let it := if outs.isEmpty then 0 else
    let n := outs.length
    let v := 16 * (outs.map (fun o => o.iters)).sum
    let q := v / n
    let r := v % n
    q + b2n (decide (n < 2 * r) || (decide (n = 2 * r) && q % 2 == 1))
  leBytes 4 (ue + c * 2 ^ 14 + b2n (decide (0 < fb)) * 2 ^ 17) ++ leBytes 4 (x.sfn + x.slot * 1024) ++
    leBytes 2 (qualityLevel ((fe.map (fun m => m.1)).sum) ((fe.map (fun m => m.2)).sum)) ++
    leBytes 2 (if outside then 0x8000 else lv.1) ++ leBytes 2 (if outside then 0x8000 else lv.2) ++ leBytes 2 bl.length ++
    leBytes 2 fb ++ leBytes 2 (outs.filter (fun o => !o.crcOk)).length ++ leBytes 2 it ++ zeros 10

/-- Write a slot's transport blocks and quality records (R190, R262). -/
def deliverSlot (s : State) (c : Nat) (x : SlotCtx) : State :=
  let kept := (x.allocs.zipIdx).filter (fun p => x.cbs.any (fun b => b.alloc == p.2))
  let s1 := kept.foldl (fun t p => deliverTb t x p.2 p.1) s
  ((slotUes x).zipIdx).foldl (fun t u => (virtWrite t 34 (x.qrep + 32 * u.2) (qualityRecord c x u.1)).state) s1

/-- STATUS, RESULT0 and RESULT1 of a slot reply (R263). -/
def slotResult (x : SlotCtx) : Nat × Word × Word :=
  let fb := (x.cbs.filter (fun b => b.released == some .fallback)).length
  let nd := x.cbs.any (fun b => b.released == some .notDecoded)
  let fall := x.late || decide (0 < fb) || nd
  let st := if x.deadline then St.deadlineMissed else if x.dropped.isSome then St.badParam
    else if fall then St.fallbackActive else St.ok
  (st, BitVec.ofNat 64 (x.sfn + x.slot * 1024 + (x.dropped.getD 0) * 2 ^ 24 + x.cbs.length * 2 ^ 32 + fb * 2 ^ 48),
   BitVec.ofNat 64 (b2n x.late + b2n x.deadline * 2 + b2n x.dropped.isSome * 4 + b2n fall * 8 + b2n nd * 16))

/-- A slot without last synchronisation points leaves the learned path with its reply (R265). -/
def endsWithReply (s : State) (c : Nat) : Bool :=
  match s.owner with
  | some j => match j.image.slotTable.find? (fun b => b.carrier.val == c) with
    | some b => b.last.isEmpty
    | none => true
  | none => true

/-- The reply of a slot whose code blocks have all been released is ready. -/
def replySlot (s : State) (c : Nat) (x : SlotCtx) : State :=
  let s1 := deliverSlot (slotMeasured s c x) c x
  let k := s1.car c
  let (st, r0, r1) := slotResult x
  let r := slotReply x.route c st x.seq r0 r1
  let out := k.out.map (fun o => if o.id = x.id ∧ o.ready.isNone then { o with ready := some r } else o)
  let y := { x with replied := true }
  let s2 := (s1.setCar c { k with out := out }).setSlotCtx c y
  let s3 := if x.learned && !(endsWithReply s2 c) then s2 else endLearned s2 c y
  flushSlots s3 c

/-- SLOT_REPLY: the oldest slot of a carrier whose reply is not ready, once SAF has released its last code block (R262). -/
def slotReplyOf (s : State) (c : Nat) : State :=
  match (s.car c).out.find? (fun o => o.ready.isNone) with
  | none => s
  | some o => match s.slotCtx c o.id with
    | none => s
    | some x => if x.cbs.all (fun b => b.released.isSome) then replySlot s c x else s

/-- SLOT_REPLY (R262). -/
def execSlotReply (carrier : Fin 8) (s : State) : Host.Outcome State Fault Refusal := up s (fun s => slotReplyOf s carrier.val)

end Sys2Proof.Machine
end

