-- ==== Sys2Proof/Machine/Kat.lean ====
section
/-! DEFINITION. Known-answer tests, decisions and fencing (R313, R328 to R342): slices, KAT_RUN, the outcomes of Tables 13.2
and R335, R336, FENCE_UNIT and UNFENCE_UNIT, the move of a logical array, its stand-in. -/

namespace Sys2Proof.Machine

/-! ### Units -/

/-- Usable instances of a unit kind: of FENCE_UNIT (Table 13.3), array, checksum path, engine, AE, DSC, LDPC; of Table 13.1 alone, POL, LENC,
SDE, EGU. -/
def unitCount (kind : Nat) : Nat := [96, 96, 24, 8, 12, 12, 4, 8, 32, 4].getD kind 0

/-- The sets of Table 13.1 with content for a unit that is neither array nor engine. -/
def yearSets (kind : Nat) : Nat :=
  match kind with
  | 3 => 2 ^ 4 + 2 ^ 5
  | 4 => 2 ^ 6 + 2 ^ 8
  | 5 | 6 => 2 ^ 9
  | 7 => 2 ^ 10
  | _ => 2 ^ 11

/-- Key of a unit's year since its fence: a checksum path shares its array's. -/
def yearKey (kind inst : Nat) : Nat := 256 * inst + (if kind = 1 then 0 else kind)

/-- The register and bit that show a unit's fence. -/
def fenceBit (kind inst : Nat) : Nat × Nat :=
  match kind with
  | 0 => (Reg.KAT_FENCED (inst / 32), inst % 32)
  | 1 => (Reg.MA_STATUS inst, 6)
  | 2 => (Reg.KAT_FENCED_VE, inst)
  | 3 => (Reg.KAT_FENCED_OTHER, inst)
  | 4 => (Reg.KAT_FENCED_OTHER, 8 + inst)
  | _ => (Reg.KAT_FENCED_OTHER, 20 + inst)

/-- Is a unit fenced? -/
def unitFenced (s : State) (kind inst : Nat) : Bool := s.regBit (fenceBit kind inst).1 (fenceBit kind inst).2

/-- Begin a year anew at a fence: passes count from KAT_RUN commands issued from now on (R331). DESIGN CHOICE, log entry 73. -/
def yearAnew (s : State) (kind inst : Nat) : State :=
  let s1 : State := { s with
    fenceYear := Tbl.set (fun _ => 0) s.fenceYear (yearKey kind inst) 0
    cmds := s.cmds.map (fun c => if c.opcode = 0x50 ∧ c.phase = .executing ∧
      yearKey (c.pkt.p1.toNat % 256) (c.pkt.p1.toNat / 256 % 256) = yearKey kind inst ∧ c.aux < 2 ^ 24 then
        { c with aux := c.aux + 2 ^ 24 } else c) }
  if kind ≤ 1 then s1.setFld (Fd.KAT_ARRAY_YEAR_OK inst) 0
  else if kind = 2 then s1.setFld (Fd.KAT_VE_YEAR_OK inst) 0 else s1

/-! ### Decisions (R332 to R337) -/

/-- The open decision of a unit. -/
def State.decision (s : State) (ve : Bool) (n : Nat) : Option Decision := s.decisions.find? (fun d => d.ve == ve && d.unit == n)

/-- Replace an open decision. -/
def setDecision (s : State) (d : Decision) : State :=
  { s with decisions := s.decisions.map (fun e => if e.ve = d.ve ∧ e.unit = d.unit then d else e) }

/-- Close a decision with an outcome: 1 transient, 2 checker fault, 3 array or engine fault, 4 abandoned; recorded and
counted (R333, Table 13.6). -/
def closeDecision (s : State) (d : Decision) (outcome adj : Nat) : State :=
  let s1 : State := { s with decisions := s.decisions.filter (fun e => !(e.ve == d.ve && e.unit == d.unit)) }
  let s2 := if d.ve then s1.setFld (Fd.KAT_VE_DECISION d.unit) 0
    else showDoubt ((s1.setFld (Fd.KAT_ARRAY_DECISION d.unit) 0).setFld (Fd.KAT_ARRAY_FAILED d.unit) 0) d.unit
  let s3 := raiseShared (s2.log 0x07 9 0x130000 d.unit (outcome + 256 * adj)) 283
  match outcome with
  | 1 => s3.bump Reg.KAT_TRANSIENT
  | 2 => s3.bump Reg.KAT_CHECKER_FAULTS
  | 3 => s3.bump Reg.KAT_ARRAY_FAULTS
  | _ => s3

/-! ### The move of a logical array (R339, R340) -/

/-- Redirect the leaf entries of a page table that map the LSP of array n to array m (R339 step 5). -/
def remapTable (n m : Nat) : Nat → State → Nat → State
  | 0, s, _ => s
  | lvl + 1, s, table => (List.range 512).foldl (fun t i =>
      let a := table + 8 * i
      let e := t.leMem a 8
      if !(bitOf e 0) then t
      else if bitOf e 1 then remapTable n m lvl t (bitsOf e 39 12 * 4096)
      else
        let f := bitsOf e 39 12 * 4096
        if !(bitOf e 5) && decide (lspBase n ≤ f) && decide (f < lspBase (n + 1)) then
          t.putBytes a (leBytes 8 (e - f + (f - lspBase n + lspBase m)))
        else t) s

/-- The DMMU serves the LSP of array m for that of array n: table entries, buffered translations, one epoch on (R236). -/
def remapLsp (s : State) (n m : Nat) : State :=
  let s1 := remapTable n m 4 s (s.fld Fd.DMMU_TTB_ADDR * 4096)
  let move (e : Word) : Word :=
    let f := fieldGet e 39 12 * 4096
    if !(bitOf e.toNat 5) && decide (lspBase n ≤ f) && decide (f < lspBase (n + 1)) then
      BitVec.ofNat 64 (e.toNat - f + (f - lspBase n + lspBase m))
    else e
  let tb := s1.tb.map (fun t => { t with entry := move t.entry })
  (takeEpoch { s1 with tb := tb }).2

/-- Release list of an array's slot point, each object as often as its count. -/
def releaseList (p : PrePoint) : List (Nat × Bool) := p.release.flatMap (fun r => List.replicate r.2.1 (r.1, r.2.2))

/-- A list without the operations already issued. -/
def withoutIssued : List (Nat × Bool) → List Nat → List (Nat × Bool)
  | [], _ => []
  | r :: rest, issued => if issued.contains r.1 then withoutIssued rest (issued.erase r.1) else r :: withoutIssued rest issued

/-- The slot point of a logical array whose list its stand-in performs: the last one passed, else its first. -/
def standInPoint (j : Job) (la : Nat) (a : Arr) : Option PrePoint :=
  match a.snap with
  | some p => j.point true la p.pc
  | none => j.image.points.find? (fun p => p.seq && p.unit == la && p.slot)

/-- Has an array not begun an iteration since its last slot point: it waits for a slot, or none has come to it? -/
def iterationUnbegun (s : State) (n : Nat) : Bool :=
  s.waiters.any (fun w => w.agent == seqAgent n && (slotObject s w.obj).isSome) ||
    !((s.arrOf n).sinceSlot.any (fun o => (slotObject s o).isSome))

/-- Start the stand-in of a fenced array (R339 step 2): a wait that the array had begun is its own now. Of an iteration that has not begun it
performs nothing: the reserve takes that slot. -/
def startStandIn (s : State) (j : Job) (la n : Nat) (again : Bool) : State :=
  let a := s.arrOf n
  if iterationUnbegun s n then
    let t : State := { s with waiters := s.waiters.filter (fun w => w.agent != seqAgent n) }
    if again then { t with standIns := t.standIns ++ [⟨la, [], ((standInPoint j la a).map releaseList).getD [], true⟩] } else t
  else
  let whole := ((standInPoint j la a).map releaseList).getD []
  let s1 := s.setSlotOf (agentSlotKey (.standIn la)) (s.slotOf n)
  { s1 with
    slotFresh := if s1.slotFresh.contains n then agentSlotKey (.standIn la) :: s1.slotFresh else s1.slotFresh
    standIns := s1.standIns ++ [⟨la, withoutIssued whole a.sinceSlot.reverse, whole, again⟩]
    waiters := s1.waiters.map (fun w => if w.agent = seqAgent n then { w with agent := .standIn la } else w) }

/-- One operation of a stand-in that does not wait: the next signal or wait of its list (R339, R340). DESIGN CHOICE, log entry 72. -/
def standInStep (s : State) (x : StandIn) : State :=
  if waits s (.standIn x.la) then s
  else
    let left := if x.left.isEmpty ∧ x.again = true ∧ x.whole.any (fun r => r.2) = true then x.whole else x.left
    match left with
    | [] => if x.again then s else { s with standIns := s.standIns.filter (fun y => y.la != x.la) }
    | (o, w) :: rest =>
      let s1 : State := { s with standIns := s.standIns.map (fun y => if y.la = x.la then { y with left := rest } else y) }
      if objType s1 o = 0 then s1
      else if w then waitObj s1 (.standIn x.la) o else unitSignal s1 (.standIn x.la) o 1 false

/-- Every stand-in takes its next operation. DESIGN CHOICE, log entry 72. -/
def runStandIns (s : State) : State := s.standIns.foldl standInStep s

/-- Copy what an array holds to the reserve array, and start it at the slot point (R339 steps 3, 4 and 6). -/
def copyArray (s : State) (la n m : Nat) : State :=
  let win := (s.fld (Fd.MA_SWIN_BASE n), s.fld (Fd.MA_SWIN_LEN n))
  let s1 := mapArray s la m win
  let a := s1.arrOf n
  let oab0 := tblCopy zeroWord32 s1.oab (32768 * n) (32768 * m) statsBase
  let prog := tblCopy regReset s1.regs (Reg.MA_PROG n 0) (Reg.MA_PROG m 0) 0x1000
  let dq := tblCopy regReset prog (0x400000 + 0x4000 * n + 0x3000) (0x400000 + 0x4000 * m + 0x3000) 0x10
  let s2 : State := { s1 with
    mem := tblCopy zeroByte s1.mem (lspBase n) (lspBase m) 0xF0000
    oab := Tbl.clearRange oab0 (32768 * m + statsBase) (32768 * (m + 1))
    banks := tblCopy zeroByte s1.banks (bankKey n 0 0) (bankKey m 0 0) (2 ^ 19)
    regs := dq }
  let s3 := (s2.setReg (Reg.MA_SBANK m) (s2.reg (Reg.MA_SBANK n))).setReg (Reg.MA_SSEASON m) (s2.reg (Reg.MA_SSEASON n))
  let s4 := match a.snap with
    | some p => (p.regs.foldl (fun (t : State) (r : Nat × Word) => t.setReg (r.1 - 0x4000 * n + 0x4000 * m) r.2) s3).setRegN (Reg.MA_SEQ_PC m) p.pc
    | none => s3
  let s5 := s4.setArr m { (s4.arrOf m).emptied with snap := a.snap }
  let done := s5.fld (Fd.MA_STATUS_DONE n)
  ((s5.setFld (Fd.MA_STATUS_DONE m) done).setFld (Fd.MA_STATUS_RUN m) (s5.fld (Fd.MA_STATUS_RUN n))).setFld (Fd.MA_STATUS_FROZEN m)
    (s5.fld Fd.SUP_STATUS_HOLD)

/-- An adaptation step in progress is abandoned (R215, R339). -/
def abandonAdapt (s : State) : State := finishWhere s 0x32 (fun _ => true) St.deadlineMissed 0 0 0

/-- Addresses of the PASS instructions that an array's current iteration may still issue: none where it has not begun a slot since its slot
point. DEDUCED, log entry 42. -/
def passesAhead (s : State) (j : Job) (la n : Nat) : List Nat :=
  let a := s.arrOf n
  if iterationUnbegun s n && a.snap.isSome then []
  else
    let prog := j.image.seqProgs.getD la []
    let seen := seqReach prog (fun k => a.snap.map (fun p => p.pc) != some k) 4096 [s.regN (Reg.MA_SEQ_PC n)] []
    (passPlaces j.image la).filter (fun p => seen.contains p)

/-- FENCE for the lost passes of array PA n (Table 12.2, R339): the rows of its queued passes that have not drained, and the passes that its
iteration has not issued. -/
def markLost (s : State) (j : Job) (la n : Nat) : State :=
  let s1 := (s.arrOf n).passes.foldl (fun t p => markRows t j la p.slot p.pc p.next p.rows 7) s
  (passesAhead s j la n).foldl (fun t pc =>
    let hi := ((j.image.draws.filter (fun d => d.la == la && d.pc == pc)).map (fun d => d.rowHi + 1)).foldl max 1
    markRows t j la (s.slotOf n) pc 0 hi 7) s1

/-- The logical array of a fenced array moves to the reserve pool's lowest array, or has no array any more (R339, R340). -/
def moveArray (s : State) (j : Job) (la n : Nat) : State :=
  let s1 := markLost s j la n
  match j.reserve with
  | m :: rest =>
    let s2 := startStandIn s1 j la n false
    let s3 := remapLsp (copyArray s2 la n m) n m
    let k := { j with la := j.la.map (fun p => if p.1 = la then (la, m) else p), reserve := rest, fencedFrom := n :: j.fencedFrom }
    abandonAdapt (unmapArray (s3.setJob k) n)
  | [] =>
    let s2 := markJobCarriers (startStandIn s1 j la n true) j 7
    let k := { j with la := j.la.filter (fun p => p.1 != la), fencedFrom := n :: j.fencedFrom }
    abandonAdapt (unmapArray (s2.setJob k) n)

/-! ### Fencing (R338) -/

/-- Fence array PA n; cause 0 command, 1 decision. -/
def fenceArray (s : State) (n cause : Nat) : State :=
  let s1 := match s.decision false n with
    | some d => closeDecision s d 4 0xFF
    | none => s
  let s2 := (raiseShared (s1.setFld (Fd.MA_STATUS_FENCED n) 1) (128 + n)).setRegBit (Reg.KAT_FENCED (n / 32)) (n % 32) true
  let s3 := showDoubt ((s2.setFld (Fd.KAT_ARRAY_FAILED n) 0).setFld (Fd.KAT_ARRAY_KAT_OVERDUE n) 0) n
  let s4 := logFence (capChanged (yearAnew s3 0 n)) 0 n cause true
  match s4.arrayJob n with
  | some (j, la) => moveArray s4 j la n
  | none => match s4.jobs.find? (fun j => j.reserve.contains n) with
    | some j => s4.setJob { j with reserve := j.reserve.filter (fun m => m != n), fencedFrom := n :: j.fencedFrom }
    | none => s4

/-- Fence the checksum path of array PA n (R73). -/
def fenceChecksum (s : State) (n cause : Nat) : State :=
  if s.flag (Fd.MA_STATUS_CHK_FENCED n) then s
  else logFence (capChanged (yearAnew (s.setFld (Fd.MA_STATUS_CHK_FENCED n) 1) 1 n)) 1 n cause true

/-- Failed sets of an array wait for their repeats, and the array is doubtful (R335). -/
def repeatSets (s : State) (n failed : Nat) : State :=
  showDoubt ({ s with decisions := s.decisions ++ [(⟨n, false, 4, failed, 0, 0, 0, 0, [], none⟩ : Decision)] }.setFld (Fd.KAT_ARRAY_FAILED n) 1) n

/-- Apply the outcome of a decision on an array (Table 13.2, R335): sets that failed during it have their repeats next. -/
def arrayOutcome (s : State) (d : Decision) (outcome adj : Nat) : State :=
  let s1 := closeDecision s d outcome adj
  match outcome with
  | 2 => fenceChecksum s1 d.unit 1
  | 3 => fenceArray s1 d.unit 1
  | _ => if d.step ≠ 4 ∧ d.failed ≠ 0 then repeatSets s1 d.unit d.failed else s1

/-- The adjudicating array of a decision (R334): the lowest of the job's reserve pool, then the lowest available array that
is unmapped and not fenced; not one already tried. -/
def adjudicator (s : State) (d : Decision) : Option Nat :=
  let pool := ((s.arrayJob d.unit).map (fun p => p.1.reserve)).getD []
  let idle := (List.range 96).filter (fun m => mappable s m && (s.arrayJob m).isNone && !(pool.contains m) && m != d.unit)
  (pool ++ idle).find? (fun m => !(d.adjudicators.contains m))

/-- The job that maps engine n, by handle, carries the check source of doubt until it ends (R336). -/
def doubtEngineJob (s : State) (n : Nat) : State :=
  match s.jobs.find? (fun j => j.lv.any (fun p => p.2 == n)) with
  | some j => { s with checkJobs := j.handle :: s.checkJobs.filter (fun h => h != j.handle) }
  | none => s

/-- An engine with a fault is fenced when the job that maps it ends, at once where none does (R336). -/
def fenceLater (s : State) (n : Nat) : State :=
  if s.jobs.any (fun j => j.lv.any (fun p => p.2 == n)) then { s with veFaulty := n :: s.veFaulty.filter (fun m => m != n) } else fenceVe s n 1

/-- The outcome of an engine's full year (R336). -/
def engineOutcome (s : State) (d : Decision) : State :=
  let n := d.unit
  if d.failed = 0 then closeDecision s d 1 0xFF
  else if d.failed = 2 ^ 7 then
    let s1 := doubtEngineJob (closeDecision s d 2 0xFF) n
    fenceLater { s1 with resStopped := n :: s1.resStopped.filter (fun m => m != n) } n
  else fenceLater (doubtEngineJob (closeDecision s d 3 0xFF) n) n

/-! ### Slices (R327 to R336) -/

/-- A known-answer failure is recorded (Table 13.6). -/
def logFailure (s : State) (inst m : Nat) : State := s.log 0x09 9 0x130000 inst (2 ^ m)

/-- A set fails on an array: doubtful until the outcome of its repeat (R335), which an open decision puts off (R337). -/
def arraySetFailed (s : State) (n m : Nat) : State :=
  let s1 := logFailure s n m
  match s1.decision false n with
  | some d => showDoubt ((setDecision s1 { d with failed := d.failed ||| 2 ^ m }).setFld (Fd.KAT_ARRAY_FAILED n) 1) n
  | none => repeatSets s1 n (2 ^ m)

/-- A set passes on an array in its rotation; a whole year ends its being overdue (R313). -/
def arraySetPassed (s : State) (n m : Nat) : State :=
  let s1 := s.setFld (Fd.KAT_ARRAY_PASSED n) (s.fld (Fd.KAT_ARRAY_PASSED n) ||| 2 ^ m)
  if s1.fld (Fd.KAT_ARRAY_PASSED n) = 0xFFF then
    showDoubt ({ s1 with yearWait := s1.yearWait.filter (fun k => k != n) }.setFld (Fd.KAT_ARRAY_KAT_OVERDUE n) 0) n
  else s1

/-- A set ends on an array in its rotation, or as the repeat of a failed one (R335). -/
def arraySet (s : State) (n m : Nat) (passed : Bool) : State :=
  match s.decision false n with
  | some d =>
    if d.step = 4 ∧ bitOf d.failed m = true then
      if passed then
        if d.failed = 2 ^ m then arraySetPassed (arrayOutcome s d 1 0xFF) n m
        else arraySetPassed (setDecision s { d with failed := d.failed - 2 ^ m }) n m
      else arrayOutcome s d (if d.failed = 2 ^ 7 then 2 else 3) 0xFF
    else if passed then arraySetPassed s n m else arraySetFailed s n m
  | none => if passed then arraySetPassed s n m else arraySetFailed s n m

/-- A set ends on a vector engine; in a decision it counts for the full year (R336). `row` holds the sets done. -/
def engineSet (s : State) (n m : Nat) (passed : Bool) : State :=
  let s1 := if passed then s.setFld (Fd.KAT_VE_PASSED n) (s.fld (Fd.KAT_VE_PASSED n) ||| 2 ^ m) else logFailure s n m
  match s1.decision true n with
  | some d =>
    let e := { d with row := d.row ||| 2 ^ m, failed := if passed then d.failed else d.failed ||| 2 ^ m }
    if e.row = 0xFFF then engineOutcome s1 e else setDecision s1 e
  | none =>
    if passed then s1
    else
      let d : Decision := ⟨n, true, 5, 0, 0, 0, 0, 0, [], none⟩
      { s1 with decisions := s1.decisions ++ [d] }.setFld (Fd.KAT_VE_DECISION n) 1

/-- KAT_RUN commands pending on a unit, with what `aux` holds of each: sets left (11:0), failed (23:12), bit 24 once the unit
has been fenced since. -/
def runsOf (s : State) (kind inst : Nat) : List Cmd :=
  s.cmds.filter (fun c => c.opcode == 0x50 && c.phase == .executing && c.pkt.p1.toNat == kind + 256 * inst)

/-- Show the KAT_RUN commands pending. -/
def showRuns (s : State) : State :=
  s.setFld Fd.KAT_STATUS_PENDING (s.cmds.filter (fun c => c.opcode == 0x50 && c.phase == .executing && c.aux != 0)).length

/-- A pass in a KAT_RUN command issued since the unit's fence; all twelve make YEAR_OK (R331). The year of a fenced checksum path is its
array's, on which the sets run. -/
def yearPass (s : State) (kind inst m : Nat) : State :=
  if unitFenced s kind inst || (kind == 0 && unitFenced s 1 inst) then
    let y := Tbl.get (fun _ => 0) s.fenceYear (yearKey kind inst) ||| 2 ^ m
    let s1 : State := { s with fenceYear := Tbl.set (fun _ => 0) s.fenceYear (yearKey kind inst) y }
    if y = 0xFFF then
      (if kind ≤ 1 then s1.setFld (Fd.KAT_ARRAY_YEAR_OK inst) 1
       else if kind = 2 then s1.setFld (Fd.KAT_VE_YEAR_OK inst) 1 else s1)
    else s1
  else s

/-- Is a unit in use: mapped to a job, and not fenced (R331)? -/
def unitUsed (s : State) (kind inst : Nat) : Bool :=
  match kind with
  | 0 | 1 => (s.arrayJob inst).isSome && !(unitFenced s 0 inst)
  | 2 => s.jobs.any (fun j => j.lv.any (fun p => p.2 == inst))
  | _ => s.owner.isSome && !(unitFenced s kind inst)

/-- A set of a KAT_RUN command ends: its reply is posted after the last one (R331). -/
def runSet (s : State) (kind inst m : Nat) (passed : Bool) : State :=
  match (runsOf s kind inst).find? (fun c => bitOf c.aux m) with
  | none => s
  | some c =>
    let aux := c.aux - 2 ^ m + (if passed then 0 else 2 ^ (12 + m))
    let s1 := if passed then (if c.aux < 2 ^ 24 then yearPass s kind inst m else s)
      else if !(unitUsed s kind inst) then logFailure s inst m
      else if kind ≤ 1 then arraySetFailed s inst m
      else if kind = 2 then engineSet s inst m false else logFailure s inst m
    let s2 := setCmdAux s1 c aux
    if aux % 4096 = 0 then showRuns (finishCmd s2 { c with aux := aux } St.ok 0 (BitVec.ofNat 64 (aux / 4096 % 4096)) 0) else s2

/-- A slice works in the unit's diagnostic area and leaves an array's active weights undefined (R325, R327). -/
def slicedArray (s : State) (kind inst : Nat) : State :=
  let s1 := diagFill s kind inst
  if kind ≤ 1 then s1.setArr inst { s1.arrOf inst with active := none } else s1

/-- The repeat of step 1 of Table 13.2. DESIGN CHOICE, log entry 106. -/
def decisionRepeat (s : State) (n : Nat) (reproduced : Bool) : State :=
  match s.decision false n with
  | some d => if d.step = 1 then (if reproduced then setDecision s { d with step := 2 } else arrayOutcome s d 1 0xFF) else s
  | none => s

/-- The adjudication of step 2: void when the adjudicator mismatches itself, which opens its own decision. DESIGN CHOICE, log entry 106. -/
def decisionAdjudicate (s : State) (n : Nat) (own differs : Bool) : State :=
  match s.decision false n with
  | some d =>
    if d.step = 2 then
      match adjudicator s d with
      | some m =>
        if own then
          let s1 := setDecision (diagFill s 0 m) { d with adjudicators := m :: d.adjudicators }
          if (s1.decision false m).isSome then s1
          else
            let e : Decision := ⟨m, false, 1, 0, d.pc, d.row, d.t, d.c, [], d.capture⟩
            { s1 with decisions := s1.decisions ++ [e] }.setFld (Fd.KAT_ARRAY_DECISION m) 1
        else arrayOutcome (diagFill s 0 m) d (if differs then 3 else 2) m
      | none => s
    else s
  | none => s

/-- The known-answer route where no array can adjudicate (R334). -/
def decisionRoute (s : State) (n : Nat) (august pairing : Bool) : State :=
  match s.decision false n with
  | some d => if d.step = 2 ∧ (adjudicator s d).isNone then arrayOutcome s d (if august && !pairing then 2 else 3) 0xFF else s
  | none => s

/-- Is a decision on array n open at a step of Table 13.2? -/
def decisionAt (s : State) (n step : Nat) : Bool := (s.decision false n).any (fun d => d.step == step)

/-- A set passes on a unit that is neither array nor engine (R329). -/
def otherPassed (s : State) (kind inst m : Nat) : State :=
  { s with otherYear := Tbl.set (fun _ => 0) s.otherYear (256 * inst + kind) (Tbl.get (fun _ => 0) s.otherYear (256 * inst + kind) ||| 2 ^ m) }

/-- Has the START window of a SAFE supervisor opened within the last 4 µs, the longest that a slice lasts (R312)? DESIGN CHOICE, log entry 71. -/
def safeOpened (s : State) : Bool :=
  s.cars.any (fun k => k.2.slots.any (fun x => x.sups.any (fun p => p.2.safe &&
    decide (windowAt x p.2.startOpen ≤ nowT s) && decide (nowT s < windowAt x p.2.startOpen + 7500))))

/-- Does a gap point stand just before an address of a logical unit's program (R326)? -/
def gapBefore (j : Job) (seq : Bool) (unit pc : Nat) : Bool := decide (0 < pc) && (j.point seq unit (pc - 1)).any (fun p => p.gap)

/-- Less than 5 ms of an array's interval is left, with sets outstanding (R330). -/
def yearPressed (s : State) (n : Nat) : Bool :=
  s.fld (Fd.KAT_ARRAY_PASSED n) != 0xFFF &&
    decide (Tbl.get (fun _ => 0) s.katFrom n + s.safe.katInterval * 1875000 < nowT s + 9375000)

/-- May a slice run on a unit now (R330): on an array or engine at work at a gap point, in throughput mode in a WAIT that follows one unless a
decision or the end of the array's interval presses; a frozen array waits for the end of the hold (R327). DESIGN CHOICE, log entry 71. -/
def sliceDue (s : State) (kind inst : Nat) : Bool :=
  match kind with
  | 0 | 1 =>
    !(s.flag (Fd.MA_STATUS_FROZEN inst)) &&
      (match s.arrayJob inst with
       | none => true
       | some (j, la) =>
         let pc := s.regN (Reg.MA_SEQ_PC inst)
         let waiting := s.waiters.any (fun w => w.agent == seqAgent inst)
         !(s.flag (Fd.MA_STATUS_RUN inst)) || (waiting && gapBefore j true la (pc - 1)) ||
           (gapBefore j true la pc && (s.flag Fd.DET_CTRL_MODE || (s.decision false inst).isSome || yearPressed s inst)))
  | 2 =>
    (match s.jobs.findSome? (fun j => (j.lv.find? (fun p => p.2 == inst)).map (fun p => (j, p.1))) with
     | none => true
     | some (j, lv) =>
       let pc := s.regN (Reg.VE_PC inst)
       let waiting := s.waiters.any (fun w => w.agent == veAgent inst)
       !(s.flag (Fd.VE_STATUS_RUN inst)) || (waiting && gapBefore j false lv (pc - 1)) ||
         (gapBefore j false lv pc && (s.flag Fd.DET_CTRL_MODE || (s.decision true inst).isSome)))
  | _ => true

/-- One slice on a unit (R330); a slice of a decision step only while the decision is at that step. DESIGN CHOICE, log entry 71. -/
def katSlice (s : State) (kind inst : Nat) (r : SliceResult) : State :=
  match r with
  | .aborted => (slicedArray s kind inst).bump Reg.KAT_SLICES_ABORTED
  | .part => (slicedArray s kind inst).bump Reg.KAT_SLICES
  | .set m passed onDemand =>
    let s1 := (slicedArray s kind inst).bump Reg.KAT_SLICES
    if onDemand then runSet s1 kind inst m.val passed
    else if kind ≤ 1 then (if unitFenced s1 0 inst then s1 else arraySet s1 inst m.val passed)
    else if kind = 2 then engineSet s1 inst m.val passed
    else if passed then otherPassed s1 kind inst m.val else logFailure s1 inst m.val
  | .repeated b => if decisionAt s inst 1 then decisionRepeat ((slicedArray s kind inst).bump Reg.KAT_SLICES) inst b else s
  | .adjudicated own differs => if decisionAt s inst 2 then decisionAdjudicate (s.bump Reg.KAT_SLICES) inst own differs else s
  | .routed a p => if decisionAt s inst 2 then decisionRoute ((slicedArray s kind inst).bump Reg.KAT_SLICES) inst a p else s

/-- KAT_SLICE (R330): kind and instance of the unit as in FENCE_UNIT, 6 to 9 for POL, LENC, SDE and EGU, and what the slice came to; one across
the opening of a SAFE supervisor's window is discarded (R312). -/
def execKatSlice (kind : Fin 10) (inst : Fin 96) (r : SliceResult) (s : State) : Host.Outcome State Fault Refusal :=
  up s (fun s =>
    if unitCount kind.val ≤ inst.val ∨ s.fld Fd.PMU_STATE_STATE = 2 ∨ sliceDue s kind.val inst.val = false then s
    else katSlice s kind.val inst.val (if safeOpened s then .aborted else r))

/-- KAT_OVERDUE: an array's interval, KAT_INTERVAL of elapsed time, ends: with its year done the next one begins, else it is overdue and doubtful (R313). DESIGN CHOICE, log entry 71. -/
def katOverdue (s : State) (n : Nat) : State :=
  if s.flag (Fd.MA_STATUS_FENCED n) || decide (nowT s < Tbl.get (fun _ => 0) s.katFrom n + s.safe.katInterval * 1875000) then s
  else if s.fld (Fd.KAT_ARRAY_PASSED n) = 0xFFF then
    { s with katFrom := Tbl.set (fun _ => 0) s.katFrom n (nowT s) }.setFld (Fd.KAT_ARRAY_PASSED n) 0
  else if s.flag (Fd.KAT_ARRAY_KAT_OVERDUE n) then s
  else showDoubt ((s.setFld (Fd.KAT_ARRAY_KAT_OVERDUE n) 1).log 0x09 9 0x130000 n (2 ^ 16)) n

/-- KAT_OVERDUE (R313); in Idle and Retain KAT suspends its intervals (R450). -/
def execKatOverdue (pa : Fin 96) (s : State) : Host.Outcome State Fault Refusal :=
  up s (fun s => if s.fld Fd.PMU_STATE_STATE = 0 then katOverdue s pa.val else s)

/-- OVERDUE_OTHER: a second ends for a unit that is no array; one whose year is done begins the next one, any
other is overdue: counted and recorded, no code block marked (R329). -/
def overdueOther (s : State) (kind inst : Nat) : State :=
  if kind = 2 ∧ s.fld (Fd.KAT_VE_PASSED inst) = 0xFFF then s.setFld (Fd.KAT_VE_PASSED inst) 0
  else
    let key := 256 * inst + kind
    let s0 : State := { s with otherYear := if kind = 2 then s.otherYear else Tbl.set (fun _ => 0) s.otherYear key 0 }
    if kind ≠ 2 ∧ Tbl.get (fun _ => 0) s.otherYear key &&& yearSets kind = yearSets kind then s0
    else
    let s1 := (s0.bump Reg.KAT_OVERDUE_OTHER).log 0x09 9 0x130000 inst (2 ^ 16)
    if kind = 2 then s1.setFld (Fd.KAT_VE_PASSED inst) 0 else s1

/-- OVERDUE_OTHER (R329); a unit that does not exist has no year. -/
def execOverdueOther (kind : Fin 10) (inst : Fin 32) (s : State) : Host.Outcome State Fault Refusal :=
  up s (fun s => if 2 ≤ kind.val ∧ inst.val < unitCount kind.val ∧ s.fld Fd.PMU_STATE_STATE = 0 then overdueOther s kind.val inst.val else s)

/-! ### Commands (R331, R338, R341) -/

/-- Kind and instance in a parameter: none where a reserved bit is set or the unit is none of Table 13.3. -/
def unitParam (v : Word) : Option (Nat × Nat) :=
  let k := v.toNat % 256
  let i := v.toNat / 256 % 256
  if v.toNat < 65536 ∧ k < 6 ∧ i < unitCount k then some (k, i) else none

/-- Does a unit belong to a job of the other port? -/
def otherPort (s : State) (kind inst p : Nat) : Bool :=
  match kind with
  | 0 | 1 => (s.jobs.find? (fun j => j.la.any (fun q => q.2 == inst) || j.reserve.contains inst)).any (fun j => s.jobPort j != p)
  | 2 => (s.jobs.find? (fun j => j.lv.any (fun q => q.2 == inst))).any (fun j => s.jobPort j != p)
  | _ => s.owner.any (fun j => s.jobPort j != p)

/-- KAT_RUN. -/
def katRunBody (c : Cmd) (s : State) : State :=
  let sets := c.pkt.p0.toNat
  if sets = 0 ∨ 4096 ≤ sets then refuse s c St.badParam 1
  else match unitParam c.pkt.p1, unusedFrom c.pkt 2 with
    | none, _ => refuse s c St.badParam 2
    | _, some d => refuse s c St.badParam d
    | some (k, i), none =>
      if k ≤ 1 ∧ s.flag (Fd.MA_STATUS_UNAVAILABLE i) = true then refuse s c St.badParam 2
      else if unitUsed s k i && otherPort s k i c.pkt.port.val then refuse s c St.notOwner 0
      else if 16 ≤ s.fld Fd.KAT_STATUS_PENDING then refuse s c St.queueFull 0
      else showRuns (setCmdAux s c (if k = 1 then 2 ^ 7 else sets))

/-- KAT_RUN (R331). -/
def execKatRun (p : Pkt) (s : State) : Host.Outcome State Fault Refusal := up s (hostCmd 0x50 p katRunBody)

/-- Fence a unit that FENCE_UNIT may fence. DESIGN CHOICE, log entry 71. -/
def fenceUnit (s : State) (k i : Nat) : State :=
  match k with
  | 0 => fenceArray s i 0
  | 1 => fenceChecksum s i 0
  | 2 => fenceVe s i 0
  | _ => logFence (capChanged (yearAnew (s.setRegBit (fenceBit k i).1 (fenceBit k i).2 true) k i)) k i 0 true

/-- FENCE_UNIT (Table 13.3). -/
def fenceUnitBody (c : Cmd) (s : State) : State :=
  match unitParam c.pkt.p0, unusedFrom c.pkt 1 with
  | none, _ => refuse s c St.badParam 1
  | _, some d => refuse s c St.badParam d
  | some (k, i), none =>
    if unitFenced s k i then refuse s c St.unitFenced 0
    else if k = 0 ∧ ((s.arrayJob i).any (fun p => s.jobPort p.1 != c.pkt.port.val)) = true then refuse s c St.notOwner 0
    else if (k = 2 ∧ s.jobs.any (fun j => j.lv.any (fun p => p.2 == i)) = true) ∨ (3 ≤ k ∧ s.owner.isSome = true) then
      refuse s c St.busy 0
    else okCmd (fenceUnit s k i) c

/-- FENCE_UNIT (R338). -/
def execFenceUnit (p : Pkt) (s : State) : Host.Outcome State Fault Refusal := up s (hostCmd 0x51 p fenceUnitBody)

/-- Insert an array into a reserve pool, ascending. -/
def intoPool (l : List Nat) (n : Nat) : List Nat := (n :: l.filter (fun m => m != n)).mergeSort

/-- Lift a fence (R341). -/
def unfenceUnit (s : State) (k i : Nat) : State :=
  let s1 := s.setRegBit (fenceBit k i).1 (fenceBit k i).2 false
  let s2 := if k = 0 then s1.setFld (Fd.MA_STATUS_FENCED i) 0 else s1
  let s3 := if (k ≤ 1 ∧ unitFenced s2 0 i = false ∧ unitFenced s2 1 i = false) then s2.setFld (Fd.KAT_ARRAY_YEAR_OK i) 0
    else if k = 2 then s2.setFld (Fd.KAT_VE_YEAR_OK i) 0 else s2
  let s4 := if k = 0 then
      match s3.jobs.find? (fun j => j.fencedFrom.contains i) with
      | some j => s3.setJob { j with reserve := intoPool j.reserve i, fencedFrom := j.fencedFrom.filter (fun m => m != i) }
      | none => s3
    else s3
  let s4 : State := { s4 with katFrom := if k = 0 then Tbl.set (fun _ => 0) s4.katFrom i (nowT s4) else s4.katFrom }
  logFence (capChanged s4) k i 0 false

/-- The array was fenced from a job of the other port (R341: ownership follows FENCE_UNIT). -/
def unfenceForeign (s : State) (k i p : Nat) : Bool :=
  k == 0 && (s.jobs.find? (fun j => j.fencedFrom.contains i)).any (fun j => s.jobPort j != p)

/-- Has a fenced unit passed its year: YEAR_OK of an array, a checksum path or an engine (R341); of the others the sets with content for them,
passed since the fence. DESIGN CHOICE, log entry 71. -/
def yearDone (s : State) (k i : Nat) : Bool :=
  if k ≤ 1 then s.flag (Fd.KAT_ARRAY_YEAR_OK i)
  else if k = 2 then s.flag (Fd.KAT_VE_YEAR_OK i)
  else Tbl.get (fun _ => 0) s.fenceYear (yearKey k i) &&& yearSets k == yearSets k

/-- UNFENCE_UNIT. -/
def unfenceUnitBody (c : Cmd) (s : State) : State :=
  match unitParam c.pkt.p0, unusedFrom c.pkt 1 with
  | none, _ => refuse s c St.badParam 1
  | _, some d => refuse s c St.badParam d
  | some (k, i), none =>
    if k ≤ 1 ∧ s.flag (Fd.MA_STATUS_UNAVAILABLE i) = true then refuse s c St.badParam 1
    else if unfenceForeign s k i c.pkt.port.val then refuse s c St.notOwner 0
    else if unitFenced s k i = false ∨ yearDone s k i = false then refuse s c St.badParam 1
    else okCmd (unfenceUnit s k i) c

/-- UNFENCE_UNIT (R341). -/
def execUnfenceUnit (p : Pkt) (s : State) : Host.Outcome State Fault Refusal := up s (hostCmd 0x52 p unfenceUnitBody)

end Sys2Proof.Machine
end

