-- ==== Sys2Proof/Machine/Fft.lean ====
section
/-! DEFINITION. The transform accelerator (R179) and the ramp profiles (R194): cosines in integer arithmetic, normalisation as BNORM does it
(R177), the stages of a transform. -/

namespace Sys2Proof.Machine

/-! ### Cosines -/

/-- π in units of 2^-80, rounded down. -/
def piUnits : Nat := 0x3243F6A8885A308D31319

/-- The alternating series of the cosine: terms left, index of the next term, that term; `x2` is the square of the angle, all in units of
2^-80. -/
def cosSeries (x2 : Nat) : Nat → Nat → Nat → Int
  | 0, _, _ => 0
  | k + 1, m, t => t - cosSeries x2 k (m + 1) (t * x2 / 2 ^ 80 / ((2 * m + 1) * (2 * m + 2)))

/-- cos(π × a ÷ b) for 2a ≤ b, in units of 2^-80. -/
def cosQuarter (a b : Nat) : Int := cosSeries ((piUnits * a / b) ^ 2 / 2 ^ 80) 20 0 (2 ^ 80)

/-- cos(2π × k ÷ n), in units of 2^-80. -/
def cosTurn (k n : Nat) : Int :=
  let h := min (k % n) (n - k % n)
  if 4 * h ≤ n then cosQuarter (2 * h) n else -cosQuarter (n - 2 * h) n

/-- The nearest Q1.15 value of a fraction in units of 2^-80. -/
def q15Of (x : Int) : Int := min 32767 (Frac.rne ⟨x, 2 ^ 65⟩)

/-- Coefficient k of a ramp profile of length L and floor f (R194), Q1.15. -/
def rampCoeff (len floor k : Nat) : Int :=
  let c := cosTurn (2 * k + 1) (4 * len)
  min 32767 (Frac.rne ⟨floor * 2 ^ 81 + (128 - floor) * (2 ^ 80 - c), 2 ^ 73⟩)

/-! ### Normalisation (R177) -/

/-- Redundant sign bits of a 16-bit part. -/
def signBits (x : Int) : Nat :=
  let y := (if x < 0 then -x - 1 else x).toNat
  15 - (if y = 0 then 0 else Nat.log2 y + 1)

/-- A part shifted by BNORM: left, or right rounding to nearest, ties to even; 16 bits remain. -/
def normPart (sh : Int) (x : Int) : Int :=
  if 0 ≤ sh then signed 16 (wrapN 16 (x * 2 ^ sh.toNat)) else Frac.rne ⟨x, 2 ^ (-sh).toNat⟩

/-- Samples normalised with a guard, and their block exponent. -/
def normalise (guard : Nat) (xs : List (Int × Int)) (e : Int) : List (Int × Int) × Int :=
  let bx := (xs.flatMap (fun p => [signBits p.1, signBits p.2])).foldl min 15
  let sh : Int := (bx : Int) - guard
  (xs.map (fun p => (normPart sh p.1, normPart sh p.2)), e - sh)

/-! ### Transforms (R179) -/

/-- Divide out a prime factor. -/
def dropFactor (p : Nat) : Nat → Nat → Nat
  | 0, n => n
  | k + 1, n => if n % p = 0 ∧ n ≠ 0 then dropFactor p k (n / p) else n

/-- Sizes that the accelerator accepts. -/
def transformOk (n : Nat) : Bool :=
  (List.range 9).any (fun k => n == 2 ^ (k + 4)) ||
    (n % 12 == 0 && decide (0 < n) && decide (n ≤ 3240) && dropFactor 5 12 (dropFactor 3 12 (dropFactor 2 12 (n / 12))) == 1)

/-- Radices of a size by trial: 4 before 2, then 3, then 5. -/
def radices : Nat → Nat → List Nat
  | 0, _ => []
  | k + 1, n =>
    if n ≤ 1 then [] else if n % 4 = 0 then 4 :: radices k (n / 4) else if n % 2 = 0 then 2 :: radices k (n / 2)
    else if n % 3 = 0 then 3 :: radices k (n / 3) else 5 :: radices k (n / 5)

/-- The stages of a size, the one over the whole transform first: those of the implementation where they are radices whose product is the
size. DESIGN CHOICE, log entry 115. -/
def fftStages (size : Nat) : List Nat :=
  let p := Config.fftPlan size
  if p.all (fun r => decide (2 ≤ r ∧ r ≤ 5)) && p.foldl (· * ·) 1 == size then p else radices 12 size

/-- GUARD before a stage (R179). -/
def stageGuard (r : Nat) : Nat := if r = 2 then 2 else 3

/-- The twiddles of a length: cos and -sin (sin for the inverse) of t turns in L, the nearest Q1.15 values. -/
def twiddles (inverse : Bool) (len : Nat) : List (Int × Int) :=
  (List.range len).map (fun t =>
    let s := cosTurn (4 * t + 3 * len) (4 * len)
    (q15Of (cosTurn t len), q15Of (if inverse then s else -s)))

/-- A butterfly output: the exact sum of products, rounded once. -/
def butterfly (xs : List ((Int × Int) × (Int × Int))) : Int × Int :=
  let p := xs.map (fun x => (x.1.1 * x.2.1 - x.1.2 * x.2.2, x.1.1 * x.2.2 + x.1.2 * x.2.1))
  (Frac.rne ⟨(p.map (fun y => y.1)).sum, 2 ^ 15⟩, Frac.rne ⟨(p.map (fun y => y.2)).sum, 2 ^ 15⟩)

/-- Pieces of n elements. -/
def fftPieces {α : Type} (n : Nat) : Nat → List α → List (List α)
  | 0, _ => []
  | k + 1, l => l.take n :: fftPieces n k (l.drop n)

/-- Every r-th element, from each of the first r. -/
def strides {α : Type} (d : α) (r : Nat) (l : List α) : List (List α) :=
  (List.range r).map (fun j => (List.range (l.length / r)).map (fun i => l.getD (r * i + j) d))

/-- Samples in the order in which decimation in time takes them. -/
def leafOrder : List Nat → List (Int × Int) → List (Int × Int)
  | [], l => l
  | r :: rs, l => (strides (0, 0) r l).flatMap (leafOrder rs)

/-- Decimation in frequency leaves its results in this order. -/
def gatherOrder : List Nat → List (Int × Int) → List (Int × Int)
  | [], l => l
  | r :: rs, l =>
    let parts := (fftPieces (l.length / r) r l).map (gatherOrder rs)
    (List.range l.length).map (fun i => (parts.getD (i % r) []).getD (i / r) (0, 0))

/-- One block of a stage of radix r over length L = r × m: decimation in time merges r transforms of length m. -/
def mergeBlock (r m : Nat) (tw b : List (Int × Int)) : List (Int × Int) :=
  (List.range (r * m)).map (fun t => butterfly ((List.range r).map (fun j =>
    (b.getD (j * m + t % m) (0, 0), tw.getD (j * t % (r * m)) (0, 0)))))

/-- Decimation in frequency splits a block into r of length m. -/
def splitBlock (r m : Nat) (tw b : List (Int × Int)) : List (Int × Int) :=
  (List.range (r * m)).map (fun t => butterfly ((List.range r).map (fun j =>
    (b.getD (t % m + j * m) (0, 0), tw.getD (t / m * (t % m + j * m) % (r * m)) (0, 0)))))

/-- One stage on all blocks, after its normalisation. -/
def fftStage (inverse time : Bool) (r m : Nat) (x : List (Int × Int) × Int) : List (Int × Int) × Int :=
  let (xs, e) := normalise (stageGuard r) x.1 x.2
  let tw := twiddles inverse (r * m)
  let f := if time then mergeBlock r m tw else splitBlock r m tw
  ((fftPieces (r * m) (xs.length / (r * m)) xs).flatMap f, e)

/-- Stages of decimation in frequency, the one over the whole transform first; `m` is the length of its blocks. -/
def stagesDown (inverse : Bool) : List Nat → Nat → List (Int × Int) × Int → List (Int × Int) × Int
  | [], _, x => x
  | r :: rs, len, x => stagesDown inverse rs (len / r) (fftStage inverse false r (len / r) x)

/-- Stages of decimation in time, the one over the whole transform last. -/
def stagesUp (inverse : Bool) : List Nat → Nat → List (Int × Int) × Int → List (Int × Int) × Int
  | [], _, x => x
  | r :: rs, len, x => fftStage inverse true r (len / r) (stagesUp inverse rs (len / r) x)

/-- A transform: samples and block exponent. The manual gives guards, twiddles and roundings; the order of the stages and their decimation
are the implementation's. DESIGN CHOICE, log entry 115. -/
def fft (size : Nat) (inverse : Bool) (xs : List (Int × Int)) (e : Int) : List (Int × Int) × Int :=
  let plan := fftStages size
  let x := (xs ++ List.replicate (size - xs.length) (0, 0)).take size
  let y := if Config.fftInTime then stagesUp inverse plan size (leafOrder plan x, e)
    else
      let z := stagesDown inverse plan size (x, e)
      (gatherOrder plan z.1, z.2)
  normalise 0 y.1 y.2

end Sys2Proof.Machine
end

