-- ==== Sys2Proof/Machine/RegAccess.lean ====
section
/-! DEFINITION. Register fields by access type (R9, R10): the bits of a register that a write takes. -/

namespace Sys2Proof.Machine

/-- The mask of a field. -/
def RegField.mask (f : RegField) : Word := lowMask (f.hi + 1 - f.lo) <<< f.lo

/-- The bits of a register whose fields have an access type. -/
def accMask (off : Nat) (a : Acc) : Word :=
  match regLookup off with
  | some f => (f.fields.filter (fun g => g.acc == a)).foldl (fun m g => m ||| g.mask) 0
  | none => 0

/-- The value of a register with its RW bits written; reserved and read-only bits stay (R10). -/
def rwValue (s : State) (off : Nat) (v : Word) : Word :=
  let m := accMask off .rw
  (s.reg off &&& ~~~m) ||| (v &&& m)

/-- A write of a register's RW bits. -/
def putRw (s : State) (off : Nat) (v : Word) : State := s.setReg off (rwValue s off v)

end Sys2Proof.Machine
end

