-- ==== Sys2Proof/Machine/Tsu.lean ====
section
/-! DEFINITION. The TSU (R387 to R404): device time and its steps, the servo, holdover, PPS and time of day, the launch
queues, TX_ON events, writes of its registers; and what a REFCLK edge does. -/

namespace Sys2Proof.Machine

/-! ### Device time (R387, R388, R398) -/

/-- RATE as a signed number. -/
def rateOf (s : State) : Int := signed 32 (s.regN Reg.TSU_RATE)

/-- What an edge adds to device time, in 2^-48 ns: 6.4 ns × (1 + RATE × 2^-32), rounded once, ties to even (R388). -/
def edgeUnits (s : State) : Nat := (Frac.rne ⟨32 * 2 ^ 16 * (2 ^ 32 + rateOf s), 5⟩).toNat

/-- Set RATE, clamped to ±RATE_MAX (R388). -/
def setRate (s : State) (r : Int) : State :=
  let m : Int := s.regN Reg.TSU_RATE_MAX
  s.setRegN Reg.TSU_RATE (wrapN 32 (max (-m) (min m r)))

/-- Device time at which a symbol starts, in 2^-48 ns, rounded up (R390); `l` may be the symbol after the slot's last. -/
def symTime (s : State) (c abs l : Nat) : Int :=
  let spf := slotsPerFrame s c
  let mu := s.fld (Fd.TSU_CAR_MU c)
  let x := symStart mu (s.flag (Fd.TSU_CAR_ECP c)) (abs % spf) l
  ((abs / spf : Nat) : Int) * frameUnits - 1024 * (frameUnits : Int) + s.fld (Fd.TSU_CAR_OFFSET c) * 2 ^ 48 +
    ((x * 3125 * 2 ^ 48 + 96 * 2 ^ mu - 1) / (96 * 2 ^ mu) : Nat)

/-- A forward step passes the slot boundaries of a carrier that lie before the new time (R398). -/
def skipSlots (s : State) (c new : Nat) : State :=
  if !(s.flag (Fd.TSU_CAR_V c)) then s
  else
    let k := s.car c
    let a := max (absSlot s c s.devTime) (k.lastAbs.getD 0)
    let b := absSlot s c (new - 1)
    if b ≤ a then s
    else (s.bumpBy Reg.TSU_TICK_SKIPPED (b - a)).setCar c { k with lastAbs := some b }

/-- A forward step passes launch and event times (R398). DESIGN CHOICE, log entry 76. -/
def passTimes (s : State) (new : Nat) : State :=
  let old := s.devTime
  let passed (t : Nat) : Bool := decide (old < t) && decide (t < new)
  { s with
    launch := s.launch.map (fun q => (q.1, q.2.map (fun e => if passed e.time then { e with late := true } else e)))
    txq := s.txq.map (fun q => (q.1, q.2.map (fun e => if passed e.time then { e with late := true } else e))) }

/-- A step of device time on one REFCLK edge (R398). -/
def stepTime (s : State) (new : Nat) : State :=
  if new = s.devTime then s
  else
    let s1 := if s.devTime < new then passTimes ((List.range 8).foldl (fun t c => skipSlots t c new) s) new else s
    { s1 with devTime := new }.bump Reg.TSU_STEPS

/-! ### TIME_SET and TIME_ADJUST (R394) -/

/-- Does the servo hold a source? -/
def servoHolds (s : State) : Bool := s.flag Fd.TSU_CTRL_SERVO_EN && decide (s.fld Fd.TSU_CTRL_SRC < 2)

/-- TIME_SET (R394). -/
def timeSetBody (c : Cmd) (s : State) : State :=
  let p := c.pkt
  if servoHolds s then refuse s c St.busy 0
  else if 2 ^ 48 ≤ p.p0.toNat then refuse s c St.badParam 1
  else if 1000000000 * 65536 ≤ p.p1.toNat then refuse s c St.badParam 2
  else match unusedFrom p 2 with
    | some d => refuse s c St.badParam d
    | none => okCmd (stepTime s (p.p0.toNat * secondUnits + p.p1.toNat * 2 ^ 32)) c

/-- TIME_SET (R394). -/
def execTimeSet (p : Pkt) (s : State) : Host.Outcome State Fault Refusal := up s (hostCmd 0x60 p timeSetBody)

/-- TIME_ADJUST (R394). -/
def timeAdjustBody (c : Cmd) (s : State) : State :=
  let p := c.pkt
  let off := p.p0.toInt
  let rate := p.p1.toInt
  let new : Int := (s.devTime : Int) + off * 2 ^ 32
  if servoHolds s then refuse s c St.busy 0
  else if 1000000000 * 65536 < off.natAbs ∨ new < 0 then refuse s c St.badParam 1
  else if s.regN Reg.TSU_RATE_MAX < rate.natAbs then refuse s c St.badParam 2
  else match unusedFrom p 2 with
    | some d => refuse s c St.badParam d
    | none => okCmd (setRate (stepTime s new.toNat) rate) c

/-- TIME_ADJUST (R394). -/
def execTimeAdjust (p : Pkt) (s : State) : Host.Outcome State Fault Refusal := up s (hostCmd 0x61 p timeAdjustBody)

/-! ### The servo (R391 to R393) -/

/-- binary64. DEDUCED, log entry 74. -/
def fp64 : FloatFmt := ⟨53, -1022, 1023, 11⟩

/-- A rational rounded to binary64. DEDUCED, log entry 74. -/
def r64 (x : Frac) : Frac :=
  match fp64.decode (fp64.roundSat x).1 with
  | .fin _ v => v
  | _ => ⟨0, 1⟩

/-- The value of a finite number. -/
def finVal (f : FloatFmt) (bits : Nat) : Option Frac :=
  match f.decode bits with
  | .fin _ v => some v
  | _ => none

/-- Set STATE: 0 free-run, 1 acquiring, 2 locked, 3 holdover; a change raises source 280 (Table 16.5). -/
def servoState (s : State) (n : Nat) : State :=
  if s.fld Fd.TSU_STATUS_STATE = n then s else raiseShared (s.setFld Fd.TSU_STATUS_STATE n) 280

/-- Slewing: the integral term and RATE from an offset in 2^-16 ns and the interval in REFCLK cycles. An interval or a gain
that gives no quotient leaves both free (R393, DESIGN CHOICE, log entry 2). DESIGN CHOICE, log entry 61. -/
def slew (s : State) (theta : Int) (tau : Option Nat) : State :=
  match tau, finVal fp32 (s.regN Reg.TSU_KP), finVal fp32 (s.regN Reg.TSU_KI), finVal fp64 s.tsu.integral with
  | some (t + 1), some kp, some ki, some i =>
    let q (k : Frac) : Frac := r64 (Frac.div (r64 (Frac.mul k ⟨theta * 5 * 2 ^ 32, 1⟩)) ⟨(t + 1) * 32 * 2 ^ 16, 1⟩)
    let i' := r64 (Frac.add i (q ki))
    let s1 : State := { s with tsu := { s.tsu with integral := (fp64.roundSat i').1 } }
    setRate s1 (Frac.rne (r64 (Frac.add (q kp) i')))
  | _, _, _, _ =>
    let (a, s1) := s.free
    let (b, s2) := s1.free
    setRate { s2 with tsu := { s2.tsu with integral := a.toNat } } (b.toInt)

/-- STATE after an offset: LOCKED after 16 consecutive ones within LOCK_THRESH (R393). -/
def noteLock (s : State) (theta : Int) : State :=
  let n := if theta.natAbs ≤ s.regN Reg.TSU_LOCK_THRESH * 65536 then s.tsu.inLock + 1 else 0
  let s1 : State := { s with tsu := { s.tsu with inLock := n } }
  if 16 ≤ n ∧ s.fld Fd.TSU_STATUS_STATE = 1 then servoState s1 2 else s1

/-- One offset drives one update (R393): a step while acquiring, else a slew over the interval since the previous write. DESIGN CHOICE, log entry 61. DEDUCED, log entry 74. -/
def servoUpdate (s : State) (theta : Int) (tau : Option Nat) : State :=
  let new : Int := (s.devTime : Int) - theta * 2 ^ 32
  let s1 := if s.fld Fd.TSU_STATUS_STATE = 1 ∧ s.flag Fd.TSU_CTRL_STEP_EN = true ∧
      s.regN Reg.TSU_STEP_THRESH * 65536 < theta.natAbs ∧ 0 ≤ new then stepTime s new.toNat
    else slew s theta tau
  noteLock s1 theta

/-- The servo leaves holdover: ACQUIRING, its integral term AVG_RATE (R397). -/
def leaveHoldover (s : State) : State :=
  let i := (fp64.roundSat (Frac.ofInt (signed 32 (s.regN Reg.TSU_AVG_RATE)))).1
  servoState { s with tsu := { s.tsu with integral := i, inLock := 0 } } 1

/-- An offset is written, and reaches an enabled servo whose source has a phase; in holdover it waits for HOLD to be clear (R393, R397). -/
def offsetIn (s : State) (theta : Int) : State :=
  let tau := s.tsu.lastOffset.map (fun t => s.elapsed - t)
  let s0 : State := { s with tsu := { s.tsu with lastOffset := some s.elapsed, holdFrom := s.elapsed } }
  if !(servoHolds s0) then s0
  else if s0.fld Fd.TSU_STATUS_STATE = 3 then
    (if s0.flag Fd.TSU_CTRL_HOLD then s0 else servoUpdate (leaveHoldover s0) theta tau)
  else servoUpdate s0 theta tau

/-- A write of TSU.OFFSET (R392): from SC and CC0 to CC3 only. DEDUCED, log entry 75. -/
def offsetWrite (s : State) (origin : Nat) (v : Word) : State :=
  if 4 < origin then logIgnored s origin Reg.TSU_OFFSET v.toNat else offsetIn s v.toInt

/-- TSU_OFFSET_WRITE (R393). -/
def execTsuOffsetWrite (origin : Fin 64) (value : Word) (s : State) : Host.Outcome State Fault Refusal :=
  up s (fun s => ctlGate s origin.val Reg.TSU_OFFSET (fun s => offsetWrite s origin.val value))

/-! ### Holdover (R397) -/

/-- The servo enters holdover. -/
def enterHoldover (s : State) : State :=
  if !(s.flag Fd.TSU_CTRL_SERVO_EN) ∨ s.fld Fd.TSU_STATUS_STATE = 3 then s
  else
    let s1 := if s.tsu.rates.isEmpty then s else setRate s (signed 32 (s.regN Reg.TSU_AVG_RATE))
    (servoState s1 3).bump Reg.TSU_HOLDOVERS

/-- Is holdover due: HOLD, or HOLD_AFTER milliseconds of 156,250 cycles without an offset while SRC is 0 or 1? -/
def holdoverDue (s : State) : Bool :=
  s.flag Fd.TSU_CTRL_HOLD ||
    (decide (s.fld Fd.TSU_CTRL_SRC < 2) && decide (s.tsu.holdFrom + 156250 * s.fld Fd.TSU_HOLD_AFTER_MS ≤ s.elapsed))

/-- HOLDOVER_ENTRY (R397). -/
def execHoldoverEntry (s : State) : Host.Outcome State Fault Refusal :=
  up s (fun s => if holdoverDue s then enterHoldover s else s)

/-- A rate sample (R397): one in each second of elapsed time, none in holdover. -/
def rateSample (s : State) : State :=
  if s.fld Fd.TSU_STATUS_STATE = 3 ∨ s.elapsed / 156250000 ≤ s.tsu.rateSec then s
  else
    let l := s.tsu.rates ++ [rateOf s]
    let l := if 1000 < l.length then l.drop 1 else l
    let s1 : State := { s with tsu := { s.tsu with rates := l, rateSec := s.elapsed / 156250000 } }
    (s1.setRegN Reg.TSU_AVG_RATE (wrapN 32 (Frac.rne ⟨l.sum, l.length⟩))).setFld Fd.TSU_STATUS_AVG_FULL
      (b2n (decide (l.length = 1000)))

/-- RATE_SAMPLE (R397). -/
def execRateSample (s : State) : Host.Outcome State Fault Refusal := up s rateSample

/-- CLK10M_IN compared with elapsed time: `cycles` REFCLK cycles in ten million input cycles, 0 when it does not toggle. With
SRC 2 RATE makes them one second of device time (R402). DEDUCED, log entry 75. -/
def clk10m (s : State) (cycles : Nat) : State :=
  let s1 := s.setFld Fd.TSU_STATUS_CLK10M_SEEN (b2n (cycles != 0))
  if cycles = 0 ∨ s.flag Fd.TSU_CTRL_SERVO_EN = false ∨ s.fld Fd.TSU_CTRL_SRC ≠ 2 ∨ s.flag Fd.TSU_CTRL_HOLD = true then s1
  else
    let s2 := if s.fld Fd.TSU_STATUS_STATE = 3 then leaveHoldover s1 else s1
    setRate s2 (Frac.rne ⟨(156250000 - (cycles : Int)) * 2 ^ 32, cycles⟩)

/-- CLK10M_SERVO_UPDATE (R402). -/
def execClk10mServoUpdate (cycles : Word32) (s : State) : Host.Outcome State Fault Refusal :=
  up s (fun s => clk10m s cycles.toNat)

/-! ### PPS and time of day (R396, R402, R403) -/

/-- PPS_IN rises (R396). -/
def ppsIn (s : State) : State :=
  { (s.setReg Reg.TSU_PPS_IN_TS s.time64).setFld Fd.TSU_STATUS_PPS_IN_SEEN 1 with
    tsu := { s.tsu with ppsIn := some (s.elapsed, s.devTime), ppsVoid := false } }

/-- PPS_IN_EDGE (R396). -/
def execPpsInEdge (s : State) : Host.Outcome State Fault Refusal := up s ppsIn

/-- PPS_OUT rises on the REFCLK edge at which the nanoseconds of device time have passed 0, while OUT_EN is 1 (R402): 156.25 cycles in a
microsecond. -/
def ppsOut (s : State) : State :=
  if s.flag Fd.TSU_PPS_CFG_OUT_EN && decide (s.devTime % secondUnits < edgeUnits s) then
    { s with tsu := { s.tsu with
        ppsOut := some (s.elapsed + (s.fld Fd.TSU_PPS_CFG_WIDTH * 625 + 3) / 4), todDue := some (s.timeSec, s.elapsed) } }
  else s

/-- PPS_OUT_EDGE (R402). -/
def execPpsOutEdge (s : State) : Host.Outcome State Fault Refusal := up s ppsOut

/-- One bit of CRC-16 with polynomial 0x1021. -/
def crc16Bit (c : Nat) : Nat := if 0x8000 ≤ c then (c * 2 ^^^ 0x1021) % 65536 else c * 2

/-- CRC-16 of R403. -/
def crc16 (bs : List Byte) : Nat :=
  bs.foldl (fun c b => crc16Bit (crc16Bit (crc16Bit (crc16Bit (crc16Bit (crc16Bit (crc16Bit (crc16Bit (c ^^^ b.toNat * 256))))))))) 0xFFFF

/-- The message that labels a PPS_OUT edge (R403). DEDUCED, log entry 78. -/
def todMessage (s : State) (sec : Nat) : List Byte :=
  let m := [0x42, 0x54] ++ beBytes 6 sec ++ beBytes 2 (s.fld Fd.TSU_TOD_CFG_UTC_OFFSET) ++
    leBytes 1 (s.fld Fd.TSU_STATUS_STATE) ++ leBytes 1 (s.fld Fd.TSU_TOD_CFG_CLOCK_CLASS) ++ zeros 2
  m ++ beBytes 2 (crc16 m)

/-- A time-of-day message goes out, 10 ms after its edge (R403). -/
def todSend (s : State) : State :=
  match s.tsu.todDue with
  | none => s
  | some (sec, e) =>
    if s.elapsed < e + 1562500 then s
    else
    let out := if s.flag Fd.TSU_TOD_CFG_TX_EN then todMessage s sec else s.tsu.todTx
    { s with tsu := { s.tsu with todDue := none, todTx := out } }

/-- TOD_MESSAGE_SEND (R403). -/
def execTodMessageSend (s : State) : Host.Outcome State Fault Refusal := up s todSend

/-- Is a received message whole, and within 900 ms of a PPS_IN edge (R403)? -/
def todGood (s : State) (m : List Byte) : Bool :=
  m.length == 16 && m.take 2 == [0x42, 0x54] && beNat (m.drop 14) == crc16 (m.take 14) &&
    (match s.tsu.ppsIn with
     | some (e, _) => decide (s.elapsed ≤ e + 140625000)
     | none => false)

/-- A time-of-day message arrives (R403): with SRC 1 its label makes the preceding PPS_IN edge an offset, unless a message of that edge was
discarded. DEDUCED, log entry 78. -/
def todReceive (s : State) (m : List Byte) : State :=
  if !(s.flag Fd.TSU_TOD_CFG_RX_EN) then s
  else if !(todGood s m) then { s with tsu := { s.tsu with ppsVoid := true } }.bump Reg.TSU_TOD_BAD
  else match s.tsu.ppsIn with
    | some (_, t) =>
      if s.fld Fd.TSU_CTRL_SRC = 1 ∧ s.tsu.ppsVoid = false then
        offsetIn s (((t / 2 ^ 32 : Nat) : Int) - ((beNat ((m.drop 2).take 6) * 1000000000 * 65536 : Nat) : Int))
      else s
    | none => s

/-- TOD_MESSAGE_RECEIVE (R403). -/
def execTodMessageReceive (msg : List Byte) (s : State) : Host.Outcome State Fault Refusal :=
  up s (fun s => todReceive s msg)

/-! ### Timed launch (R32, R399, R400) -/

/-- The launch queue of a MAC. -/
def launchQ (s : State) (m : Nat) : List Launch := Tbl.get (fun _ => []) s.launch m

/-- Set a launch queue; LQ shows its entries. -/
def setLaunchQ (s : State) (m : Nat) (q : List Launch) : State :=
  { s with launch := Tbl.set (fun _ => []) s.launch m q }.setFld (Fd.TSU_LQ_COUNT m) q.length

/-- Insert by launch time, after entries of the same time (R399). DESIGN CHOICE, log entry 76. -/
def launchInsert (q : List Launch) (e : Launch) : List Launch :=
  q.takeWhile (fun x => decide (x.time ≤ e.time)) ++ e :: q.dropWhile (fun x => decide (x.time ≤ e.time))

/-- A frame enters a queue that has a place. -/
def launchPut (s : State) (m : Nat) (time : Nat) (f : TxFrame) : State :=
  let s1 := setLaunchQ s m (launchInsert (launchQ s m) ⟨time, decide (time < s.devTime), f⟩)
  if time < s.devTime + 2000 * 2 ^ 48 then s1.bump Reg.TSU_SHORT_LEAD else s1

/-- FHP queues a frame; into a full queue it waits (R399). -/
def queueFrame (s : State) (m time : Nat) (f : TxFrame) : State :=
  let w := Tbl.get (fun _ => []) s.launchWait m
  if w.isEmpty && decide ((launchQ s m).length < 2048) then launchPut s m time f
  else { s with launchWait := Tbl.set (fun _ => []) s.launchWait m (w ++ [⟨time, false, f⟩]) }

/-- The oldest frame that waits enters the queue. -/
def launchRefill (s : State) (m : Nat) : State :=
  match Tbl.get (fun _ => []) s.launchWait m with
  | [] => s
  | e :: w => launchPut { s with launchWait := Tbl.set (fun _ => []) s.launchWait m w } m e.time e.frame

/-- The frame at the head of a queue: discarded when its time had passed as it reached the head, else released at its
time. DESIGN CHOICE, log entry 76. -/
def frameLaunch (s : State) (m : Nat) : State :=
  match launchQ s m with
  | [] => s
  | e :: q =>
    if e.late then launchRefill ((setLaunchQ s m q).bump Reg.TSU_LATE_LAUNCH) m
    else if s.devTime < e.time then s
    else
      let s1 := setLaunchQ s m q
      let s2 : State := { s1 with wire := Tbl.set (fun _ => none) s1.wire m (some e.frame) }
      launchRefill (s2.bump (Reg.FHP_TX_FRAMES (m / 4))) m

/-- FRAME_LAUNCH (R399): fronthaul MAC 4n + m. -/
def execFrameLaunch (mac : Fin 16) (s : State) : Host.Outcome State Fault Refusal := up s (fun s => frameLaunch s mac.val)

/-! ### TX_ON and PAENV (R401) -/

/-- A ramp of an envelope begins. -/
def setEnvelope (s : State) (n : Nat) (e : TxEdge) (on : Bool) : State :=
  let v : Envelope := { Tbl.get envelopeReset s.paenv n with
    on := on, len := e.len, floor := e.floor, carrier := s.fld (Fd.TSU_TXON_CARRIER n), start := if e.late then s.devTime else e.time }
  { s with paenv := Tbl.set envelopeReset s.paenv n v }

/-- The level of an envelope in 2^-15: through the coefficients of its profile, one in each sample period of its carrier, then 1; in reverse,
then 0 (R401). -/
def envelopeLevel (s : State) (v : Envelope) : Nat :=
  let k := (s.devTime - v.start) / max 1 (rampSpan s v.carrier 1)
  if v.on then (if k < v.len then (rampCoeff v.len v.floor k).toNat else 32768)
  else if k < v.len then (rampCoeff v.len v.floor (v.len - 1 - k)).toNat
  else 0

/-- One bit of the first-order sigma-delta stream: what the modulator carries after it, and the bit. -/
def sigmaBit (acc level : Nat) : Nat × Bool := if 32768 ≤ acc + level then (acc + level - 32768, true) else (acc + level, false)

/-- PAENV over one REFCLK cycle, two bits at 312.5 MHz (R401). DESIGN CHOICE, log entry 76. -/
def modulateEnvelopes (s : State) : State :=
  { s with paenv := s.paenv.map (fun p =>
      let l := envelopeLevel s p.2
      let a := sigmaBit p.2.acc l
      let b := sigmaBit a.1 l
      (p.1, { p.2 with acc := b.1, bits := (a.2, b.2) })) }

/-- The output of an event. -/
def txOutput (s : State) (n : Nat) (e : TxEdge) : State :=
  let bit := 2 ^ n
  match e.kind with
  | .txonRise => { s with txOn := s.txOn ||| bit }
  | .txonFall => { s with txOn := s.txOn &&& (255 - bit) }
  | .paRise => setEnvelope s n e true
  | .paFall => setEnvelope s n e false

/-- The first event of an output is executed at its time, at once when that has passed (R398, R401). -/
def txEvent (s : State) (n : Nat) : State :=
  match txEvents s n with
  | [] => s
  | e :: q =>
    if e.late then (txOutput (setTxEvents s n q) n e).bump Reg.TSU_TXON_LATE
    else if s.devTime < e.time then s
    else txOutput (setTxEvents s n q) n e

/-- TXON_EVENT (R401). -/
def execTxonEvent (n : Fin 8) (s : State) : Host.Outcome State Fault Refusal := up s (fun s => txEvent s n.val)

/-! ### Register writes (R394, R404) -/

/-- Does a write of CTRL, TOD_CFG or CAR hold a value that makes the register ignore it (Table 15.1)? DEDUCED, log entry 77. -/
def tsuIgnores (off v : Nat) : Bool :=
  (off == Reg.TSU_CTRL && bitsOf v 3 2 == 3) || (off == Reg.TSU_TOD_CFG && decide (4 < v % 8)) ||
    (decide (Reg.TSU_CAR 0 ≤ off) && decide (off < Reg.TSU_CAR 8) && decide (3 < bitsOf v 3 1))

/-- CAR[c] sets other slot boundaries, or the carrier begins to tick: the slot in progress raises no tick, since its boundary is not reached
any more, nor does one before the last slot that ticked (R390). DEDUCED, log entry 77. -/
def slotsAnew (s t : State) (c : Nat) : State :=
  if s.reg (Reg.TSU_CAR c) = t.reg (Reg.TSU_CAR c) ∨ t.flag (Fd.TSU_CAR_V c) = false then t
  else
    let ticked := (s.car c).lastAbs.map (fun a => absSlot t c (symTime s c a 0).toNat)
    t.setCar c { t.car c with lastAbs := some (max (absSlot t c t.devTime) (ticked.getD 0)) }

/-- A write of CAR[c]: OFFSET above 9,999,999 stays as it is, ECP 1 without MU 2 becomes 0, both recorded (Table 15.1). -/
def carWrite (s : State) (origin c v : Nat) : State :=
  let off := Reg.TSU_CAR c
  let badOff := decide (9999999 < bitsOf v 31 8)
  let badEcp := bitOf v 4 && bitsOf v 3 1 != 2
  let old := s.fld (Fd.TSU_CAR_OFFSET c)
  let s1 := putRw s off (BitVec.ofNat 64 v)
  let s2 := if badOff then s1.setFld (Fd.TSU_CAR_OFFSET c) old else s1
  let s3 := if badEcp then s2.setFld (Fd.TSU_CAR_ECP c) 0 else s2
  let s4 := slotsAnew s s3 c
  settleWaits (if badOff || badEcp then logIgnored s4 origin off v else s4)

/-- A write of CTRL: the servo starts, stops, or enters holdover; another source has HOLD_AFTER from now. -/
def tsuCtrlWrite (s : State) (v : Nat) : State :=
  let was := s.flag Fd.TSU_CTRL_SERVO_EN
  let s1 := putRw s Reg.TSU_CTRL (BitVec.ofNat 64 v)
  let now := s1.flag Fd.TSU_CTRL_SERVO_EN
  let s2 := if was && !now then servoState s1 0
    else if !was && now then
      servoState { s1 with tsu := { s1.tsu with holdFrom := s1.elapsed, inLock := 0 } } 1
    else if s.fld Fd.TSU_CTRL_SRC ≠ s1.fld Fd.TSU_CTRL_SRC then { s1 with tsu := { s1.tsu with holdFrom := s1.elapsed } }
    else s1
  if s2.flag Fd.TSU_CTRL_HOLD then enterHoldover s2 else s2

/-- A write of a RW register of the TSU: from a port only with SEM0 (R394). DEDUCED, log entry 77. -/
def tsuWrite (s : State) (origin off : Nat) (v : Word) : State :=
  if (origin = 5 ∨ origin = 6) ∧ holdsSem s (origin - 5) 0 = false then logIgnored s origin off v.toNat
  else if tsuIgnores off v.toNat then logIgnored s origin off v.toNat
  else if Reg.TSU_CAR 0 ≤ off ∧ off < Reg.TSU_CAR 8 ∧ bitOf v.toNat 0 = true ∧ s.fld Fd.PMU_STATE_STATE ≠ 0 then
    logIgnored s origin off v.toNat
  else if Reg.TSU_CAR 0 ≤ off ∧ off < Reg.TSU_CAR 8 then carWrite s origin ((off - Reg.TSU_CAR 0) / 8) v.toNat
  else if off = Reg.TSU_CTRL then tsuCtrlWrite s v.toNat
  else if off = Reg.TSU_RATE_MAX then
    let s1 := putRw s off v
    setRate s1 (rateOf s1)
  else putRw s off v

/-! ### A REFCLK edge (R17, R284, R388) -/

/-- The beat count: beats of 125/4 or 125/3 cycles since the beat origin (R17). DESIGN CHOICE, log entry 107. -/
def showBeat (s : State) : State :=
  s.setRegN Reg.DET_BEAT ((s.elapsed - s.originEdge) * (if s.flag Fd.DET_CTRL_PLAN then 3 else 4) / 125)

/-- What an edge ends: the PPS_OUT pulse, and PPS_IN_SEEN 2 s after the last edge. -/
def endPulses (s : State) : State :=
  let out := match s.tsu.ppsOut with
    | some t => if t ≤ s.elapsed then none else some t
    | none => none
  let s1 : State := { s with tsu := { s.tsu with ppsOut := out } }
  match s.tsu.ppsIn with
  | some (e, _) => if e + 312500000 < s.elapsed then s1.setFld Fd.TSU_STATUS_PPS_IN_SEEN 0 else s1
  | none => s1

/-- Groups of arrays whose time to resume after a hold has come (R469). -/
def resumeDue (s : State) : State :=
  let due := s.resume.filter (fun p => decide (p.2 ≤ nowT s))
  if due.isEmpty then s
  else
    let s1 : State := { s with resume := s.resume.filter (fun p => !(decide (p.2 ≤ nowT s))) }
    due.foldl (fun t p => (List.range 24).foldl (fun u k => u.setFld (Fd.MA_STATUS_FROZEN (24 * p.1 + k)) 0) t) s1

/-- One REFCLK edge: elapsed time, device time, the beat; the stand-ins act, and groups of arrays resume. DESIGN CHOICE, log entry 107. -/
def refclkEdge (s : State) : State :=
  let s1 := s.setRegN Reg.TSU_ELAPSED (s.elapsed + 1)
  let s2 : State := { s1 with devTime := s1.devTime + edgeUnits s1, upsets := upsetsAt s1 }
  resumeDue (runStandIns (endPulses (modulateEnvelopes (showBeat s2))))

end Sys2Proof.Machine
end

