-- ==== Sys2Proof/Machine/Boot.lean ====
section
/-! DEFINITION. Boot by the ROM (R429 to R431), self-test and soft repair (R75 to R77), FW_LOAD (R432 to R434, R441), ATTEST
(R439), output SAF_FAULT_N (R318). -/

namespace Sys2Proof.Machine

/-- SAF_FAULT_N is high only while the fallback partition runs under loaded firmware in Run (R318). -/
def showPin (s : State) : State :=
  faultPin s (s.flag Fd.SAF_STATUS_FB_DOWN || s.fld Fd.BOOT_STATE_STATE != 4 || s.fld Fd.PMU_STATE_STATE != 0 ||
    s.flag Fd.PMU_STATE_BUSY)

/-- Switch a power domain (R448). -/
def setDomain (s : State) (d : Nat) (on : Bool) : State := s.setRegBit (Reg.PMU_DOMAIN_ON (d / 32)) (d % 32) on

/-! ### Self-test and repair (R75 to R77) -/

/-- Is an array unavailable (R77)? -/
def bistBad (f : BistFacts) : Bool := decide (2 < f.rows.length) || f.paths != 0 || f.incomplete

/-- Rows bypassed for an array: those of the repair hints, then the failing ones that the self-test finds (R75). -/
def bistHinted (hints : List (Fin 256)) (f : BistFacts) : BistFacts :=
  { f with rows := (hints.take 2).eraseDups ++ f.rows.filter (fun r => !((hints.take 2).contains r)) }

/-- Repair an array, or make it unavailable, which raises its shared source (R76, R77, R418). A failing spare row below the last occupied row counts as a bypass: it adds to LATENCY
and takes an entry of SKEW. DESIGN CHOICE, log entry 111. -/
def bistArray (s : State) (n : Nat) (f : BistFacts) : State :=
  let bad := bistBad f
  let b := if bad then 0 else f.rows.length
  let rows := (f.rows.map (fun r => r.val)).mergeSort (fun x y => decide (x ≤ y))
  let result := if bad then 2 else if b = 0 then 0 else 1
  let skew := match rows with
    | [] => 0
    | [r] => 256 + r
    | r :: t :: _ => 256 + r + (256 + t) * 65536
  let s1 := s.setRegN (Reg.MA_BIST n) (f.paths.toNat * 256 + min f.rows.length 15 * 16 + result)
  let s2 := (s1.setRegN (Reg.MA_SKEW n) (if bad then 0 else skew)).setRegN (Reg.MA_LATENCY n) ((264 + b) * 65537)
  let s3 := s2.setFld (Fd.MA_STATUS_UNAVAILABLE n) (b2n bad)
  if bad then setDomain (raiseShared s3 (128 + n)) n false else s3

/-- What the self-test found on an array; one without a finding passes. -/
def bistOf (f : BootFacts) (n : Nat) : BistFacts :=
  ((f.arrays.find? (fun p => p.1.val == n)).map (fun p => p.2)).getD ⟨[], 0, false⟩

/-! ### The ROM (Table 17.3) -/

/-- Every granule of LPDDR5X is pending (Table 18.5). -/
def zeroLpddr (s : State) : State :=
  { s with mem := Tbl.clearRange s.mem 0 0x1E00000000, poison := s.poison.filter (fun a => decide (0x1E00000000 ≤ a)),
           upsets := s.upsets.filter (fun u => decide (0x1E00000000 ≤ u.1)),
           zeroing := [(0, 1966080)] }.setFld Fd.BOOT_ZERO_PENDING 1966080

/-- Boot stops (Table 17.2): the device is up for its host ports; the domains of the compute and of the fallback partition, 0 to 143
(Table 18.1), stay off. DESIGN CHOICE, log entry 51. -/
def bootHalt (s : State) (cause : Nat) : State :=
  let s1 := ((s.setRegN (Reg.PMU_DOMAIN_ON 0) 0).setRegN (Reg.PMU_DOMAIN_ON 1) 0).setRegN (Reg.PMU_DOMAIN_ON 2) 0
  let s2 := (s1.setRegN (Reg.PMU_DOMAIN_ON 3) 0).setRegN (Reg.PMU_DOMAIN_ON 4) (s.regN (Reg.PMU_DOMAIN_ON 4) / 65536 * 65536)
  (s2.setFld Fd.BOOT_STATE_STATE 5).setFld Fd.BOOT_STATE_HALT_CAUSE cause

/-- A section of the birth record of a size (Table 17.1): its last four bytes are the CRC-32 of those before (R429). -/
def sectionGood (b : List Byte) (size : Nat) : Bool := b.length == size && leAt b (size - 4) 4 == crc32 (b.take (size - 4))

/-- Are header and trims good (R429, R430)? The header begins with its magic and its format; where the manual gives its fields no offsets they
follow in its order. DESIGN CHOICE, log entry 6. -/
def birthOk (r : BirthRecord) : Bool :=
  sectionGood r.header 4096 && leAt r.header 0 4 == 0x44524942 && leAt r.header 4 4 == 1 && sectionGood r.trims 65536

/-- The serial number of the record's header. DESIGN CHOICE, log entry 6. -/
def birthSerial (r : BirthRecord) : Word := BitVec.ofNat 64 (leAt r.header 8 8)

/-- HMAC-SHA-256 (RFC 2104) under a key of at most 64 bytes. -/
def hmac256 (key m : List Byte) : List Byte :=
  let k := padTo 64 key
  sha256 (k.map (fun b => b ^^^ 0x5C) ++ sha256 (k.map (fun b => b ^^^ 0x36) ++ m))

/-- HKDF-SHA-256 (RFC 5869) of a secret with an info string and no salt: its first 16 bytes. DESIGN CHOICE, log entry 56. -/
def hkdf16 (secret : List Byte) (info : String) : List Byte :=
  (hmac256 (hmac256 (zeros 32) secret) (info.toList.map (fun c => BitVec.ofNat 8 c.toNat) ++ [1])).take 16

/-- The identity key pair of the die (R437): SK.seed, SK.prf, PK.seed, PK.root. -/
def identityPair (helper : List Byte) : List Byte :=
  let secret := padTo 32 (Config.pufSecret helper)
  let seed := hkdf16 secret "pk.seed"
  let sk := hkdf16 secret "sk.seed"
  sk ++ hkdf16 secret "sk.prf" ++ seed ++ padTo 16 (Config.slhRoot sk seed)

/-- The public key of an identity pair: PK.seed, PK.root. -/
def identityPublic (pair : List Byte) : List Byte := pair.drop 32

/-- The certificate of the record, where its section's CRC holds (R438). -/
def certOf (r : BirthRecord) : Option (List Byte) := if sectionGood r.cert 16384 then some (r.cert.take 8192) else none

/-- The identity that a boot derives: the helper data's CRC holds, and one of at most three evaluations yields the secret (R437). -/
def derivedIdentity (r : BirthRecord) (evaluations : List Bool) : Option (List Byte) :=
  if sectionGood r.helper 16384 && (evaluations.take 3).any id then some (identityPair r.helper) else none

/-- Identity and certificate (R430, R437, R438): CERT_OK needs a certificate whose public key is the derived one. Where the key lies
in the certificate the manual does not say: a certificate is taken as of that key when it holds it.
DESIGN CHOICE, log entry 52. DESIGN CHOICE, log entry 56. -/
def bootIdentity (s : State) (r : BirthRecord) (evaluations : List Bool) : State :=
  let pair := derivedIdentity r evaluations
  let cert := certOf r
  let ok := match pair, cert with
    | some k, some b => (List.range 8192).any (fun i => (b.drop i).take 32 == identityPublic k)
    | _, _ => false
  let s1 : State := { s with identity := pair, cert := cert.getD [] }
  (s1.setFld Fd.BOOT_STATE_IDENTITY_OK (b2n pair.isSome)).setFld Fd.BOOT_STATE_CERT_OK (b2n ok)

/-- The repair hints of the record for an array, none where the section's CRC fails (R430). -/
def hintsOf (r : BirthRecord) (n : Nat) : List (Fin 256) := if sectionGood r.hints 4096 then Config.repairHints r.hints n else []

/-- The birth record that a boot reads: the device's own, which nothing changes (R429). DESIGN CHOICE, log entry 6. -/
def birthOf (s : State) (f : BootFacts) : BirthRecord := s.birth.getD f.birth

/-- The boot of Table 17.3 up to "awaiting firmware". -/
def romBoot (s : State) (f : BootFacts) : State :=
  let r := birthOf s f
  let s0 : State := { s with phase := .running }
  if !f.norResponds then bootHalt s0 2
  else if !(birthOk r) then bootHalt { s0 with birth := some r } 1
  else
    let s1 := bootIdentity ({ s0 with birth := some r }.setReg Reg.BOOT_SERIAL (birthSerial r)) r f.evaluations
    let s2 := s1.setRegN Reg.PMU_AVS_TARGET (Config.trimTarget r.trims).toNat
    let s3 := (List.range 96).foldl (fun t n => bistArray t n (bistHinted (hintsOf r n) (bistOf f n))) s2
    let s4 := zeroLpddr (setDomain s3 160 false)
    let s5 := restartBeats (s4.setFld Fd.CAP_STATUS_VALID 1)
    showPin (s5.setFld Fd.BOOT_STATE_STATE 1)

/-! ### Cold and power-on reset (R453, R457, Table 18.5) -/

/-- What no reset or loss of supplies changes: host memories, the birth record in its NOR, the waiting commands, the count of free values. -/
def outside (s : State) (t : State) : State :=
  { t with host0 := s.host0, host1 := s.host1, birth := s.birth, pending := s.pending, freeCtr := s.freeCtr }

/-- Registers that a cold reset keeps: elapsed time, the log's numbers, the counts of Tables 18.9 and 18.10. -/
def coldKeeps (o : Nat) : Bool :=
  o == Reg.TSU_ELAPSED || o == Reg.LOG_NEXT_SEQ || o == Reg.LOG_STICKY_COUNT || o == Reg.LOG_STICKY_LOST ||
    o == Reg.PMU_RESET_CAUSE || o == Reg.SUP_SUPPLY_RESETS

/-- The device in cold reset: what Table 18.5 keeps, and the PERST# lines as they are, the rest at its reset values; the main log is empty, OLDEST_SEQ equal to NEXT_SEQ
(R346); THERM_N stays as it is until a power-on reset (R477). DESIGN CHOICE, log entry 55. DEDUCED, log entry 57. -/
def coldReset (s : State) (cause : Nat) : State :=
  let t := outside s { State.reset with
    regs := s.regs.filter (fun p => coldKeeps p.1), devTime := s.devTime, stickyLog := s.stickyLog, thermLow := s.thermLow,
    alertLow := s.alertLow, smbAddr := s.smbAddr, phase := .held, perst := s.perst, tapIr := s.tapIr, boundary := s.boundary }
  (t.setRegN Reg.PMU_RESET_CAUSE cause).setReg Reg.LOG_OLDEST_SEQ (s.reg Reg.LOG_NEXT_SEQ)

/-- POWER_ON_RESET (R457): supplies good and REFCLK running; nothing inside survives, and the ROM boots. DEDUCED, log entry 4. -/
def execPowerOnReset (f : BootFacts) (s : State) : Host.Outcome State Fault Refusal :=
  .next (romBoot (outside s { State.reset with smbAddr := f.smbAddr.val }) f)

/-- A cold reset by PERST# of both ports (R417, Table 16.3): a record in the sticky log, which the reset keeps; both lines stay asserted.
Table 13.6 names no kind for it: it is recorded as a compute reset of no job, its DETAIL the cause. DESIGN CHOICE, log entry 96. -/
def perstReset (s : State) : State := { coldReset (s.log 0x0C 0 0x160000 0 2) 2 with perst := [0, 1] }

/-- COLD_RESET (R453): SYS_RST_N low (cause 1) or PERST# on both ports (cause 2). It also ends the state that a stopped REFCLK
leaves (R470). Without supplies, or in a cold reset already, nothing changes. -/
def execColdReset (perst : Bool) (s : State) : Host.Outcome State Fault Refusal :=
  match s.phase with
  | .running | .clockLost => .next (if perst then perstReset s else coldReset s 1)
  | .held | .off => .next s

/-- COLD_RESET_RELEASE (R457): the cold reset ends and the ROM boots, not before the PERST# line of a port is released (Table 17.3). -/
def execColdResetRelease (f : BootFacts) (s : State) : Host.Outcome State Fault Refusal :=
  match s.phase with
  | .held => .next (if s.perst.contains 0 && s.perst.contains 1 then s else romBoot s f)
  | .running | .off => .next s
  | .clockLost => .fault .clockLost

/-- SUPPLY_REMOVAL (R456): Off; the always-on domain loses everything too. -/
def execSupplyRemoval (s : State) : Host.Outcome State Fault Refusal := .next (outside s { State.reset with phase := .off })

/-- REFCLK_STOP (R470): every island loses its clock. -/
def execRefclkStop (s : State) : Host.Outcome State Fault Refusal :=
  match s.phase with
  | .running => .next { s with phase := .clockLost }
  | .held | .off => .next s
  | .clockLost => .fault .clockLost

/-! ### FW_LOAD (R433, R441) -/

/-- First address of the staging area, in the firmware range (R444). -/
def stagingBase : Nat := 0x1DF0000000

/-- Is a section of the table well formed: its place, its largest length (Table 17.4)? DESIGN CHOICE, log entry 54. -/
def sectionOk (h : List Byte) (len i : Nat) : Bool :=
  let t := leAt h (0x20 + 16 * i) 4
  let off := leAt h (0x24 + 16 * i) 4
  let n := leAt h (0x28 + 16 * i) 4
  leAt h (0x2C + 16 * i) 4 == 0 &&
    (match t with
     | 0 => true
     | 1 => decide (n ≤ 448 * 1024)
     | 2 => decide (n ≤ 1024 * 1024)
     | 3 => decide (n ≤ 4 * 1024 * 1024)
     | 4 | 5 => decide (n ≤ 8 * 1024 * 1024)
     | _ => false) && (t == 0 || (decide (256 ≤ off) && decide (off + n ≤ len)))

/-- Bytes of the sections of a type. -/
def sectionBytes (h : List Byte) (t : Nat) : Nat :=
  ((List.range 6).map (fun i => if leAt h (0x20 + 16 * i) 4 = t then leAt h (0x28 + 16 * i) 4 else 0)).sum

/-- The section of a type (Table 17.4). -/
def sectionOf (img : List Byte) (t : Nat) : List Byte :=
  match (List.range 6).find? (fun i => leAt img (0x20 + 16 * i) 4 == t) with
  | some i => (img.drop (leAt img (0x24 + 16 * i) 4)).take (leAt img (0x28 + 16 * i) 4)
  | none => []

/-- The control memories after an install: Shaeth from bank 0, Rilxitu from bank 2 (R433, R435). DESIGN CHOICE, log entry 116. -/
def controlImage (img : List Byte) : List Host.Cell := memWrite (memWrite [] 0 (sectionOf img 1)) 0x80000 (sectionOf img 2)

/-- Step 2 of R433: magic, format, target, signed length, section table, reserved fields. DESIGN CHOICE, log entry 54. -/
def fwHeaderOk (h : List Byte) (len : Nat) : Bool :=
  let l := leAt h 8 4
  leAt h 0 4 == 0x57465942 && leAt h 4 4 == 1 && leAt h 0x14 4 == 0xB09624 && decide (4096 ≤ l) && decide (l ≤ 16 * 2 ^ 20) &&
    decide (l + 7856 ≤ len) && (List.range 6).all (sectionOk h l) &&
    [1, 2, 3, 4, 5].all (fun t => ((List.range 6).filter (fun i => leAt h (0x20 + 16 * i) 4 == t)).length == 1) &&
    decide (sectionBytes h 4 + sectionBytes h 5 ≤ 8 * 1024 * 1024) && (h.drop 0xA0).take 0x60 == zeros 0x60

/-- Steps 3 and 4 of R433: the key's hash and the signature. -/
def fwSignatureOk (img : List Byte) (l : Nat) : Bool :=
  let pk := (img.drop 0x80).take 32
  sha256 pk == Config.rootHash && Config.slhVerify .small pk (img.take l) ((img.drop l).take 7856)

/-- The customer key of an entry of the key table (R441). -/
def customerKey (e : List Byte) : CustomerKey := ⟨leAt e 0 1, if leAt e 1 1 = 0 then .small else .fast, e.drop 16⟩

/-- The customer key table behind the signature (R441): REQUIRE and the keys; none where it is malformed. -/
def keyTable (bs : List Byte) : Option (Bool × List CustomerKey) :=
  if bs.isEmpty then some (false, [])
  else
    let n := leAt bs 4 4
    let entry (i : Nat) : List Byte := (bs.drop (16 + 48 * i)).take 48
    let idx := (List.range n).map (fun i => leAt (entry i) 0 1)
    if bs.length < 16 ∨ leAt bs 0 4 ≠ 0x544B5942 ∨ 16 < n ∨ bs.length ≠ 16 + 48 * n ∨ 2 ≤ leAt bs 8 8 then none
    else if !(idx.all (fun k => decide (1 ≤ k) && decide (k ≤ 16))) || !(decide idx.Nodup) then none
    else if !((List.range n).all (fun i => decide (leAt (entry i) 1 1 ≤ 1) && leAt (entry i) 2 8 == 0 && leAt (entry i) 10 6 == 0)) then
      none
    else some (bitOf (leAt bs 8 8) 0, (List.range n).map (fun i => customerKey (entry i)))

/-- Show a digest in eight words. -/
def showDigest (s : State) (d : List Byte) : State :=
  (List.range 8).foldl (fun t i => t.setRegN (Reg.BOOT_FW_DIGEST i) (leAt d (4 * i) 4)) s

/-- First byte of the firmware range, the top 256 MiB of LPDDR5X data (R444). -/
def firmwareBase : Nat := 0x1DF0000000

/-- The history range of FFD that an image names: 16 MiB, aligned, in the firmware range (R304). -/
def histRange (f : FwFacts) : Nat := firmwareBase + f.histBase / 2 ^ 24 % 16 * 2 ^ 24

/-- The soft buffers of the fallback: a range of the firmware range (R182, R444). -/
def softRange (f : FwFacts) : Nat := firmwareBase + f.softBase % 2 ^ 28 / 4096 * 4096

/-- Bytes of that range. -/
def softBytesOf (f : FwFacts) : Nat := min (f.softLen % 2 ^ 28) (firmwareBase + 2 ^ 28 - softRange f)

/-- Who writes the fallback partition's memories (R26): SC, SAF, FHP0 to FHP3, the partition's own DSC and LDPC units, FFD. -/
def fallbackWriters : Nat := ([0, 7, 12, 13, 14, 15, 21, 22, 41].map (fun o => 2 ^ o)).sum

/-- The fallback partition's firewall region (R26): the memories of DSC12 to DSC15, FFD's history, the soft buffers. A region of FW is one
range, so there are three of them. DESIGN CHOICE, log entry 54. -/
def fallbackRegions (f : FwFacts) : List (Nat × Nat × Nat × Nat) :=
  [(dscBase 12 / 4096, dscBase 16 / 4096 - 1, f.fallbackR.toNat, fallbackWriters),
   (histRange f / 4096, histRange f / 4096 + 4095, f.fallbackR.toNat, fallbackWriters),
   (softRange f / 4096, (softRange f + max 1 (softBytesOf f) - 1) / 4096, f.fallbackR.toNat, fallbackWriters)]

/-- The range of the known-answer content, 8 MiB of the firmware range (R329, R444). -/
def katRange (f : FwFacts) : Nat := firmwareBase + f.katBase % 2 ^ 28 / 4096 * 4096

/-- Shaeth's regions for its own memory: the known-answer content, which only origin 0 writes and origin 9 reads (R329), and the rest of the
firmware range, which is Shaeth's alone (R444). DESIGN CHOICE, log entry 54. -/
def firmwareRegions (f : FwFacts) : List (Nat × Nat × Nat × Nat) :=
  [(katRange f / 4096, katRange f / 4096 + 2047, 2 ^ 9, 1), (firmwareBase / 4096, firmwareBase / 4096 + 65535, 1, 1)]

/-- The regions of the control space (Table 19.1): FW, CAP, the rest. -/
def controlRegions : List (Nat × Nat × Nat × Nat) :=
  [((ctlBase + 0xB00000) / 4096, (ctlBase + 0xB0FFFF) / 4096, 1, 1), (ctlBase / 4096, (ctlBase + 0xFFFF) / 4096, 0x7F, 0),
   (ctlBase / 4096, (ctlBase + 0x3FFFFFF) / 4096, 0x7F, 0x7F)]

/-- Shaeth's firewall at its start (R309): regions 0 to 63, the fallback partition's among them, and the default masks, locked. -/
def fwRegions (s : State) (f : FwFacts) : State :=
  let s1 := (((controlRegions ++ fallbackRegions f ++ firmwareRegions f ++ f.regions).take 64).zipIdx).foldl (fun (t : State) (r : (Nat × Nat × Nat × Nat) × Nat) =>
    let t1 := (t.setFld (Fd.FW_REGION_BASE_ADDR r.2) r.1.1).setFld (Fd.FW_REGION_LIMIT_ADDR r.2) r.1.2.1
    (t1.setRegN (Reg.FW_REGION_RMASK r.2) r.1.2.2.1).setRegN (Reg.FW_REGION_WMASK r.2) r.1.2.2.2) s
  ((s1.setReg Reg.FW_DEFAULT_RMASK f.defaultR).setReg Reg.FW_DEFAULT_WMASK f.defaultW).setFld Fd.FW_LOCK_LOCKED 1

/-- A load that fails (R433): nothing is installed. DESIGN CHOICE, log entry 51. -/
def fwFail (s : State) (c : Cmd) : State :=
  refuse ((s.setFld Fd.BOOT_STATE_STATE 1).bump Reg.BOOT_FW_AUTH_FAIL) c St.authFailed 0

/-- Shaeth loads the fallback programs into DSC12 to DSC15, one after the other, and the known-answer content: kernels, then results (R433 step 5,
R329). DESIGN CHOICE, log entry 54. -/
def loadContent (s : State) (img : List Byte) (f : FwFacts) : State :=
  (s.putBytes (dscBase 12) (sectionOf img 3)).putBytes (katRange f) (sectionOf img 4 ++ sectionOf img 5)

/-- Install an image (R433 step 5): its numbers, its clock plan, its keys, the firewall, its content; the firmware starts. -/
def fwInstall (s : State) (img : List Byte) (l : Nat) (plan : Nat) (keys : Bool × List CustomerKey) (table : List Byte)
    (f : FwFacts) : State :=
  let s1 := (s.setRegN Reg.BOOT_FW_SVN (leAt img 0x0C 4)).setRegN Reg.BOOT_FW_VERSION (leAt img 0x10 4)
  let s2 := showDigest s1 (sha256 (img.take l))
  let s3 := (s2.setFld Fd.BOOT_KEYS_REQUIRE (b2n keys.1)).setFld Fd.BOOT_KEYS_COUNT keys.2.length
  let s4 : State := { s3 with keys := keys.2, keyDigest := if table.isEmpty then [] else sha256 table }
  let s5 := (s4.setFld Fd.BOOT_STATE_PLAN plan).setFld Fd.DET_CTRL_PLAN plan
  let s6 := (s5.setFld Fd.CAP_STATUS_PLAN plan).setFld Fd.CAP_STATUS_PLAN_V 1
  (({ fwRegions (loadContent s6 img f) f with fbSoftBase := softRange f, fbSoftLen := softBytesOf f, ctlMem := controlImage img, ctlPoison := [] }).setRegN Reg.FFD_HIST_BASE (histRange f)).setFld Fd.BOOT_STATE_STATE 3

/-- FW_LOAD (R433): the copy, the checks on the copy, the start. The reply waits for FIRMWARE_READY.
DEDUCED, log entry 18. DESIGN CHOICE, log entry 54. -/
def fwLoadBody (f : FwFacts) (c : Cmd) (s : State) : State :=
  let p := c.pkt
  let len := p.p1.toNat
  if s.fld Fd.BOOT_STATE_STATE ≠ 1 then refuse s c St.busy 0
  else if 2 ^ 52 ≤ p.p0.toNat ∨ addrSpace p.p0 = 0 then refuse s c St.badParam 1
  else if extraBits p.p2 1 then refuse s c St.badParam 3
  else match unusedFrom p 3 with
    | some d => refuse s c St.badParam d
    | none =>
      if len < 256 ∨ 16 * 2 ^ 20 + 7856 + 784 < len then fwFail s c
      else if spaceQuiet s (addrSpace p.p0) then setCmdPhase s c .fetched
      else
        let a := spaceRead (s.setFld Fd.BOOT_STATE_STATE 2) 0 (addrSpace p.p0) (addrBits p.p0) len
        let s1 := if a.poisoned then a.state else a.state.putBytes stagingBase a.bytes
        let l := leAt a.bytes 8 4
        if a.poisoned || !(fwHeaderOk a.bytes len) then fwFail s1 c
        else if !(fwSignatureOk a.bytes l) then fwFail s1 c
        else
          let table := a.bytes.drop (l + 7856)
          match keyTable table with
          | none => refuse (s1.setFld Fd.BOOT_STATE_STATE 1) c St.badParam 2
          | some keys => fwInstall s1 a.bytes l (p.p2.toNat % 2) keys table f

/-- FW_LOAD (R433). DEDUCED, log entry 4. -/
def execFwLoad (p : Pkt) (f : FwFacts) (s : State) : Host.Outcome State Fault Refusal := up s (hostCmd 0x70 p (fwLoadBody f))

/-- Arrays that take part in known-answer tests: neither unavailable nor fenced. -/
def testedArrays (s : State) : List Nat := (List.range 96).filter (mappable s)

/-- Every array has passed a year (R328), fallback partition and FFD run. -/
def fallbackStarts (s : State) : State :=
  let s1 := (testedArrays s).foldl (fun t n => t.setFld (Fd.KAT_ARRAY_PASSED n) 0xFFF) s
  let s2 := [12, 13, 14, 15].foldl (fun (t : State) n => t.setFld (Fd.DSC_STATUS_RUN n) 15) s1
  (s2.setFld Fd.FFD_STATUS_RUN 1).setFld Fd.FFD_STATUS_HIST_V 1

/-- FIRMWARE_READY (R434): STATE 4 and the reply OK; or the start failed: halted with cause 3, answered INTERNAL. DESIGN CHOICE, log entry 51. -/
def execFirmwareReady (ok : Bool) (s : State) : Host.Outcome State Fault Refusal :=
  up s (fun s =>
    if s.fld Fd.BOOT_STATE_STATE ≠ 3 then s
    else if ok then
      finishWhere (showPin ((fallbackStarts s).setFld Fd.BOOT_STATE_STATE 4)) 0x70 (fun _ => true) St.ok 0 0 0
    else finishWhere (showPin (bootHalt s 3)) 0x70 (fun _ => true) St.internal 0 0 0)

/-! ### ATTEST (R439) -/

/-- A job's entry of the report. -/
def attestJob (s : State) (j : Job) : List Byte :=
  leBytes 1 j.handle ++ leBytes 1 (s.jobState j) ++ leBytes 1 (s.jobPort j) ++ leBytes 1 j.key ++ zeros 4 ++ sha256 j.image.signedBytes

/-- The job entries by index of JOB[i], an unused one 0. -/
def attestJobs (s : State) : List Byte :=
  (List.range 9).flatMap (fun i =>
    match s.jobs.find? (fun j => j.entry == i) with
    | some j => attestJob s j
    | none => zeros 40)

/-- The digest of the in-force bank of every season window, arrays then clusters. -/
def attestWindows (s : State) : List Byte :=
  let bank := s.regN Reg.CAL_SEASON % 2
  sha256 ((List.range 96).flatMap (fun n => s.bankBytes n bank 0 (winBytes s n)) ++
    (List.range 12).flatMap (fun d => s.bankBytes (96 + d) bank 0 (s.fld (Fd.DSC_SWIN_LEN d) * 64)))

/-- Flags of the report. DESIGN CHOICE, log entry 53. -/
def attestFlags (s : State) : Nat :=
  s.fld Fd.SAF_STATUS_LOCKED + 2 * s.fld Fd.SAF_STATUS_FB_DOWN + 4 * s.fld Fd.DET_CTRL_MODE + 8 * s.fld Fd.BOOT_STATE_PLAN +
    16 * s.fld Fd.CAL_STATUS_EXPELLED + 32 * s.fld Fd.BOOT_KEYS_REQUIRE

/-- Report bytes 0x000 to 0x08F. -/
def attestHead (s : State) (nonce : List Byte) : List Byte :=
  leBytes 4 0x54415942 ++ leBytes 2 1 ++ leBytes 2 (attestFlags s) ++ leBytes 4 768 ++ leBytes 4 26048 ++ padTo 32 nonce ++
    leBytes 8 (s.regN Reg.BOOT_SERIAL) ++ leBytes 8 s.time64.toNat ++
    (List.range 8).flatMap (fun i => leBytes 4 (s.regN (Reg.BOOT_FW_DIGEST i))) ++ leBytes 4 (s.regN Reg.BOOT_FW_SVN) ++
    leBytes 4 (s.regN Reg.BOOT_FW_VERSION) ++ leBytes 4 (s.regN Reg.SAF_CFG_CRC) ++ leBytes 4 (s.regN Reg.CAP_EPOCH) ++
    padTo 32 s.keyDigest

/-- Report bytes 0x0B0 to 0x2FF. DESIGN CHOICE, log entry 53. -/
def attestTail (s : State) (key : List Byte) : List Byte :=
  leBytes 4 (s.regN Reg.CAL_SEASON) ++ leBytes 4 (if s.flag Fd.CAL_STATUS_STAGED_V then s.regN Reg.CAL_STAGED else 0) ++
    attestWindows s ++ (List.range 8).flatMap (fun i => leBytes 4 (s.regN (Reg.CAL_DIGEST i))) ++ zeros 8 ++ attestJobs s ++
    padTo 32 (identityPublic key) ++ zeros 0x78

/-- The report: body, identity signature, certificate. The digest of the repair and fence maps is free: the manual gives the maps no
byte layout. -/
def attestReport (s : State) (nonce key : List Byte) : List Byte × State :=
  let (maps, s1) := freeBytes s 32
  let body := attestHead s nonce ++ maps ++ attestTail s key
  (body ++ padTo 17088 ((Config.slhSign key body).take 17088) ++ padTo 8192 s.cert, s1)

/-- ATTEST (R439). -/
def attestBody (c : Cmd) (s : State) : State :=
  let p := c.pkt
  if 2 ^ 52 ≤ p.p0.toNat then refuse s c St.badParam 1
  else if 2 ^ 52 ≤ p.p1.toNat then refuse s c St.badParam 2
  else match unusedFrom p 3 with
    | some d => refuse s c St.badParam d
    | none =>
      match virtRefusal s p.port.val p.p0 1, virtRefusal s p.port.val p.p1 2 with
      | some (st, d), _ => refuse s c st d
      | none, some (st, d) => refuse s c st d
      | none, none =>
        if p.p2.toNat < 26048 then finishCmd s c St.badParam 3 (BitVec.ofNat 64 26048) 0
        else match s.identity with
          | none => refuse s c St.authFailed 0
          | some key =>
            if !(s.flag Fd.BOOT_STATE_CERT_OK) then refuse s c St.authFailed 0
            else
              if spaceQuiet s (addrSpace p.p0) || spaceQuiet s (addrSpace p.p1) then setCmdPhase s c .fetched else
              let n := spaceRead s 0 (addrSpace p.p0) (addrBits p.p0) 32
              if n.fault.isSome || n.poisoned then refuse n.state c St.badParam 1
              else
                let (r, s1) := attestReport n.state n.bytes key
                let w := spaceWrite s1 0 (addrSpace p.p1) (addrBits p.p1) r
                if w.fault.isSome then refuse w.state c St.badParam 2
                else finishCmd w.state c St.ok 0 (BitVec.ofNat 64 26048) 0

/-- ATTEST (R439). -/
def execAttest (p : Pkt) (s : State) : Host.Outcome State Fault Refusal := up s (hostCmd 0x71 p attestBody)

end Sys2Proof.Machine
end

