-- ==== Sys2Proof/Machine/Fronthaul.lean ====
section
/-! DEFINITION. Fronthaul reception (R350 to R363): frames, the classifier, the ingress queue, eCPRI and split 7.2x messages, the
host frame ring; links; writes of the FHP registers. The byte layouts of Ethernet, eCPRI 2.0 and O-RAN.WG4.CUS messages are those
standards' (PRESUMED, log entry 40). -/

namespace Sys2Proof.Machine

/-! ### The classifier (R358, R359) -/

/-- MACs of an FHP in its MODE (R350). -/
def macCount (s : State) (n : Nat) : Nat :=
  match s.fld (Fd.FHP_CFG_MODE n) with
  | 0 => 1
  | 1 => 2
  | _ => 4

/-- Bytes before the EtherType that follows any VLAN tag. PRESUMED, log entry 40. -/
def etherAt (f : List Byte) : Nat := if beNat ((f.drop 12).take 2) = 0x8100 then 16 else 12

/-- The 16-bit field at OFF; a field past the frame's end is free (DESIGN CHOICE, log entry 2). -/
def classField (s : State) (f : List Byte) (off : Nat) : Nat × State :=
  let b := (f.drop (etherAt f + off)).take 2
  if b.length = 2 then (beNat b, s)
  else
    let (v, t) := s.free
    (v.toNat % 65536, t)

/-- The VLAN TCI; an untagged frame reads 0xFFFF (Table 14.2). -/
def vlanTci (f : List Byte) : Nat := if etherAt f = 16 then beNat ((f.drop 14).take 2) else 0xFFFF

/-- Run the program from an instruction: the PARAM of a DELIVER, none without one. -/
def classify (n : Nat) (f : List Byte) : Nat → State → Nat → Option Nat × State
  | 0, s, _ => (none, s)
  | fuel + 1, s, pc =>
    if 64 ≤ pc then (none, s)
    else
      let w := s.regN (Reg.FHP_CLS n pc)
      let op := bitsOf w 63 60
      if op = 8 then (some (w % 1024), s)
      else
        let (v, t) := if op = 3 then (vlanTci f, s) else classField s f (bitsOf w 55 48)
        let eq := decide (v &&& bitsOf w 47 32 = bitsOf w 31 16)
        let taken := if op = 2 then !eq else eq
        classify n f fuel t (if taken then bitsOf w 15 10 else pc + 1)

/-- May an instruction stand in a program that is enabled (R359)? -/
def classOk (w : Nat) : Bool :=
  let op := bitsOf w 63 60
  [1, 2, 3, 8].contains op && bitsOf w 59 56 == 0 && (op != 8 || decide (w % 8 ≤ 4))

/-! ### eCPRI and U-plane messages (R352 to R355) -/

/-- A part of `w` bits out of 24, the first most significant. -/
def partOf (w n i : Nat) : Int := signed w (n / 2 ^ (w * (23 - i)) % 2 ^ w)

/-- PRBs of a payload: exponent and 24 parts each as 16-bit values, and the bytes left; none where they do not suffice (R355). -/
def readPrbs (bfp : Bool) (w : Nat) : Nat → List Byte → Option (List Int × List Int × List Byte)
  | 0, bs => some ([], [], bs)
  | k + 1, bs =>
    let hd := if bfp then 1 else 0
    if bs.length < hd + 3 * w then none
    else
      let e : Int := if bfp then ((leAt bs 0 1 % 16 : Nat) : Int) - (16 - w : Nat) else 0
      let n := beNat ((bs.drop hd).take (3 * w))
      let ps := (List.range 24).map (fun i => partOf w n i * 2 ^ (16 - w))
      match readPrbs bfp w k (bs.drop (hd + 3 * w)) with
      | some (es, qs, rest) => some (e :: es, ps ++ qs, rest)
      | none => none

/-- What the sections of a message come to: first PRB, count, exponents and parts of each good one; how many are bad. -/
structure Sections where
  good : List (Nat × Nat × List Int × List Int)
  bad : Nat

/-- The sections of a U-plane message. One whose length cannot be known ends the message: a compression beyond those of a fixed length per PRB.
PRESUMED, log entry 40. -/
def readSections (s : State) (c : Nat) : Nat → List Byte → Sections
  | 0, _ => ⟨[], 0⟩
  | fuel + 1, bs =>
    let dyn := s.flag (Fd.FHP0_CAR_CFG_DYNHDR c)
    let hd := if dyn then 6 else 4
    if bs.isEmpty then ⟨[], 0⟩
    else if bs.length < hd then ⟨[], 1⟩
    else
      let h := beNat (bs.take 4)
      let iqw := if dyn then leAt bs 4 1 / 16 else s.fld (Fd.FHP0_CAR_CFG_IQW c)
      let meth := if dyn then leAt bs 4 1 % 16 else s.fld (Fd.FHP0_CAR_CFG_COMP c)
      let w := if iqw = 0 then 16 else iqw
      let ncar := s.fld (Fd.FHP0_CAR_CFG_NPRB c)
      let prb0 := bitsOf h 17 8
      let n := if h % 256 = 0 then ncar else h % 256
      if !((meth = 0 ∧ w = 16) ∨ (meth = 1 ∧ 8 ≤ w)) then
        if 4 < meth then ⟨[], 1⟩
        else
          let len := n * (3 * w + (if meth = 1 ∨ meth = 2 ∨ meth = 3 then 1 else 0))
          if bs.length < hd + len then ⟨[], 1⟩
          else let r := readSections s c fuel (bs.drop (hd + len)); ⟨r.good, r.bad + 1⟩
      else match readPrbs (meth == 1) w n (bs.drop hd) with
        | none => ⟨[], 1⟩
        | some (es, ps, rest) =>
          let r := readSections s c fuel rest
          if bitOf h 19 || bitOf h 18 || decide (ncar < prb0 + n) then ⟨r.good, r.bad + 1⟩
          else ⟨(prb0, n, es, ps) :: r.good, r.bad⟩

/-- Is a section of a ticked or coming slot early, late (R362)? -/
def arrivalOf (s : State) (c abs j l at_ : Nat) : Bool × Bool :=
  match s.rxTicks.find? (fun p => p.1 == c && p.2.1 == abs) with
  | some (_, _, t0) =>
    (decide (pastBound s c j l (s.fld (Fd.FHP0_CAR_RXWIN_OPEN c)) at_ t0 < 0),
     decide (0 < pastBound s c j l (s.fld (Fd.FHP0_CAR_RXWIN_CLOSE c)) at_ t0))
  | none =>
    let old := match (s.car c).lastAbs with
      | some a => decide (abs ≤ a)
      | none => false
    (!old, old)

/-- The absolute slot that a frame number modulo 256 and a slot within the frame name: the nearest one. -/
def nearestSlot (s : State) (c frame j : Nat) : Nat :=
  let spf := slotsPerFrame s c
  let f := absSlot s c s.devTime / spf
  let d := (frame + 256 - f % 256) % 256
  (if d < 128 then f + d else f + d - 256) * spf + j

/-- One good section, on time or early: FFD's verdict, then the slot. DESIGN CHOICE, log entry 79. -/
def takeSection (p c abs j : Nat) (inSeq early : Bool) (s : State) (r : RxSect) : State :=
  let s0 := if early then s.bump (Reg.FHP_RX_EARLY p) else s
  let (v, s1) := ffdExamine s0 r j (abs / slotsPerFrame s c) inSeq
  let q := { r with bad := v != 0 }
  match (s1.car c).slots.find? (fun x => x.abs == abs) with
  | some x => placeSect s1 c x.id q
  | none =>
    if s1.rxTicks.any (fun t => t.1 == c && t.2.1 == abs) && !(s1.tickPend.any (fun t => t.carrier == c && t.abs == abs)) then s1
    else { s1 with rxEarly := s1.rxEarly ++ [(c, abs, q)] }

/-- Does a section's filterIndex suit its channel: 1 to 4 where a PRACH allocation of its slot lies, 0 where another does (R353)? A slot whose entry
is not latched names no channel. DESIGN CHOICE, log entry 79. -/
def filterFits (s : State) (c abs sym filter prb0 nprb : Nat) : Bool :=
  match (s.car c).slots.find? (fun x => x.abs == abs) with
  | none => true
  | some x =>
    let here := x.allocs.filter (fun a => decide (1 ≤ a.type) && decide (a.type ≤ 4) && decide (a.sym0 ≤ sym) && decide (sym < a.sym0 + a.nsym) &&
      decide (a.prb0 < prb0 + nprb) && decide (prb0 < a.prb0 + a.nprb))
    here.isEmpty || here.any (fun a => (a.type == 3) == (filter != 0))

/-- A U-plane message of carrier c from port p, after its eCPRI header: PC_ID, SEQ_ID, application header, sections (R353).
PRESUMED, log entry 40. DESIGN CHOICE, log entry 79. -/
def uplaneMessage (s : State) (p c at_ : Nat) (m : List Byte) : State :=
  let eaxc := beNat (m.take 2)
  let seq := leAt m 2 1
  let b := m.drop 4
  let h0 := leAt b 0 1
  let frame := leAt b 1 1
  let sub := leAt b 2 1 / 16
  let sl := leAt b 2 1 % 16 * 4 + leAt b 3 1 / 64
  let sym := leAt b 3 1 % 64
  let mu := s.fld (Fd.TSU_CAR_MU c)
  let j := sub * 2 ^ mu + sl
  let ok := s.flag (Fd.FHP0_CAR_CFG_V c) && !(bitOf h0 7) && bitsOf h0 6 4 == 1 && decide (h0 % 16 ≤ 4) && decide (sub < 10) &&
    decide (sl < 2 ^ mu) && decide (sym < slotSymbols s c) && decide (8 ≤ m.length)
  let r0 := readSections s c 4096 (b.drop 4)
  let abs0 := nearestSlot s c frame j
  let fits := r0.good.filter (fun g => filterFits s c abs0 sym (h0 % 16) g.1 g.2.1)
  let r : Sections := ⟨fits, r0.bad + (r0.good.length - fits.length)⟩
  if !ok then s.bumpBy (Reg.FHP_SECT_BAD p) (max 1 (r.good.length + r.bad))
  else
    let s1 := s.bumpBy (Reg.FHP_SECT_BAD p) r.bad
    let abs := nearestSlot s1 c frame j
    let (early, late) := arrivalOf s1 c abs j sym at_
    if late then s1.bumpBy (Reg.FHP_RX_LATE p) r.good.length
    else if r.good.isEmpty then s1
    else
      let key := 65536 * p + eaxc
      let prev := Tbl.get (fun _ => 0) s1.ffdSeq key
      let inSeq := decide (prev = 0) || seq == prev % 256
      let s2 : State := { s1 with ffdSeq := Tbl.set (fun _ => 0) s1.ffdSeq key (seq + 1) }
      (r.good.map (fun g => (⟨p, eaxc, ruPort s2 p eaxc, sym, g.1, g.2.1, g.2.2.1, g.2.2.2, false⟩ : RxSect))).foldl
        (takeSection p c abs j inSeq early) s2

/-- The eCPRI messages of an UPLANE frame, concatenated at 4-byte boundaries (R352, R360). PRESUMED, log entry 40. -/
def ecpriMessages (p c at_ : Nat) : Nat → List Byte → State → State
  | 0, _, s => s
  | fuel + 1, m, s =>
    if m.length < 4 then s.bump (Reg.FHP_ECPRI_BAD p)
    else
      let size := beNat ((m.drop 2).take 2)
      let body := (m.drop 4).take size
      let sub := leAt body 3 1
      let good := leAt m 0 1 / 16 == 1 && leAt m 1 1 == 0 && bitOf sub 7 && sub % 128 == 0 && decide (4 ≤ body.length)
      let s1 := if good then uplaneMessage s p c at_ body else s.bump (Reg.FHP_ECPRI_BAD p)
      if bitOf (leAt m 0 1) 0 then ecpriMessages p c at_ fuel (m.drop (4 + (size + 3) / 4 * 4)) s1 else s1

/-! ### The ingress queue (R363) -/

/-- The frames of an ingress queue. -/
def ingressQ (s : State) (p : Nat) : List RxFrame := Tbl.get (fun _ => []) s.ingress p

/-- Set an ingress queue. -/
def setIngress (s : State) (p : Nat) (q : List RxFrame) : State := { s with ingress := Tbl.set (fun _ => []) s.ingress p q }

/-- Bytes that frames hold. -/
def heldBytes (q : List RxFrame) : Nat := (q.map (fun f => f.size)).sum

/-- Frames leave the head until the arriving one fits. -/
def dropOldest (size : Nat) : List RxFrame → List RxFrame × Nat
  | [] => ([], 0)
  | f :: q => if heldBytes (f :: q) + size ≤ 524288 then (f :: q, 0) else
    let r := dropOldest size q
    (r.1, r.2 + 1)

/-- An UPLANE frame arrives at the ingress queue of FHP p. -/
def ingressPut (s : State) (p : Nat) (f : RxFrame) : State :=
  let q := ingressQ s p
  if heldBytes q + f.size ≤ 524288 then setIngress s p (q ++ [f])
  else if s.flag (Fd.FHP_CFG_DROP p) then
    let r := dropOldest f.size q
    (setIngress s p (r.1 ++ [f])).bumpBy (Reg.FHP_RX_DROP p) r.2
  else s.bump (Reg.FHP_RX_DROP p)

/-- The writes of the frames that wait are accepted: each goes on to FFD and its slot. -/
def drainIngress (s : State) : State :=
  (List.range 4).foldl (fun (t : State) p =>
    (ingressQ t p).foldl (fun (u : State) (f : RxFrame) => ecpriMessages p f.carrier f.at_ (f.body.length / 4 + 1) f.body u) (setIngress t p [])) s

/-! ### Frames (R351, R359 to R361, R396) -/

/-- The slot of the host frame ring is written (R361). -/
def hostFrame (s : State) (p : Nat) (f : List Byte) : State :=
  let h := s.fld (Fd.FHP_HR_HEAD_INDEX p)
  if (h + 1) % 256 = s.fld (Fd.FHP_HR_TAIL_INDEX p) then s.bump (Reg.FHP_HOST_DROP p)
  else
    let trunc := decide (2040 < f.length)
    let hdr := leBytes 8 (f.length % 2 ^ 14 + b2n trunc * 2 ^ 15)
    let s1 := busWrite s (12 + p) (s.fld (Fd.FHP_HRING_ADDR p) * 4096 + 2048 * h) (hdr ++ f.take 2040)
    s1.setFld (Fd.FHP_HR_HEAD_INDEX p) ((h + 1) % 256)

/-- The low 64 bits of a device time in 2^-48 ns. -/
def time64At (s : State) (t : Nat) : Nat := { s with devTime := t }.time64.toNat

/-- A PTP frame is timestamped and delivered to the TSU (R396). -/
def ptpFrame (s : State) (m : Nat) (f : List Byte) : State :=
  let t := (s.devTime : Int) + signed 32 (s.regN (Reg.TSU_ASYM m)) * 2 ^ 32
  { s with tsu := { s.tsu with ptpIn := some (m, time64At s t.toNat, f) } }

/-- The time of a one-way delay measurement: 48 bits of seconds, 32 of nanoseconds. PRESUMED, log entry 40. -/
def delayTime (s : State) : List Byte := beBytes 6 s.timeSec ++ beBytes 4 s.timeNs

/-- The TSU answers a one-way delay measurement (R392): a request, or the follow-up of one, with a response that carries its ID and the time it
came; a remote request with a request that carries the time it leaves. PRESUMED, log entry 40. -/
def delayFrame (s : State) (p m : Nat) (f : List Byte) : State :=
  let b := f.drop (etherAt f + 2)
  let action := leAt b 5 1
  let back := if action = 0 ∨ action = 5 then some 2 else if action = 3 ∨ action = 4 then some 0 else none
  if leAt b 1 1 = 5 ∧ back.isSome then
    let tci := if etherAt f = 16 then vlanTci f else 0
    let out : TxFrame := ⟨2, tci / 8192, tci % 4096, 0, 0, 0, 0, 0, 0, true, 0, 0, [], [],
      leBytes 1 (leAt b 4 1) ++ leBytes 1 (back.getD 0) ++ delayTime s ++ zeros 8⟩
    { s with wire := Tbl.set (fun _ => none) s.wire (4 * p + m) (some out) }.bump (Reg.FHP_TX_FRAMES p)
  else s

/-- A frame with its FCS arrives at a MAC whose link is up. DESIGN CHOICE, log entry 79. -/
def ethReceive (s : State) (p m : Nat) (bytes : List Byte) : State :=
  if macCount s p ≤ m ∨ s.regBit (Reg.FHP_STATUS p) m = false then s
  else
    let f := bytes.take (bytes.length - 4)
    if 9216 < bytes.length ∨ bytes.length < 18 ∨ crc32 f ≠ leNat (bytes.drop (bytes.length - 4)) then s.bump (Reg.FHP_RX_FCS p)
    else
      let s1 := s.bump (Reg.FHP_RX_FRAMES p)
      if !(s.flag (Fd.FHP_CFG_CLS_EN p)) then s1.bump (Reg.FHP_CLS_NOMATCH p)
      else
        let (a, s2) := classify p f 16 s1 0
        match a with
        | none => s2.bump (Reg.FHP_CLS_NOMATCH p)
        | some a =>
          match a % 8 with
          | 0 => ingressPut s2 p ⟨a / 8 % 8, nowT s2, bytes.length, f.drop (etherAt f + 2)⟩
          | 1 => delayFrame s2 p m f
          | 2 => ptpFrame s2 (4 * p + m) f
          | 3 => hostFrame s2 p f
          | _ => s2

/-- ETH_FRAME_RECEIVE (R351): FHP, MAC, the frame from its destination address to its FCS. -/
def execEthFrameReceive (fhp mac : Fin 4) (bytes : List Byte) (s : State) : Host.Outcome State Fault Refusal :=
  up s (fun s => ethReceive s fhp.val mac.val bytes)

/-- The link of a MAC changes (R350): shared source 272 + n. -/
def ethLink (s : State) (p m : Nat) (on : Bool) : State :=
  if macCount s p ≤ m ∨ s.regBit (Reg.FHP_STATUS p) m = on then s
  else raiseShared (s.setRegBit (Reg.FHP_STATUS p) m on) (272 + p)

/-- ETH_LINK_CHANGE (R350). -/
def execEthLinkChange (fhp mac : Fin 4) (linkUp : Bool) (s : State) : Host.Outcome State Fault Refusal :=
  up s (fun s => ethLink s fhp.val mac.val linkUp)

/-! ### Register writes (R350, R354, R359, R384) -/

/-- A write of CFG: MODE 3, or a change of MODE with a link up, leaves MODE; enabling a bad program is ignored whole. -/
def fhpCfgWrite (s : State) (origin p v : Nat) : State :=
  let off := Reg.FHP_CFG p
  let en := bitOf v 3 && !(s.flag (Fd.FHP_CFG_CLS_EN p))
  if en && !((List.range 64).all (fun i => classOk (s.regN (Reg.FHP_CLS p i)))) then s.setFld (Fd.FHP_STATUS_CLS_BAD p) 1
  else
    let old := s.fld (Fd.FHP_CFG_MODE p)
    let bad := decide (v % 4 = 3) || (v % 4 != old && s.fld (Fd.FHP_STATUS_LINK p) != 0)
    let s1 := putRw s off (BitVec.ofNat 64 v)
    let s2 := if bad then logIgnored (s1.setFld (Fd.FHP_CFG_MODE p) old) origin off v else s1
    if en then s2.setFld (Fd.FHP_STATUS_CLS_BAD p) 0 else s2

/-- Is carrier c bound to a running job (R384)? -/
def carrierRuns (s : State) (c : Nat) : Bool :=
  match s.job (s.car c).job with
  | some j => s.jobState j == 2
  | none => false

/-- A write of CAR[c].CFG: NANT outside 1 to 64 or NPRB outside 1 to 275 leaves that field (R384). -/
def fhpCarCfgWrite (s : State) (origin c v : Nat) : State :=
  let off := Reg.FHP0_CAR_CFG c
  let badAnt := decide (bitsOf v 31 25 = 0 ∨ 64 < bitsOf v 31 25)
  let badPrb := decide (bitsOf v 24 16 = 0 ∨ 275 < bitsOf v 24 16)
  let s1 := putRw s off (BitVec.ofNat 64 v)
  let s2 := if badAnt then s1.setFld (Fd.FHP0_CAR_CFG_NANT c) (s.fld (Fd.FHP0_CAR_CFG_NANT c)) else s1
  let s3 := if badPrb then s2.setFld (Fd.FHP0_CAR_CFG_NPRB c) (s.fld (Fd.FHP0_CAR_CFG_NPRB c)) else s2
  settleWaits (if badAnt || badPrb then logIgnored s3 origin off v else s3)

/-- A write of an FHP register. -/
def fhpWrite (s : State) (origin off : Nat) (v : Word) : State :=
  let p := (off - 0x900000) / 0x4000
  let o := (off - 0x900000) % 0x4000
  if o = 0 then fhpCfgWrite s origin p v.toNat
  else if o = 8 then
    let n := v.toNat
    if n % 16 + bitsOf n 7 4 + bitsOf n 11 8 + bitsOf n 15 12 = 16 then putRw s off v else logIgnored s origin off n
  else if 0x1000 ≤ o ∧ o < 0x1200 then
    if s.flag (Fd.FHP_CFG_CLS_EN p) then logIgnored s origin off v.toNat else putRw s off v
  else if 0x3000 ≤ o then
    let c := (o - 0x3000) / 16
    if carrierRuns s c then logIgnored s origin off v.toNat
    else if o % 16 = 0 then fhpCarCfgWrite s origin c v.toNat
    else putRw s off v
  else putRw s off v

end Sys2Proof.Machine
end

