-- ==== Sys2Proof/Machine/Polar.lean ====
section
/-! DEFINITION. Polar encoding for PDCCH and PBCH (R186), as TS 38.212 clause 5.3.1 and 5.4.1 give it: code length, frozen bits, transform,
rate matching. The tables of that standard are constants of Config. PRESUMED, log entry 41. -/

namespace Sys2Proof.Machine

/-- The smallest k with n ≤ 2^k. -/
def log2Up (n : Nat) : Nat := if n ≤ 1 then 0 else Nat.log2 (n - 1) + 1

/-- log2 of the code length of k bits with their CRC in e coded bits, at most `cap` (clause 5.3.1). -/
def polarLog (cap k e : Nat) : Nat :=
  let l := log2Up e
  let n1 := if 8 * e ≤ 9 * 2 ^ (l - 1) ∧ 16 * k < 9 * e then l - 1 else l
  max 5 (min cap (min n1 (log2Up (8 * k))))

/-- The transform of 2^m bits: the m-th Kronecker power of the two-by-two kernel. -/
def polarTransform : Nat → List Bool → List Bool
  | 0, u => u
  | m + 1, u =>
    let a := u.take (2 ^ m)
    let b := u.drop (2 ^ m)
    polarTransform m (List.zipWith (fun x y => x != y) a b) ++ polarTransform m b

/-- The place that sub-block interleaving of N positions takes bit i from (clause 5.4.1.1). -/
def polarPlace (n i : Nat) : Nat := Config.polarBlocks.getD (32 * i / n) 0 * (n / 32) + i % (n / 32)

/-- Are coded bits punctured, not shortened: K / E at most 7 / 16? -/
def polarPunctures (k e : Nat) : Bool := decide (16 * k ≤ 7 * e)

/-- Positions that rate matching freezes (clause 5.4.1.1). -/
def polarCut (n k e : Nat) : List Nat :=
  if n ≤ e then []
  else if polarPunctures k e then
    (List.range (n - e)).map (polarPlace n) ++
      List.range (if 3 * n ≤ 4 * e then (3 * n - 2 * e + 3) / 4 else (9 * n - 4 * e + 15) / 16)
  else (List.range (n - e)).map (fun i => polarPlace n (e + i))

/-- The information positions: the k most reliable that rate matching leaves (clause 5.3.1.2). -/
def polarInfo (n k e : Nat) : List Nat :=
  let cut := polarCut n k e
  let free := (Config.polarOrder.filter (fun p => decide (p < n))).filter (fun p => !(cut.contains p))
  free.drop (free.length - k)

/-- Polar encoding of information bits with their CRC into e coded bits. -/
def polarEncode (bits : List Bool) (e : Nat) : List Bool :=
  let k := bits.length
  let m := polarLog 9 k e
  let n := 2 ^ m
  let mixed := (Config.polarMix k).map (fun i => bits.getD i false)
  let info := (polarInfo n k e).mergeSort (fun a b => decide (a ≤ b))
  let u := (List.range n).map (fun i => match info.findIdx? (fun p => p == i) with
    | some j => mixed.getD j false
    | none => false)
  let d := polarTransform m u
  let y := (List.range n).map (fun i => d.getD (polarPlace n i) false)
  (List.range e).map (fun i => y.getD (if n ≤ e then i % n else if polarPunctures k e then i + n - e else i) false)

end Sys2Proof.Machine
end

