-- ==== Sys2Proof/Machine/Downlink.lean ====
section
/-! DEFINITION. The downlink (R192 to R195, R356, R357, R401): modulation and precoding, compression, the C-plane and U-plane
messages and the TX_ON events that are queued for launch; SLOT_TAIL_WRITE, at which the entries of a carrier reach FHP. -/

namespace Sys2Proof.Machine

/-! ### Times -/

/-- A time an advance of 8 ns units earlier; a time before 0 is 0. -/
def advanced (t : Int) (units : Nat) : Nat := (t - units * 8 * 2 ^ 48).toNat

/-- The launch queue of a carrier's downlink. -/
def carMac (s : State) (c : Nat) : Nat := 4 * carPort s c + s.fld (Fd.FHP0_CAR_CFG_MAC c)

/-! ### Compression (R356) -/

/-- Do the 24 parts of a PRB fit in w bits at exponent e? -/
def fitsAt (w : Nat) (ps : List Int) (e : Nat) : Bool :=
  ps.all (fun x => let q := Frac.rne ⟨x, 2 ^ e⟩; decide (-(2 ^ (w - 1) : Int) ≤ q) && decide (q ≤ 2 ^ (w - 1) - 1))

/-- A PRB compressed: exponent and mantissas. -/
def compressPrb (bfp : Bool) (w : Nat) (ps : List Int) : Nat × List Int :=
  if !bfp then (0, ps)
  else
    let e := ((List.range 16).find? (fitsAt w ps)).getD 15
    (e, ps.map (fun x => Frac.rne ⟨x, 2 ^ e⟩))

/-- iqWidth of a carrier. -/
def iqWidth (s : State) (c : Nat) : Nat := let w := s.fld (Fd.FHP0_CAR_CFG_IQW c); if w = 0 then 16 else w

/-! ### C-plane (R357) -/

/-- The precoder of a layer that section extension 1 carries, block floating point of the carrier's width: for each PRB group one complex value
per port (R353, R357). DEDUCED, log entry 80. -/
def beamOf (s : State) (c : Nat) (a : Alloc) (l : Nat) : List (Nat × List Int) :=
  let n := s.fld (Fd.FHP0_CAR_CFG_NANT c)
  (List.range ((a.nprb + max 1 a.prg - 1) / max 1 a.prg)).map (fun g =>
    let r := virtRead s (12 + carPort s c) (a.precoderVa + 4 * n * a.layers * g + 4 * n * l) (4 * n)
    if r.fault.isSome then (0, []) else compressPrb true (iqWidth s c) ((List.range (2 * n)).map (fun i => signed 16 (leAt r.bytes (2 * i) 2))))

/-- The eAxC streams of an allocation: receive antennas, transmit ports, or layers. -/
def allocStreams (s : State) (c : Nat) (a : Alloc) : List Nat :=
  if 5 ≤ a.type ∧ s.flag (Fd.FHP0_CAR_CFG_CAT c) = true then (List.range a.layers).map (fun l => a.layer0 + l)
  else List.range (s.fld (Fd.FHP0_CAR_CFG_NANT c))

/-- The C-plane message of an allocation on a stream. -/
def cplaneFrame (s : State) (c abs : Nat) (a : Alloc) (ru : Nat) : TxFrame :=
  { kind := 1, pcp := s.fld (Fd.FHP0_CAR_VLAN_PCP c), vid := s.fld (Fd.FHP0_CAR_VLAN_VID c), carrier := c
    eaxc := eaxcId s (carPort s c) c ru, abs := abs, sym := a.sym0, nsym := a.nsym, sect := if a.type = 3 then 3 else 1
    dl := decide (5 ≤ a.type), prb0 := a.prb0, nprb := a.nprb
    beam := if 5 ≤ a.type ∧ s.flag (Fd.FHP0_CAR_CFG_CAT c) = true then beamOf s c a (ru - a.layer0) else [], prbs := [], msg := [] }

/-- Queue the C-plane messages of an entry's allocations. -/
def queueCplane (s : State) (c abs : Nat) (allocs : List Alloc) : State :=
  allocs.foldl (fun (t : State) (a : Alloc) =>
    (allocStreams t c a).foldl (fun (u : State) ru =>
      queueFrame u (carMac u c) (advanced (symTime u c abs a.sym0) (u.fld (Fd.FHP0_CAR_ADV_CP_ADV c))) (cplaneFrame u c abs a ru)) t) s

/-! ### TX_ON and envelope events (R194, R401) -/

/-- Queue the four events of a burst at one output: the envelope's fall ends when TX_ON falls. -/
def burstAt (s : State) (n t1 t2 : Nat) (joined : Option Nat) (len floor : Nat) : State :=
  let up_ := t1 - s.fld (Fd.TSU_TXON_LEAD n) * 8 * 2 ^ 48
  let down (t : Nat) : Nat := t + s.fld (Fd.TSU_TXON_LAG n) * 8 * 2 ^ 48
  let ramp := rampSpan s (s.fld (Fd.TSU_TXON_CARRIER n)) len
  let ev (t : Nat) (k : TxEdgeKind) : TxEdge := ⟨t, decide (t < s.devTime), k, len, floor⟩
  let q := txEvents s n
  match joined with
  | some t => if q.any (fun e => e.kind == .txonFall && e.time == down t) then
      setTxEvents s n (q.map (fun e => if e.falls && txEnd s n e == down t then { e with time := e.time + down t2 - down t } else e))
    else setTxEvents s n (q ++ [ev up_ .txonRise, ev up_ .paRise, ev (down t2 - ramp) .paFall, ev (down t2) .txonFall])
  | none => setTxEvents s n (q ++ [ev up_ .txonRise, ev up_ .paRise, ev (down t2 - ramp) .paFall, ev (down t2) .txonFall])

/-- The symbols of an entry's downlink: the first, and the one after the last. -/
def burstSymbols (allocs : List Alloc) : Option (Nat × Nat) :=
  match allocs.filter (fun a => decide (5 ≤ a.type)) with
  | [] => none
  | dl => some ((dl.map (fun a => a.sym0)).foldl min 14, (dl.map (fun a => a.sym0 + a.nsym)).foldl max 0)

/-- The downlink of a published entry (R401): its events at the outputs of its carrier, with the profile as it stands, and the entry for
PRECODING. The downlink symbols of an entry are one burst, which goes on from the entry before when that one ended where this one begins.
DEDUCED, log entry 80. -/
def queueBurst (s : State) (c abs : Nat) (h : EntryHdr) (allocs : List Alloc) : State :=
  match burstSymbols allocs with
  | none => s
  | some (lo, hi) =>
    let t1 := (symTime s c abs lo).toNat
    let t2 := (symTime s c abs hi).toNat
    let prev := Tbl.get (fun _ => 0) s.burstEnd c
    let s1 := (List.range 8).foldl (fun (t : State) n =>
      if t.flag (Fd.TSU_TXON_V n) && t.fld (Fd.TSU_TXON_CARRIER n) == c then
        burstAt t n t1 t2 (if prev = t1 then some prev else none) (t.fld (Fd.DEC_RAMP_LEN h.ramp)) (t.fld (Fd.DEC_RAMP_FLOOR h.ramp))
      else t) s
    { s1 with
      burstEnd := Tbl.set (fun _ => 0) s1.burstEnd c t2
      dlSlots := s1.dlSlots.filter (fun d => decide (s.devTime ≤ d.t2) && !(d.carrier == c && d.abs == abs)) ++
        [⟨c, abs, h.pshift, h.ramp, allocs, t1, t2, none, []⟩] }

/-! ### SLOT_TAIL_WRITE (R261) -/

/-- An entry that the host has published reaches FHP: its C-plane messages and its burst. DEDUCED, log entry 80. -/
def publishEntry (c : Nat) (s : State) (i : Nat) : State :=
  let a := slotEntryAddr s c i
  let h := entryHdr (s.bytes a 64)
  let cur := absSlot s c s.devTime
  let d := entryAhead s c h cur
  if !h.valid || h.sfnRsv || decide (slotsPerFrame s c ≤ h.slot) || decide (512 * slotsPerFrame s c ≤ d) then s
  else
    let recs := (List.range h.nalloc).map (fun k => allocRec (s.bytes (a + 64 + 64 * k) 64))
    let kept := recs.map (fun a => if allocOk s c h.ramp a then a else { a with type := 0 })
    let s1 := if s.flag (Fd.FHP0_CAR_CFG_V c) then queueCplane s c (cur + d) (kept.filter (fun a => a.type != 0)) else s
    queueBurst s1 c (cur + d) h kept

/-- A write of SLOT[c].TAIL: the entries up to it are published. DEDUCED, log entry 80. -/
def slotTailPublish (s : State) (origin c v : Nat) : State :=
  let k := s.car c
  let s1 := slotTailWrite s origin c v
  if k.job = 0 ∨ origin ≠ 5 + k.port ∨ slotRingSize s c ≤ v % 64 then s1
  else
    let n := slotRingSize s c
    let t0 := s.fld (Fd.SLOT_TAIL_INDEX c)
    ((List.range ((v % 64 + n - t0 % n) % n)).map (fun i => (t0 + i) % n)).foldl (publishEntry c) s1

/-- SLOT_TAIL_WRITE (R261). -/
def execSlotTailWrite (carrier : Fin 8) (origin : Fin 64) (value : Word32) (s : State) : Host.Outcome State Fault Refusal :=
  up s (fun s => ctlGate s origin.val (Reg.SLOT_TAIL carrier.val) (fun s => slotTailPublish s origin.val carrier.val value.toNat))

/-! ### Modulation and precoding (R192) -/

/-- The level of a coordinate from its bits (TS 38.211 clause 5.1). -/
def level : List Bool → Int
  | [] => 0
  | b :: r => (if b then -1 else 1) * (2 ^ r.length - level r)

/-- Square of the divisor of a modulation order: 2, 10, 42, 170, 682. -/
def qamNorm (qm : Nat) : Nat := 2 * (4 ^ (qm / 2) - 1) / 3

/-- floor(sqrt n) for n below 2^64. -/
def isqrt (n : Nat) : Nat := rootFrom 2 n 32 0

/-- A Q1.15 value; one beyond the format is free (R192, DESIGN CHOICE, log entry 2). -/
def q15Part (s : State) (v : Int) : Int × State :=
  if -32768 ≤ v ∧ v ≤ 32767 then (v, s)
  else
    let (f, t) := s.free
    (signed 16 f.toNat, t)

/-- A coordinate times the amplitude, rounded once to Q1.15 (R192). -/
def modulate (s : State) (qm : Nat) (amp : Int) (bits : List Bool) : Int × State :=
  let k := level bits * amp
  let m : Int := ((isqrt (4 * k.natAbs * k.natAbs / qamNorm qm) + 1) / 2 : Nat)
  q15Part s (if k < 0 then -m else m)

/-- The bits of one coordinate: those of even or odd index. -/
def everyOther : List Bool → List Bool
  | a :: _ :: r => a :: everyOther r
  | l => l

/-- A point from its bits. -/
def pointOf (s : State) (qm : Nat) (amp : Int) (b : List Bool) : (Int × Int) × State :=
  let (re, s1) := modulate s qm amp (everyOther b)
  let (im, s2) := modulate s1 qm amp (everyOther (b.drop 1))
  ((re, im), s2)

/-- `n` points from bits. -/
def pointsOf (qm : Nat) (amp : Int) : Nat → List Bool → State → List (Int × Int) × State
  | 0, _, s => ([], s)
  | k + 1, bits, s =>
    let (p, s1) := pointOf s qm amp (bits.take qm)
    let (r, s2) := pointsOf qm amp k (bits.drop qm) s1
    (p :: r, s2)

/-- `n` points of a BPSK sequence, on the real axis. -/
def signPoints (amp : Int) : List Bool → State → List (Int × Int) × State
  | [], s => ([], s)
  | b :: bs, s =>
    let (v, s1) := q15Part s (if b then -amp else amp)
    let (r, s2) := signPoints amp bs s1
    ((v, 0) :: r, s2)

/-! ### Sequences of TS 38.211 (PRESUMED, log entry 41) -/

/-- A shift register of `w` bits, bit 0 first out: its next `n` outputs. -/
def lfsr (w : Nat) (taps : List Nat) : Nat → Nat → List Bool
  | 0, _ => []
  | k + 1, x => bitOf x 0 :: lfsr w taps k (x / 2 + ((taps.filter (bitOf x)).length % 2) * 2 ^ (w - 1))

/-- The pseudo-random sequence of clause 5.2.1, `n` bits from position `first` on. -/
def goldBits (cinit first n : Nat) : List Bool :=
  List.zipWith (fun a b => a != b) ((lfsr 31 [0, 3] (1600 + first + n) 1).drop (1600 + first))
    ((lfsr 31 [0, 1, 2, 3] (1600 + first + n) cinit).drop (1600 + first))

/-- PSS (clause 7.4.2.2): 127 signs. -/
def pssBits (nid2 : Nat) : List Bool :=
  let x := lfsr 7 [0, 4] 127 0x76
  (List.range 127).map (fun n => x.getD ((n + 43 * nid2) % 127) false)

/-- SSS (clause 7.4.2.3): 127 signs. -/
def sssBits (nid : Nat) : List Bool :=
  let x := lfsr 7 [0, 4] 127 1
  let y := lfsr 7 [0, 1] 127 1
  let n1 := nid / 3
  (List.range 127).map (fun n => x.getD ((n + 15 * (n1 / 112) + 5 * (nid % 3)) % 127) false != y.getD ((n + n1 % 112) % 127) false)

/-- CRC24C (TS 38.212 clause 5.1) of bits. -/
def crc24c (bits : List Bool) : Nat :=
  bits.foldl (fun (c : Nat) b =>
    let d := c * 2 % 2 ^ 24
    if (c / 2 ^ 23 + b2n b) % 2 = 1 then d ^^^ 0xB2B117 else d) 0

/-- A control payload with its CRC24C; with an RNTI the CRC is that of the payload behind 24 ones, its last 16 bits masked (R186). -/
def withCrc24c (payload : List Bool) (rnti : Option (BitVec 16)) : List Bool :=
  let crc := match rnti with
    | some r => crc24c (List.replicate 24 true ++ payload) ^^^ r.toNat
    | none => crc24c payload
  payload ++ (List.range 24).map (fun i => bitOf crc (23 - i))

/-! ### The points of a PRB group (R186, R192) -/

/-- The points of a part, `n` of them. DESIGN CHOICE, log entry 81. -/
def sourcePoints (s : State) (qm : Nat) (amp : Int) (n : Nat) : DlSource → List (Int × Int) × State
  | .coded enc first cinit =>
    let bits := ((Tbl.get (fun _ => []) s.coded enc.val).drop first).take (n * qm)
    pointsOf qm amp n (List.zipWith (fun a b => a != b) bits (goldBits cinit.toNat first (n * qm))) s
  | .polar payload rnti e first cinit =>
    let bits := ((polarEncode (withCrc24c payload rnti) e).drop first).take (2 * n)
    pointsOf 2 amp n (List.zipWith (fun a b => a != b) bits (goldBits cinit.toNat first (2 * n))) s
  | .pss nid2 => signPoints amp ((pssBits nid2.val).take n) s
  | .sss nid => signPoints amp ((sssBits nid.val).take n) s
  | .reference cinit first cover =>
    let c := goldBits cinit.toNat first (2 * n)
    let sign (i : Nat) : Bool := cover.getD (i % max 1 cover.length) false
    pointsOf 2 amp n (c.zipIdx.map (fun p => p.1 != sign (p.2 / 2))) s

/-- The points of a part, by layer and resource element: data lie on one layer after the other (clause 7.3.1.3), any other sequence on each. -/
def partPoints (s : State) (a : Alloc) (p : DlPart) : List (Nat × Nat × (Int × Int)) × State :=
  let ls := (List.range a.layers).filter (fun l => bitOf p.layers.toNat l)
  let amp := signed 16 a.amp
  let at_ (i : Nat) : Nat := p.start + p.step * i
  match p.source with
  | .coded _ _ _ =>
    let (xs, t) := sourcePoints s (max 1 a.qm) amp (p.count * ls.length) p.source
    (xs.zipIdx.map (fun x => (ls.getD (x.2 % ls.length) 0, at_ (x.2 / ls.length), x.1)), t)
  | _ =>
    let (xs, t) := sourcePoints s 2 amp p.count p.source
    (ls.flatMap (fun l => xs.zipIdx.map (fun x => (l, at_ x.2, x.1))), t)

/-- The layers of a group over its `re` resource elements. -/
def layerGrid (layers re : Nat) (ps : List (Nat × Nat × (Int × Int))) : List (List (Int × Int)) :=
  (List.range layers).map (fun l =>
    let mine := ps.filter (fun p => p.1 == l)
    (List.range re).map (fun i => ((mine.find? (fun p => p.2.1 == i)).map (fun p => p.2.2)).getD (0, 0)))

/-- The precoder of a PRB (R192): for each port its row of complex Q1.15 values, one for each layer; and the access. DESIGN CHOICE, log entry 81. -/
def precoderOf (s : State) (c : Nat) (a : Alloc) (prb : Nat) : List (List (Int × Int)) × Access :=
  let n := s.fld (Fd.FHP0_CAR_CFG_NANT c)
  let r := virtRead s 36 (a.precoderVa + 4 * n * a.layers * ((prb - a.prb0) / max 1 a.prg)) (4 * n * a.layers)
  ((List.range n).map (fun p => (List.range a.layers).map (fun l =>
    (signed 16 (leAt r.bytes (4 * (n * l + p)) 2), signed 16 (leAt r.bytes (4 * (n * l + p) + 2) 2)))), r)

/-- Sum over the layers of w x for one resource element. DESIGN CHOICE, log entry 81. -/
def precodeSum : List (Int × Int) → List (Int × Int) → Int × Int
  | w :: ws, x :: xs =>
    let r := precodeSum ws xs
    (r.1 + w.1 * x.1 - w.2 * x.2, r.2 + w.1 * x.2 + w.2 * x.1)
  | _, _ => (0, 0)

/-- One part: rounded once, saturated; whether it saturated. -/
def precodePart (pshift : Nat) (v : Int) : Int × Bool :=
  let r := Frac.rne ⟨v, 2 ^ (15 + pshift)⟩
  (satS 16 r, decide (satS 16 r ≠ r))

/-- The parts of a port over the resource elements of a PRB, and how many saturated. -/
def portParts (pshift : Nat) (w : List (Int × Int)) (res : List (List (Int × Int))) : List Int × Nat :=
  let ps := res.flatMap (fun xs =>
    let y := precodeSum w xs
    [precodePart pshift y.1, precodePart pshift y.2])
  (ps.map (fun p => p.1), (ps.filter (fun p => p.2)).length)

/-! ### Frames (R357) -/

/-- Parts in groups of a PRB. -/
def prbGroups : Nat → List Int → List (List Int)
  | 0, _ => []
  | k + 1, ps => ps.take 24 :: prbGroups k (ps.drop 24)

/-- PRBs that a frame may hold under MTU (R357): Ethernet header, tag and FCS, eCPRI and section headers take 38 or 40 bytes. -/
def prbsPerFrame (s : State) (c : Nat) : Nat :=
  let limit := if s.flag (Fd.FHP_CFG_MTU (carPort s c)) then 9018 else 1522
  let hd := if s.flag (Fd.FHP0_CAR_CFG_DYNHDR c) then 40 else 38
  (limit - hd) / (3 * iqWidth s c + (if s.fld (Fd.FHP0_CAR_CFG_COMP c) = 0 then 0 else 1))

/-- The PRBs of a stream in frames, each queued with its launch time. -/
def queueUplane (s : State) (c abs sym ru prb0 : Nat) : Nat → List (Nat × List Int) → State
  | 0, _ => s
  | fuel + 1, ps =>
    if ps.isEmpty then s
    else
      let n := max 1 (prbsPerFrame s c)
      let f : TxFrame :=
        { kind := 0, pcp := s.fld (Fd.FHP0_CAR_VLAN_PCP c), vid := s.fld (Fd.FHP0_CAR_VLAN_VID c), carrier := c
          eaxc := eaxcId s (carPort s c) c ru, abs := abs, sym := sym, nsym := 1, sect := 0, dl := true, prb0 := prb0
          nprb := min n ps.length, beam := [], prbs := ps.take n, msg := [] }
      queueUplane (queueFrame s (carMac s c) (advanced (symTime s c abs sym) (s.fld (Fd.FHP0_CAR_ADV_UP_ADV c))) f)
        c abs sym ru (prb0 + n) fuel (ps.drop n)

/-! ### Shaping (R194, R195) -/

/-- Multiply a body sample by the profile at the edges that a symbol shapes: N − N_CP + k at the leading one, N − 1 − k at the trailing one. -/
def shapeSample (w : List Int) (n cp : Nat) (lead trail : Bool) (i : Nat) (x : Int × Int) : Int × Int :=
  let by_ (k : Nat) (y : Int × Int) : Int × Int :=
    match w[k]? with
    | some c => (Frac.rne ⟨y.1 * c, 2 ^ 15⟩, Frac.rne ⟨y.2 * c, 2 ^ 15⟩)
    | none => y
  let y := if lead ∧ n ≤ i + cp then by_ (i + cp - n) x else x
  if trail then by_ (n - 1 - i) y else y

/-- A whole symbol of a port shaped: to the time domain at the carrier's transform size, times the profile, and back; its answer gives the
parts of a range of PRBs. Subcarrier 6 × NPRB is the centre. DESIGN CHOICE, log entry 81. -/
def shapeSymbol (s : State) (c : Nat) (prof : Nat × Nat) (lead trail : Bool) (held : List HeldPart) (prb0 nprb : Nat) : List Int :=
  let half := 6 * s.fld (Fd.FHP0_CAR_CFG_NPRB c)
  let n := transformSize (s.fld (Fd.FHP0_CAR_CFG_NPRB c))
  let bin (i : Nat) : Nat := (i + n - half) % n
  let grid := held.foldl (fun (g : List (Int × Int)) h => (pairs h.parts).zipIdx.foldl (fun (g : List (Int × Int)) p =>
    let i := bin (12 * h.prb0 + p.2)
    let old := g.getD i (0, 0)
    g.set i (old.1 + p.1.1, old.2 + p.1.2)) g) (List.replicate n (0, 0))
  let y := fft n true grid 0
  let w := (List.range prof.1).map (rampCoeff prof.1 prof.2)
  let z := fft n false (y.1.zipIdx.map (fun p => shapeSample w n (prefixLen s c) lead trail p.2 p.1)) y.2
  let back (x : Int) : Int := satS 16 (Frac.rne (Frac.shift ⟨x, 1⟩ (z.2 - Nat.log2 n)))
  (List.range (12 * nprb)).flatMap (fun i =>
    let p := z.1.getD (bin (12 * prb0 + i)) (0, 0)
    [back p.1, back p.2])

/-- Where a symbol stands in its burst: does it lead it, does it end it (R195)? -/
def burstEdges (s : State) (d : DlSlot) (sym : Nat) : Bool × Bool :=
  let meets (t : Nat) (f : DlSlot → Nat) : Bool := s.dlSlots.any (fun e => e.carrier == d.carrier && f e == t)
  match burstSymbols d.allocs with
  | some (lo, hi) => (sym == lo && !(meets d.t1 (fun e => e.t2)), sym + 1 == hi && !(meets d.t2 (fun e => e.t1)))
  | none => (false, false)

/-- The parts of a run of PRBs of one stream, compressed and queued. -/
def sendParts (s : State) (c abs sym stream prb0 nprb : Nat) (parts : List Int) : State :=
  let bfp := s.fld (Fd.FHP0_CAR_CFG_COMP c) != 0
  queueUplane s c abs sym stream prb0 (nprb + 1) ((prbGroups nprb parts).map (compressPrb bfp (iqWidth s c)))

/-- Does an allocation of the downlink use a symbol? -/
def Alloc.sends (a : Alloc) (sym : Nat) : Bool := decide (5 ≤ a.type) && decide (a.sym0 ≤ sym) && decide (sym < a.sym0 + a.nsym)

/-- Is a symbol of an entry shaped: does it lead or end a burst that the entry marks as shaped (R195)? -/
def shapedAt (s : State) (d : DlSlot) (sym : Nat) : Bool × Bool :=
  if d.allocs.any (fun a => decide (5 ≤ a.type) && bitOf a.flags 2) then burstEdges s d sym else (false, false)

/-- Have all PRBs of a symbol's allocations been precoded? -/
def symbolWhole (d : DlSlot) (sym : Nat) (held : List HeldPart) : Bool :=
  d.allocs.zipIdx.all (fun a => !(a.1.sends sym) || (List.range a.1.nprb).all (fun k => held.any (fun h =>
    h.sym == sym && h.alloc == a.2 && decide (h.prb0 ≤ a.1.prb0 + k) && decide (a.1.prb0 + k < h.prb0 + h.nprb))))

/-- Set what the entry of a slot holds. -/
def State.setHeld (s : State) (d : DlSlot) (held : List HeldPart) : State :=
  { s with dlSlots := s.dlSlots.map (fun e => if e.carrier == d.carrier && e.abs == d.abs then { e with held := held } else e) }

/-- A whole shaped symbol: stream after stream (R195). -/
def sendShaped (s : State) (d : DlSlot) (sym : Nat) (edges : Bool × Bool) (held : List HeldPart) : State :=
  let prof := d.prof.getD (s.fld (Fd.DEC_RAMP_LEN d.ramp), s.fld (Fd.DEC_RAMP_FLOOR d.ramp))
  (held.map (fun h => h.stream)).eraseDups.foldl (fun t k =>
    let mine := held.filter (fun h => h.stream == k)
    let shape := shapeSymbol s d.carrier prof edges.1 edges.2 mine
    (mine.map (fun h => (h.prb0, h.nprb))).eraseDups.foldl (fun u r =>
      sendParts u d.carrier d.abs sym k r.1 r.2 (shape r.1 r.2)) t) s

/-- The streams of a PRB group: queued at once, or at the ends of a shaped burst held until the whole symbol is there, then shaped
(R195). DESIGN CHOICE, log entry 81. -/
def sendStreams (g : PrbGroup) (d : DlSlot) (s : State) (ps : List (Nat × List Int)) : State :=
  let sym := g.sym.val
  let e := shapedAt s d sym
  if e.1 || e.2 then
    let held := d.held ++ ps.map (fun p => ⟨sym, g.alloc, p.1, g.prb0, g.nprb, p.2⟩)
    if symbolWhole d sym held then
      sendShaped (s.setHeld d (held.filter (fun h => h.sym != sym))) d sym e (held.filter (fun h => h.sym == sym))
    else s.setHeld d held
  else ps.foldl (fun t p => sendParts t d.carrier d.abs sym p.1 g.prb0 g.nprb p.2) s

/-- The ports of a group, PRB after PRB (R192): their parts, how many saturated, the last access. -/
def precodePorts (s : State) (c prb0 pshift : Nat) (a : Alloc) (grid : List (List (Int × Int))) : Nat → Access × List (List Int) × Nat
  | 0 => (⟨[], false, none, s⟩, (List.range (s.fld (Fd.FHP0_CAR_CFG_NANT c))).map (fun _ => []), 0)
  | k + 1 =>
    let (acc, ports, sat) := precodePorts s c prb0 pshift a grid k
    if acc.fault.isSome || acc.poisoned then (acc, ports, sat)
    else
      let (w, r) := precoderOf acc.state c a (prb0 + k)
      let res := (List.range 12).map (fun i => grid.map (fun l => l.getD (12 * k + i) (0, 0)))
      let out := w.map (fun row => portParts pshift row res)
      (r, List.zipWith (fun (x : List Int) (o : List Int × Nat) => x ++ o.1) ports out, sat + (out.map (fun o => o.2)).sum)

/-- The entry and allocation that a group belongs to: the group lies within the allocation. -/
def groupAlloc (s : State) (g : PrbGroup) : Option (DlSlot × Alloc) :=
  match s.dlSlots.find? (fun d => d.carrier == g.carrier.val && d.abs == g.abs) with
  | none => none
  | some d =>
    let a := d.allocs.getD g.alloc (allocRec [])
    if 5 ≤ a.type ∧ a.sym0 ≤ g.sym.val ∧ g.sym.val < a.sym0 + a.nsym ∧ a.prb0 ≤ g.prb0 ∧ g.prb0 + g.nprb ≤ a.prb0 + a.nprb then some (d, a)
    else none

/-- The points of a group by layer and resource element, part after part. -/
def groupPoints (s : State) (a : Alloc) (g : PrbGroup) : List (Nat × Nat × (Int × Int)) × State :=
  g.parts.foldl (fun (r : List (Nat × Nat × (Int × Int)) × State) p =>
    let (l, t) := partPoints r.2 a p
    (r.1 ++ l, t)) ([], s)

/-- PRECODING on DSC n (R192): modulated layers, then in category A the ports; the result is compressed and queued. DESIGN CHOICE, log entry 81. -/
def precode (s : State) (n : Nat) (g : PrbGroup) : State :=
  match groupAlloc s g with
  | none => s
  | some (d, a) =>
    let c := g.carrier.val
    let (ps, s1) := groupPoints s a g
    let grid := layerGrid a.layers (12 * g.nprb) ps
    if s.flag (Fd.FHP0_CAR_CFG_CAT c) then
      sendStreams g d s1 (grid.zipIdx.map (fun x => (a.layer0 + x.2, x.1.flatMap (fun p => [p.1, p.2]))))
    else
      let (r, ports, sat) := precodePorts s1 c g.prb0 d.pshift a grid g.nprb
      if r.fault.isSome then computeReset r.state 4
      else if r.poisoned then computeReset r.state 6
      else sendStreams g d (r.state.bumpBy (Reg.DSC_PRECODE_SAT n) sat) (ports.zipIdx.map (fun o => (o.2, o.1)))

/-- PRECODING (R192): the clusters of the compute work while its job runs. -/
def execPrecoding (n : Fin 12) (g : PrbGroup) (s : State) : Host.Outcome State Fault Refusal :=
  up s (fun s => if computeRunning s then precode s n.val g else s)

end Sys2Proof.Machine
end

