-- ==== Sys2Proof/Machine/Dsp.lean ====
section
/-! DEFINITION. The DSP cores' distinctive instructions (R173 to R178), the transform accelerator (R179), the front end (R173,
R203) and the fallback receiver (R187, R188). -/

namespace Sys2Proof.Machine

/-! ### Cores -/

/-- Core c of cluster n. -/
def State.core (s : State) (n c : Nat) : DspCore := Tbl.get dspReset s.dsp (4 * n + c)

/-- Set a core. -/
def State.setCore (s : State) (n c : Nat) (k : DspCore) : State := { s with dsp := Tbl.set dspReset s.dsp (4 * n + c) k }

/-- Sixteen zero elements. -/
def zeroVec (_ : Nat) : List (Int × Int) := List.replicate 16 (0, 0)

/-- A vector register. -/
def DspCore.vec (k : DspCore) (i : Nat) : List (Int × Int) := Tbl.get zeroVec k.v i

/-- Set a vector register. -/
def DspCore.setVec (k : DspCore) (i : Nat) (x : List (Int × Int)) : DspCore := { k with v := Tbl.set zeroVec k.v i x }

/-- A scalar register; G0 reads as zero (R173). -/
def DspCore.gr (k : DspCore) (i : Nat) : Word32 := if i = 0 then 0 else Tbl.get zeroWord32 k.g i

/-- Write a scalar register; G0 discards it. -/
def DspCore.setG (k : DspCore) (i : Nat) (x : Word32) : DspCore := if i = 0 then k else { k with g := Tbl.set zeroWord32 k.g i x }

/-- Does a core run: its RUN bit, and for the clusters of the compute their job?.
DESIGN CHOICE, log entry 27. DEDUCED, log entry 46. DESIGN CHOICE, log entry 82. -/
def coreRuns (s : State) (n c : Nat) : Bool := s.regBit (Reg.DSC_STATUS n) c && (decide (12 ≤ n) || computeRunning s)

/-- A core fault (R178, Table 7.11): the core stops; a job fault in DSC0 to DSC11, a fallback fault in DSC12 to DSC15. -/
def coreFault (s : State) (n c pc cause : Nat) : State :=
  let s1 := s.setRegN (Reg.DSC_CORE_FAULT n c) (pc * 65536 + cause)
  let s2 := raiseShared ((s1.setRegBit (Reg.DSC_STATUS n) (4 + c) true).setRegBit (Reg.DSC_STATUS n) c false) (256 + n)
  if n < 12 then computeReset s2 3 else fallbackFault s2 1 n

/-- After the instruction at `pc`: a block that ends there goes back to its first instruction, or ends; the innermost first
(R176). DESIGN CHOICE, log entry 82. -/
def endBlocks (pc : Nat) : List (Nat × Nat × Nat) → List (Nat × Nat × Nat) × Nat
  | [] => ([], pc + 1)
  | (a, b, left) :: outer =>
    if b = pc then (if 1 < left then ((a, b, left - 1) :: outer, a) else endBlocks pc outer) else ((a, b, left) :: outer, pc + 1)

/-- The word at an address of the instruction memory of core c of cluster n: the first 64 KiB of the cluster's memory hold the four cores'
instruction memories, 16 KiB each (R173). -/
def coreWord (s : State) (n c pc : Nat) : Word32 := BitVec.ofNat 32 (s.leMem (dscBase n + 0x4000 * c + 4 * pc) 4)

/-- Does an address hold a distinctive instruction (Table 7.4)? -/
def distinctive (s : State) (n c pc : Nat) : Bool := (decodeDsp (Fin.ofNat 16 n) (Fin.ofNat 4 c) (Fin.ofNat 4096 pc) (coreWord s n c pc)).isSome

/-- A row of a core's instruction without what arrives with it: the branches before it and the sample. -/
def bareRow : Instr → Instr
  | .tapm n c pc i => .tapm n c ⟨pc.pc, []⟩ { i with arrived := [] }
  | .blkrpt n c pc cr cnt len => .blkrpt n c ⟨pc.pc, []⟩ cr cnt len
  | .bexp n c pc vf nm1 acc rsv => .bexp n c ⟨pc.pc, []⟩ vf nm1 acc rsv
  | .bnorm n c pc vf nm1 guard ge rsv => .bnorm n c ⟨pc.pc, []⟩ vf nm1 guard ge rsv
  | i => i

/-- Does a running core meet a row's instruction at `pc`: the word of its instruction memory there spells it (R174)? DESIGN CHOICE, log
entry 27. -/
def coreMeets (s : State) (n : Fin 16) (c : Fin 4) (pc : CoreAt) (i : Instr) : Bool :=
  coreRuns s n.val c.val && decodeDsp n c pc.pc (coreWord s n.val c.val pc.pc.val) == some (bareRow i)

/-- No address from `lo` up to below `hi` holds a distinctive instruction. -/
def plainFrom (dist : Nat → Bool) (lo hi : Nat) : Bool := (List.range (hi - lo)).all (fun i => !dist (lo + i))

/-- The active blocks when a core that stands at `cur` reaches `t` over ordinary instructions without a taken branch: a block is gone
through to its end, back to its first instruction while repetitions are left, or left behind with none left that would run a distinctive
instruction again (R176); none where that does not lead there. DESIGN CHOICE, log entry 82. -/
def reach (dist : Nat → Bool) (cur t : Nat) : List (Nat × Nat × Nat) → Option (List (Nat × Nat × Nat))
  | [] => if cur ≤ t ∧ plainFrom dist cur t then some [] else none
  | (a, b, left) :: outer =>
    if cur ≤ t ∧ t ≤ b then (if plainFrom dist cur t then some ((a, b, left) :: outer) else none)
    else if !(plainFrom dist cur (b + 1)) then none
    else if 1 < left ∧ a ≤ t ∧ t < cur then (if plainFrom dist a t then some ((a, b, left - 1) :: outer) else none)
    else if 1 < left ∧ !(plainFrom dist a (b + 1)) then none
    else reach dist (b + 1) t outer

/-- Where the ordinary instructions since the last distinctive one lead: to the next, with its active blocks; out of an active block by
the branch at an address (R176); or not there. -/
inductive PathEnd where
  | arrives (loops : List (Nat × Nat × Nat))
  | leaves (pc : Nat)
  | astray
  deriving DecidableEq, Repr

/-- Follow the taken branches from `cur` to `t`; a branch is an ordinary instruction. -/
def followPath (dist : Nat → Bool) (cur t : Nat) (loops : List (Nat × Nat × Nat)) : List (Fin 4096 × Fin 4096) → PathEnd
  | [] => match reach dist cur t loops with
    | some l => .arrives l
    | none => .astray
  | (f, d) :: rest => match (if dist f.val then none else reach dist cur f.val loops) with
    | none => .astray
    | some l => if l.all (fun x => decide (x.1 ≤ d.val) && decide (d.val ≤ x.2.1)) then followPath dist d.val t l rest else .leaves f.val

/-- The distinctive instruction `i` that a running core meets at `pc`, over the branches taken before it: a branch out of an active block is
fault cause 4. DESIGN CHOICE, log entry 82. -/
def atCore (s : State) (n : Fin 16) (c : Fin 4) (pc : CoreAt) (i : Instr) (f : State → DspCore → State) : State :=
  if !(coreMeets s n c pc i) then s
  else
    let k := s.core n.val c.val
    match followPath (distinctive s n.val c.val) k.pc pc.pc.val k.loops pc.path with
    | .astray => s
    | .leaves b => coreFault s n.val c.val b 4
    | .arrives l => f s { k with loops := l }

/-- The core goes on after the instruction at `pc`. -/
def DspCore.goOn (k : DspCore) (pc : Nat) : DspCore :=
  let r := endBlocks pc k.loops
  { k with loops := r.1, pc := r.2 % 4096 }

/-! ### TAPM (R175) -/

/-- sat40 of a part and whether it saturated. -/
def sat40 (x : Int) : Int × Nat := (satS 40 x, b2n (decide (satS 40 x ≠ x)))

/-- One lane of TAPM: the accumulator element and saturated parts. -/
def tapLane (acc v c : Int × Int) : (Int × Int) × Nat :=
  let r := sat40 (acc.1 + v.1 * c.1 - v.2 * c.2)
  let i := sat40 (acc.2 + v.1 * c.2 + v.2 * c.1)
  ((r.1, i.1), r.2 + i.2)

/-- TAPM: an empty stream port stalls the core for a cycle. -/
def tapm (n c pc : Nat) (i : TapmOp) (s : State) (k0 : DspCore) : State :=
  let fifo := ((Tbl.get (fun _ => []) k0.sp i.sp.val) ++ i.arrived.map (fun x => (x.1.toInt, x.2.toInt))).take 64
  let k := { k0 with sp := Tbl.set (fun _ => []) k0.sp i.sp.val fifo, pc := pc }
  if i.rsv ≠ 0 then coreFault (s.setCore n c k) n c pc 1
  else match fifo with
    | [] => (s.setCore n c k).bump (Reg.DSC_STREAM_STALL n)
    | x :: rest =>
      let c0 := (k.vec i.vc.val).getD 0 (0, 0)
      let c1 : Int × Int := if i.conj then (c0.1, -c0.2) else c0
      let cc : Int × Int := if i.sub then (-c1.1, -c1.2) else c1
      let lanes := (List.zip (Tbl.get zeroVec k.a i.ad.val) (k.vec i.vx.val)).map (fun (p : (Int × Int) × (Int × Int)) => tapLane p.1 p.2 cc)
      let k1 := { k with a := Tbl.set zeroVec k.a i.ad.val (lanes.map (fun (p : (Int × Int) × Nat) => p.1)) }
      let k2 := k1.setVec i.vx.val ((k1.vec i.vx.val).drop 1 ++ [x])
      let k3 := if i.rot then
          let v := k2.vec i.vc.val
          k2.setVec i.vc.val (v.drop 1 ++ v.take 1)
        else k2
      let k4 := { k3 with sp := Tbl.set (fun _ => []) k3.sp i.sp.val rest }.goOn pc
      (s.setCore n c k4).bumpBy (Reg.DSC_ACC_SAT n) ((lanes.map (fun (p : (Int × Int) × Nat) => p.2)).sum)

/-- TAPM (R175): cluster, core, where the core meets it. -/
def execTapm (n : Fin 16) (c : Fin 4) (pc : CoreAt) (i : TapmOp) (s : State) : Host.Outcome State Fault Refusal :=
  up s (fun s => atCore s n c pc (.tapm n c pc i) (tapm n.val c.val pc.pc.val i))

/-! ### BLKRPT (R176) -/

/-- BLKRPT. DESIGN CHOICE, log entry 82. -/
def blkrpt (n c pc : Nat) (cr : Bool) (cnt len : Nat) (s : State) (k : DspCore) : State :=
  let last := pc + len
  if cr ∧ 32 ≤ cnt then coreFault s n c pc 1
  else if 4 ≤ k.loops.length then coreFault s n c pc 2
  else if len = 0 ∨ k.loops.any (fun l => decide (l.2.1 < last)) then coreFault s n c pc 3
  else
    let count := if cr then (k.gr cnt).toNat else cnt
    if count = 0 then s.setCore n c (k.goOn last)
    else s.setCore n c { k with loops := (pc + 1, last, count) :: k.loops, pc := (pc + 1) % 4096 }

/-- BLKRPT (R176): CR, CNT and LEN. -/
def execBlkrpt (n : Fin 16) (c : Fin 4) (pc : CoreAt) (cr : Bool) (cnt : BitVec 11) (len : BitVec 12) (s : State) : Host.Outcome State Fault Refusal :=
  up s (fun s => atCore s n c pc (.blkrpt n c pc cr cnt len) (blkrpt n.val c.val pc.pc.val cr cnt.toNat len.toNat))

/-! ### BEXP and BNORM (R177) -/

/-- The register numbers of a range. -/
def vecRange (vf nm1 : Nat) : List Nat := (List.range (nm1 + 1)).map (fun i => vf + i)

/-- BEXP. -/
def bexp (n c pc vf nm1 : Nat) (acc : Bool) (rsv : Nat) (s : State) (k : DspCore) : State :=
  if rsv ≠ 0 then coreFault s n c pc 1
  else if 31 < vf + nm1 then coreFault s n c pc 5
  else
    let m := ((vecRange vf nm1).flatMap (fun i => (k.vec i).flatMap (fun p => [signBits p.1, signBits p.2]))).foldl min 15
    s.setCore n c ({ k with bx := if acc then min m k.bx else m }.goOn pc)

/-- BEXP (R177): VF, NM1, ACC, the reserved field. -/
def execBexp (n : Fin 16) (c : Fin 4) (pc : CoreAt) (vf : Fin 32) (nm1 : Fin 16) (acc : Bool) (rsv : BitVec 14) (s : State) : Host.Outcome State Fault Refusal :=
  up s (fun s => atCore s n c pc (.bexp n c pc vf nm1 acc rsv) (bexp n.val c.val pc.pc.val vf.val nm1.val acc rsv.toNat))

/-- BNORM. -/
def bnorm (n c pc vf nm1 guard ge rsv : Nat) (s : State) (k : DspCore) : State :=
  if rsv ≠ 0 then coreFault s n c pc 1
  else if 31 < vf + nm1 then coreFault s n c pc 5
  else
    let sh : Int := (k.bx : Int) - guard
    let k1 := (vecRange vf nm1).foldl (fun (j : DspCore) i =>
      j.setVec i ((j.vec i).map (fun p => (normPart sh p.1, normPart sh p.2)))) k
    s.setCore n c ((k1.setG ge (BitVec.ofInt 32 ((k1.gr ge).toNat - sh))).goOn pc)

/-- BNORM (R177): VF, NM1, GUARD, GE, the reserved field. -/
def execBnorm (n : Fin 16) (c : Fin 4) (pc : CoreAt) (vf : Fin 32) (nm1 : Fin 16) (guard : Fin 4) (ge : Fin 32) (rsv : BitVec 8) (s : State) : Host.Outcome State Fault Refusal :=
  up s (fun s => atCore s n c pc (.bnorm n c pc vf nm1 guard ge rsv) (bnorm n.val c.val pc.pc.val vf.val nm1.val guard.val ge.val rsv.toNat))

/-! ### The transform accelerator (R179) -/

/-- Does a range meet the season window of cluster n (R201)? -/
def meetsDspWindow (s : State) (n a len : Nat) : Bool :=
  let w := s.fld (Fd.DSC_SWIN_BASE n) * 64
  decide (n < 12) && decide (a < w + s.fld (Fd.DSC_SWIN_LEN n) * 64) && decide (w < a + len)

/-- Bytes of a cluster's memory as a job read takes them: within the season window those of the latched bank (R201, R202). -/
def dspBytes (s : State) (n a : Nat) (bs : List Byte) : List Byte :=
  bs.zipIdx.map (fun p => if meetsDspWindow s n (a + p.2) 1 then
    (s.bankBytes (96 + n) (s.regN (Reg.DSC_SBANK n) % 2) (a + p.2 - s.fld (Fd.DSC_SWIN_BASE n) * 64) 1).headD 0 else p.1)

/-- May a core of cluster n use a range of its memory: within it, aligned, and for a write outside the season window (R201, Table 7.11,
cause 6)? -/
def dspRangeOk (s : State) (n a len : Nat) (write : Bool) : Bool :=
  decide (a + len ≤ 0x100000) && decide (a % 4 = 0) && !(write && meetsDspWindow s n a len)

/-- After a poisoned read of a cluster: a job fault in DSC0 to DSC11 (Table 9.6); in DSC12 to DSC15 the read was the fallback fault (R301). -/
def dspPoison (s : State) (n : Nat) : State := if n < 12 then computeReset s 6 else s

/-- A transform for core c of cluster n over samples in its memory; its block exponent follows. DESIGN CHOICE, log entry 115. -/
def transformRun (s : State) (n c size src dst : Nat) (inverse : Bool) (exp : Int) : State :=
  if !(transformOk size) || !(decide (12 ≤ n) || computeRunning s) then s
  else if !(dspRangeOk s n src (4 * size) false && dspRangeOk s n dst (4 * size) true) then coreFault s n c (s.core n c).pc 6
  else
    let o := if n < 12 then 36 else 21
    let r := portRead s o (dscBase n + src) (4 * size)
    if r.poisoned then dspPoison r.state n
    else
      let bs := dspBytes s n src r.bytes
      let xs := (List.range size).map (fun i => (signed 16 (leAt bs (4 * i) 2), signed 16 (leAt bs (4 * i + 2) 2)))
      let y := fft size inverse xs exp
      let s1 := portWrite r.state o (dscBase n + dst) (y.1.flatMap (fun p => leBytes 2 (wrapN 16 p.1) ++ leBytes 2 (wrapN 16 p.2)))
      { s1 with fftExp := Tbl.set (fun _ => 0) s1.fftExp n y.2 }.bump (Reg.DSC_FFT_DONE n)

/-- TRANSFORM (R179): cluster, core, size, source and destination in its memory, direction, block exponent of the input. -/
def execTransform (n : CoreId) (size : Nat) (src dst : BitVec 20) (inverse : Bool) (exp : BitVec 8) (s : State) :
    Host.Outcome State Fault Refusal :=
  up s (fun s => transformRun s n.cluster.val n.core.val size src.toNat dst.toNat inverse exp.toInt)

/-! ### The front end (R173, R203) -/

/-- A raw sample part: part × 2^exponent, exact (R355). -/
def rawPart (e x : Int) : Int := if 0 ≤ e then x * 2 ^ e.toNat else x / 2 ^ (-e).toNat

/-- The sections of a slot for an antenna and symbol, as subcarrier, exponent and sample. DESIGN CHOICE, log entry 83. -/
def antennaSamples (x : SlotCtx) (ant sym : Nat) : List (Nat × Int × (Int × Int)) :=
  (x.sects.filter (fun r => r.ant == ant && r.sym == sym)).flatMap (fun r =>
    (pairs r.parts).zipIdx.map (fun p => (12 * r.prb0 + p.2, r.exps.getD (p.2 / 12) 0, p.1)))

/-- Does an allocation cover a subcarrier in a symbol? -/
def Alloc.covers (a : Alloc) (sym sc : Nat) : Bool :=
  decide (a.sym0 ≤ sym) && decide (sym < a.sym0 + a.nsym) && decide (12 * a.prb0 ≤ sc) && decide (sc < 12 * (a.prb0 + a.nprb))

/-- Is a subcarrier allocated to the uplink in a symbol? -/
def scAllocated (x : SlotCtx) (sym sc : Nat) : Bool :=
  x.allocs.any (fun a => decide (1 ≤ a.type) && decide (a.type ≤ 4) && a.covers sym sc)

/-- Does a subcarrier belong to the learned receiver: PUSCH without transform precoding (R173)? -/
def scLearned (x : SlotCtx) (sym sc : Nat) : Bool :=
  x.allocs.any (fun a => a.type == 1 && !(bitOf a.flags 1) && a.covers sym sc)

/-- The statistics of an antenna's allocated samples (Table 8.1): subcarriers k and -k lie about the middle one of `m`. -/
def frontStats (m : Nat) (ys : List (Nat × (Int × Int))) : Radio :=
  let img : List ((Int × Int) × (Int × Int)) := ys.filterMap (fun (p : Nat × (Int × Int)) => if p.1 < m / 2 ∧ 0 < p.1 then
      (ys.find? (fun q => q.1 == m - p.1)).map (fun q => (p.2, q.2)) else none)
  { count := ys.length, re := (ys.map (fun (p : Nat × (Int × Int)) => p.2.1)).sum, im := (ys.map (fun (p : Nat × (Int × Int)) => p.2.2)).sum
    power := ((ys.map (fun (p : Nat × (Int × Int)) => p.2.1 * p.2.1 + p.2.2 * p.2.2)).sum).toNat
    imgRe := (img.map (fun (p : (Int × Int) × (Int × Int)) => p.1.1 * p.2.1 - p.1.2 * p.2.2)).sum
    imgIm := (img.map (fun (p : (Int × Int) × (Int × Int)) => p.1.1 * p.2.2 + p.1.2 * p.2.1)).sum
    imgDen := ((img.map (fun (p : (Int × Int) × (Int × Int)) => p.1.1 * p.1.1 + p.1.2 * p.1.2 + p.2.1 * p.2.1 + p.2.2 * p.2.2)).sum).toNat }

/-- Compensation of an aligned sample with exponent e (R203): both parts, and how many saturated. DESIGN CHOICE, log entry 83. -/
def compensate (k : Comp) (e : Int) (y : Int × Int) : (Int × Int) × Nat :=
  let xr := Frac.sub ⟨y.1, 1⟩ (Frac.shift ⟨k.dcRe, 1⟩ (-e))
  let xi := Frac.sub ⟨y.2, 1⟩ (Frac.shift ⟨k.dcIm, 1⟩ (-e))
  let br := Frac.shift ⟨k.bRe, 1⟩ (-15)
  let bi := Frac.shift ⟨k.bIm, 1⟩ (-15)
  let zr := Frac.sub xr (Frac.add (Frac.mul br xr) (Frac.mul bi xi))
  let zi := Frac.sub xi (Frac.sub (Frac.mul bi xr) (Frac.mul br xi))
  let g := Frac.shift ⟨k.gain, 1⟩ (-14)
  let r := (Frac.mul g zr).rne
  let i := (Frac.mul g zi).rne
  ((satS 16 r, satS 16 i), b2n (decide (satS 16 r ≠ r)) + b2n (decide (satS 16 i ≠ i)))

/-- A 16-bit complex operand. -/
def cplxOf (x : BitVec 16 × BitVec 16) : Int × Int := (x.1.toInt, x.2.toInt)

/-- Square of the magnitude. -/
def magSq (x : Int × Int) : Nat := (x.1 * x.1 + x.2 * x.2).toNat

/-- The least-squares estimate of a DMRS element, y ÷ d with d in Q1.15, rounded once; 0 where d is 0. DESIGN CHOICE, log entry 83. -/
def lsEstimate (y d : Int × Int) : Int × Int :=
  let m := magSq d
  if m = 0 then (0, 0)
  else (satS 16 (Frac.rne ⟨(y.1 * d.1 + y.2 * d.2) * 2 ^ 15, m⟩), satS 16 (Frac.rne ⟨(y.2 * d.1 - y.1 * d.2) * 2 ^ 15, m⟩))

/-- |h × dmrs|² and |y − h × dmrs|² of a DMRS element in units of 2^-80 of a squared sample unit (R191); e is the exponent of the aligned
samples. DEDUCED, log entry 65. -/
def dmrsSums (e : Int) (hexp : Nat) (y d h : Int × Int) : Nat × Nat :=
  let p : Int × Int := (h.1 * d.1 - h.2 * d.2, h.1 * d.2 + h.2 * d.1)
  let q : Int × Int := (y.1 * 2 ^ hexp - p.1, y.2 * 2 ^ hexp - p.2)
  let u := 2 ^ (80 + 2 * e - 2 * hexp).toNat
  (magSq p * u, magSq q * u)

/-- Add to an allocation's front-end sums. -/
def addFeSums (x : SlotCtx) (m : Nat × Nat × Nat) : SlotCtx :=
  let old := ((x.feSums.find? (fun l => l.1 == m.1)).map (fun l => l.2)).getD (0, 0)
  { x with feSums := x.feSums.filter (fun l => l.1 != m.1) ++ [(m.1, old.1 + m.2.1, old.2 + m.2.2)] }

/-- Set the fallback's sums of an allocation. DEDUCED, log entry 65. -/
def setFbSums (x : SlotCtx) (i : Nat) (l : (Nat × Nat) × (Nat × Nat)) : SlotCtx :=
  { x with fbSums := x.fbSums.filter (fun l => l.1 != i) ++ [(i, l)] }

/-- A cluster works on a slot with its bank and season (R202, R220). -/
def latchCluster (s : State) (n : Nat) (x : SlotCtx) : State :=
  (s.setRegN (Reg.DSC_SBANK n) x.bank).setRegN (Reg.DSC_SSEASON n) x.season

/-- The samples of an antenna and symbol, aligned to one exponent and compensated (R173, R203): subcarrier, sample, parts that saturated. -/
def alignedSamples (k : Comp) (e : Int) (ys : List (Nat × Int × (Int × Int))) : List (Nat × ((Int × Int) × Nat)) :=
  let al (q x : Int) : Int := Frac.rne (Frac.shift ⟨x, 1⟩ (q - e))
  ys.map (fun p => (p.1, compensate k e (al p.2.1 p.2.2.1, al p.2.1 p.2.2.2)))

/-- Does a port of DMRS type 1 or 2 use a subcarrier (Table 10.7a; TS 38.211 table 6.4.1.1.3-1 and -2)? PRESUMED, log entry 117. -/
def portUses (two : Bool) (port sc : Nat) : Bool :=
  if two then sc % 6 / 2 == port % 6 / 2 else sc % 2 == port % 4 / 2

/-- The reference value of a port on a subcarrier and symbol of a CP-OFDM allocation, in Q1.15 (TS 38.211 clause 6.4.1.1.1.1, with the
covers of tables 6.4.1.1.3-1 and -2). PRESUMED, log entry 117. -/
def dmrsRef (a : Alloc) (slot sym sc port : Nat) (second : Bool) : Int × Int :=
  let two := bitOf a.dmrs 0
  let nid := bitsOf a.dmrs 31 16
  let i := if two then 2 * (sc / 6) + sc % 2 else sc / 2
  let bits := goldBits ((2 ^ 17 * (14 * slot + sym + 1) * (2 * nid + 1) + 2 * nid) % 2 ^ 31) (2 * i) 2
  let k := if two then sc % 2 else sc / 2 % 2
  let minus := (port % 2 == 1 && k == 1) != (decide ((if two then 6 else 4) ≤ port) && second)
  let part (b : Bool) : Int := if b != minus then -23170 else 23170
  (part (bits.getD 0 false), part (bits.getD 1 false))

/-- The reference of a DMRS element that a front-end run brings, where it belongs to its allocation: PUSCH, in its PRBs and symbols, of one of
its ports (R173, Table 10.7a). DESIGN CHOICE, log entry 83. -/
def dmrsOf (x : SlotCtx) (sym : Nat) (r : DmrsRe) : Option (Int × Int) :=
  match x.allocs[r.alloc]? with
  | none => none
  | some a =>
    if a.type = 1 ∧ a.covers sym r.sc = true ∧ bitOf a.dmrs (4 + r.port.val) = true ∧ portUses (bitOf a.dmrs 0) r.port.val r.sc = true then
      some (if bitOf a.flags 1 then cplxOf r.d else dmrsRef a x.slot sym r.sc r.port.val r.second)
    else none

/-- The front end of cluster n for a symbol and antenna of a slot on the learned path. DESIGN CHOICE, log entry 83. -/
def frontEnd (s : State) (n c id ant sym : Nat) (o : FrontOp) : State :=
  match s.slotCtx c id with
  | none => s
  | some x =>
    if !x.learned || !(computeRunning s) then s
    else
      let ys := antennaSamples x ant sym
      let e := (ys.map (fun p => p.2.1)).foldl max (-8)
      let alloc := ys.filter (fun p => scAllocated x sym p.1)
      let st := frontStats (12 * s.fld (Fd.FHP0_CAR_CFG_NPRB c)) (alloc.map (fun p => (p.1, (rawPart p.2.1 p.2.2.1, rawPart p.2.1 p.2.2.2))))
      let zs := alignedSamples (Tbl.get compReset s.comp ((8 * (x.bank % 2) + c) * 128 + ant)) e ys
      let s1 := (latchCluster s n x).bumpBy Reg.CAL_COMP_SAT ((zs.map (fun p => p.2.2)).sum)
      let part (z : Int × Int) : List Byte := leBytes 2 (wrapN 16 z.1) ++ leBytes 2 (wrapN 16 z.2)
      let data := (zs.filter (fun p => scLearned x sym p.1)).flatMap (fun p => part p.2.1)
      let known := o.dmrs.filterMap (fun d => match dmrsOf x sym d, zs.find? (fun z => z.1 == d.sc) with
        | some r, some z => some (d, r, z.2.1)
        | _, _ => none)
      let est := (known.filter (fun p => scLearned x sym p.1.sc)).flatMap (fun p => part (lsEstimate p.2.2 p.2.1))
      let s2 := busWrite s1 36 (sspBase + o.ssp) (leBytes 2 (wrapN 16 e) ++ zeros 2 ++ data ++ est)
      let y := known.foldl (fun (y : SlotCtx) p =>
        addFeSums y (p.1.alloc, dmrsSums e o.hexp.val p.2.2 p.2.1 (cplxOf p.1.h))) x
      let old := ((y.radio.find? (fun r => r.1 == ant)).map (fun r => r.2)).getD (radioReset 0)
      s2.setSlotCtx c { y with radio := y.radio.filter (fun r => r.1 != ant) ++ [(ant, old.add st)] }

/-- FRONT_END (R173): cluster, carrier, number of the slot's tick on it, antenna, symbol. -/
def execFrontEnd (n : Fin 12) (carrier : Fin 8) (tick : BitVec 32) (ant : Fin 64) (sym : Fin 14) (o : FrontOp) (s : State) :
    Host.Outcome State Fault Refusal :=
  up s (fun s => frontEnd s n.val carrier.val tick.toNat ant.val sym.val o)

/-! ### What a receive program reads (R187, R189) -/

/-- The compensation that a cluster applies on carrier c of a slot, by antenna (R203); the fallback applies none. -/
def slotComp (s : State) (n c : Nat) (x : SlotCtx) : Option (Nat → Comp) :=
  if n < 12 then some (fun ant => Tbl.get compReset s.comp ((8 * (x.bank % 2) + c) * 128 + ant)) else none

/-- Samples of an antenna and symbol in whole units of 2^-8. -/
def finSamples (x : SlotCtx) (comp : Option (Nat → Comp)) (ant sym : Nat) : List (Nat × (Int × Int)) :=
  let ys := antennaSamples x ant sym
  let unit (e : Int) (z : Int × Int) : Int × Int := (rawPart (e + 8) z.1, rawPart (e + 8) z.2)
  match comp with
  | none => ys.map (fun p => (p.1, unit p.2.1 p.2.2))
  | some k =>
    let e := (ys.map (fun p => p.2.1)).foldl max (-8)
    (alignedSamples (k ant) e ys).map (fun p => (p.1, unit e p.2.1))

/-- The antennas that a cluster receives on: those whose sections arrived, in the fallback those of its set (R187). -/
def pucchAntennas (x : SlotCtx) (n : Nat) : List Nat :=
  if n < 12 then (x.sects.map (fun r => r.ant)).eraseDups else x.fbAnts

/-- The instruction memories of the clusters that a program runs on: cluster n's, in the fallback those of DSC12 to DSC15. -/
def programOf (s : State) (n : Nat) : List Host.Cell :=
  s.mem.filter (fun p => (if n < 12 then [n] else [12, 13, 14, 15]).any (fun d =>
    decide (dscBase d ≤ p.1) && decide (p.1 < dscBase d + 0x10000)))

/-- The fields of an allocation as its program reads them (Table 10.7a). -/
def Alloc.fields (a : Alloc) : List Nat :=
  [a.type, a.flags, a.ue, a.prb0, a.nprb, a.sym0, a.nsym, a.layer0, a.layers, a.qm, a.dmrs, a.tbs, a.code, a.harq, a.format]

/-- What the program of cluster n reads to receive an allocation: the samples of its antennas in the allocation's symbols and PRBs, and
nothing of the other antennas (R187); nothing of the job or the mode (R189). -/
def rxInput (s : State) (n c : Nat) (x : SlotCtx) (a : Alloc) : RxInput :=
  let here (y : Nat) (l : List (Nat × (Int × Int))) : List (Nat × (Int × Int)) := l.filter (fun p => a.covers y p.1)
  ⟨programOf s n, if n < 12 then [] else x.fbLayers, x.sfn, x.slot, a.fields,
    (pucchAntennas x n).flatMap (fun k => (List.range 14).map (fun y => (k, y, here y (finSamples x (slotComp s n c x) k y))))⟩

/-! ### The fallback receiver (R28, R187, R188) -/

/-- Does the fallback partition run for a slot (R28, R301)? -/
def fallbackRuns (s : State) (x : SlotCtx) : Bool := x.configured && x.fbEn && !(s.flag Fd.SAF_STATUS_FB_DOWN)

/-- The code-block scale and INT8 values of LLRs given with a block exponent (R180): the smallest non-zero UE5M3 scale that holds the
largest in ±127, 0x78 where all are zero. -/
def scaleLlrs (r : RawLlrs) : Nat × List Int :=
  let v := r.parts.map (fun p => Frac.shift ⟨p.toInt, 1⟩ r.exp.toInt)
  let top := (r.parts.map (fun p => p.toInt.natAbs)).foldl max 0
  let code := if top = 0 then 0x78 else ue5m3Ceil (Frac.div (Frac.shift ⟨top, 1⟩ r.exp.toInt) ⟨127, 1⟩)
  (code, v.map (fun a => max (-127) (min 127 (Frac.div a (ue5m3 code)).rne)))

/-- What a fallback reception of allocation `i` from what its program reads leaves in its slot: the sums and LLRs of a PUSCH allocation (those
of code blocks of the fallback layer set only), the detections of a PRACH allocation; nothing for another type
(R187, R188). -/
def fallbackKeep (x : SlotCtx) (i : Nat) (o : RxInput) : SlotCtx :=
  match (x.allocs.getD i (allocRec [])).type with
  | 1 =>
    let y := setFbSums x i (Config.receivedSinr o, Config.receivedEvm o)
    let mine (k : Nat) : Bool := x.cbs.any (fun b => b.num == k && b.alloc == i && inLayerSet x b)
    let ls := ((Config.receivedLlrs o).filter (fun l => mine l.num)).map (fun l => (l.num, scaleLlrs l))
    { y with fbLlrs := y.fbLlrs.filter (fun p => !(ls.any (fun l => l.1 == p.1))) ++ ls }
  | 3 => { x with prach := x.prach.filter (fun p => p.1 != i) ++ [(i, Config.receivedPrach o)] }
  | _ => x

/-- The fallback receives an allocation: of PUSCH the sums and the LLRs of its code blocks within the layer set, of PRACH the preambles;
not SRS (R189); PUCCH is PUCCH_DETECT's. DESIGN CHOICE, log entry 86. -/
def fallbackReceive (s : State) (n c id i : Nat) (o : FallbackOp) : State :=
  match s.slotCtx c id with
  | none => s
  | some x =>
    if !(fallbackRuns s x) || n < 12 then s
    else
      let t := o.signals.foldl (fun u k => signalObj (supervise u (some (c, id)) k) k 1 false) s
      match t.slotCtx c id with
      | none => t
      | some y => t.setSlotCtx c (fallbackKeep y i (rxInput s n c x (x.allocs.getD i (allocRec []))))

/-- FALLBACK_RECEIVE (R188): cluster 12 to 15, carrier, number of the slot's tick on it, allocation. -/
def execFallbackReceive (n : Fin 4) (carrier : Fin 8) (tick : BitVec 32) (alloc : Fin 255) (o : FallbackOp) (s : State) :
    Host.Outcome State Fault Refusal :=
  up s (fun s => fallbackReceive s (12 + n.val) carrier.val tick.toNat alloc.val o)

end Sys2Proof.Machine
end

