-- ==== Sys2Proof/Machine/Coding.lean ====
section
/-! DEFINITION. Channel coding (R180 to R186): segmentation, rate matching, HARQ combining, the LDPC decoder,
the encoder. Formulas that the manual takes from TS 38.212 are that standard's (PRESUMED, log entry 41). -/

namespace Sys2Proof.Machine

/-! ### CRCs of TS 38.212 clause 5.1 -/

/-- One bit of a CRC register of `w` bits. -/
def crcStep (poly w c : Nat) (b : Bool) : Nat :=
  let t := (c / 2 ^ (w - 1) + b2n b) % 2
  let d := c * 2 % 2 ^ w
  if t = 1 then d ^^^ poly else d

/-- The CRC of a bit string, first bit first. -/
def crcOf (poly w : Nat) (bits : List Bool) : Nat := bits.foldl (crcStep poly w) 0

/-- The `w` bits of a number, most significant first. -/
def msbBits : Nat → Nat → List Bool
  | 0, _ => []
  | w + 1, n => bitOf n w :: msbBits w n

/-- CRC24A. -/
def crc24a (bits : List Bool) : Nat := crcOf 0x864CFB 24 bits
/-- CRC24B. -/
def crc24b (bits : List Bool) : Nat := crcOf 0x800063 24 bits
/-- CRC16. -/
def crc16t (bits : List Bool) : Nat := crcOf 0x1021 16 bits
/-- CRC6 or CRC11 of UCI with `a` bits. -/
def crcUci (a : Nat) (bits : List Bool) : Nat := if a < 20 then crcOf 0x21 6 bits else crcOf 0x621 11 bits

/-! ### Segmentation (TS 38.212 clause 5.2.2) -/

/-- The 51 lifting sizes. PRESUMED, log entry 41. -/
def liftSizes : List Nat :=
  ((List.range 385).filter (fun z => decide (2 ≤ z) &&
    ([2, 3, 5, 7, 9, 11, 13, 15] : List Nat).any (fun a => (List.range 8).any (fun j => z == a * 2 ^ j))))

/-- The shape of the code blocks of a transport block: count, bits of one with its CRC, lifting size, systematic columns. -/
structure CbShape where
  count : Nat
  kp : Nat
  zc : Nat
  cols : Nat

/-- Shape from size and base graph. PRESUMED, log entry 41. -/
def cbShape (tbs bg : Nat) : CbShape :=
  let b := tbs + (if 3824 < tbs then 24 else 16)
  let c := max 1 (cbCount tbs bg)
  let kp := ((if c = 1 then b else b + 24 * c) + c - 1) / c
  let kb := if bg = 1 then 22 else if 640 < b then 10 else if 560 < b then 9 else if 192 < b then 8 else 6
  ⟨c, kp, (liftSizes.find? (fun z => decide (kp ≤ kb * z))).getD 384, if bg = 1 then 22 else 10⟩

/-- Columns of the code after the systematic ones, rows of the base graph. -/
def graphRows (bg : Nat) : Nat := if bg = 1 then 46 else 42

/-! ### Rate matching (TS 38.212 clause 5.4.2) -/

/-- Start of a redundancy version. PRESUMED, log entry 41. -/
def rvStart (bg zc ncb rv : Nat) : Nat :=
  let num := if bg = 1 then [0, 17, 33, 56] else [0, 13, 25, 43]
  let den := if bg = 1 then 66 else 50
  num.getD rv 0 * ncb / (den * zc) * zc

/-- Positions of the circular buffer that are sent, from the redundancy version's start on, fillers left out. -/
def ringOf (g : CbShape) (bg ncb rv : Nat) : List Nat :=
  let k0 := rvStart bg g.zc ncb rv
  ((List.range ncb).map (fun i => (k0 + i) % ncb)).filter (fun k =>
    !(decide (g.kp - 2 * g.zc ≤ k) && decide (k < (g.cols - 2) * g.zc)))

/-- Undo the bit interleaver: e[i × E/Qm + j] = f[i + j × Qm]. -/
def deinterleave {α : Type} (d : α) (qm : Nat) (f : List α) : List α :=
  let n := f.length / qm
  (List.range qm).flatMap (fun i => (List.range n).map (fun j => f.getD (i + j * qm) d))

/-- The bit interleaver: f[i + j × Qm] = e[i × E/Qm + j]. -/
def interleave {α : Type} (d : α) (qm : Nat) (e : List α) : List α :=
  let n := e.length / qm
  (List.range n).flatMap (fun j => (List.range qm).map (fun i => e.getD (i * n + j) d))

/-- Sums of a sequence folded onto a ring of `n` positions. -/
def foldSums (n : Nat) : Nat → List Int → List Int → List Int
  | 0, acc, _ => acc
  | k + 1, acc, xs =>
    if xs.isEmpty then acc
    else
      let h := xs.take n
      foldSums n k (List.zipWith (fun a b => a + b) acc (h ++ List.replicate (n - h.length) 0)) (xs.drop n)

/-- q1: the exact sum of the LLRs that fall on each position (R183). -/
def deRateMatch (ring : List Nat) (ncb : Nat) (e : List Int) : List Int :=
  let n := ring.length
  if n = 0 then List.replicate ncb 0
  else
    let sums := foldSums n (e.length / n + 1) (List.replicate n 0) e
    (List.zip ring sums).foldl (fun (q : List Int) p => q.set p.1 p.2) (List.replicate ncb 0)

/-! ### HARQ combining (R183) -/

/-- sat127. -/
def sat127 (x : Int) : Int := max (-127) (min 127 x)

/-- Combine: the scale code in force, the values, the positions that saturated. -/
def combine (s0 s1 : Nat) (q0 q1 : List Int) : Nat × List Int × Nat :=
  let s := if Frac.lt (ue5m3 s1) (ue5m3 s0) then s0 else s1
  if (ue5m3 s).isZero then (s, q1.map (fun _ => 0), 0)
  else
    let rs := List.zipWith (fun (a b : Int) =>
      (Frac.div (Frac.add (Frac.mul ⟨a, 1⟩ (ue5m3 s0)) (Frac.mul ⟨b, 1⟩ (ue5m3 s1))) (ue5m3 s)).rne) q0 q1
    (s, rs.map sat127, (rs.filter (fun r => decide (sat127 r ≠ r))).length)

/-! ### The LDPC decoder (R184) -/

/-- A-posteriori values, and the check messages of each row by lane. -/
structure Bp where
  l : List Int
  r : List (List (List Int))

/-- Variables of a lane of a row. -/
def laneVars (zc : Nat) (row : List (Nat × Nat)) (z : Nat) : List Nat := row.map (fun e => e.1 * zc + (z + e.2) % zc)

/-- New check messages from the variable messages of a lane: sign of the others, rne(0.75 × their least magnitude), 8 bits. -/
def checkNode (ts : List Int) : List Int :=
  ts.zipIdx.map (fun p =>
    let others := (ts.zipIdx.filter (fun q => q.2 != p.2)).map (fun q => q.1)
    let m := (others.map Int.natAbs).foldl min 511
    let neg := (others.filter (fun t => decide (t < 0))).length % 2 = 1
    let v : Int := min 127 (rneDiv (3 * m) 4)
    if neg then -v else v)

/-- One lane of a row. -/
def bpLane (zc : Nat) (row : List (Nat × Nat)) (l : List Int) (z : Nat) (old : List Int) : List (Nat × Int) × List Int :=
  let vs := laneVars zc row z
  let ts := vs.zipIdx.map (fun p => satS 10 (l.getD p.1 0 - old.getD p.2 0))
  let rs := checkNode ts
  ((List.zip vs (List.zipWith (fun t r => satS 10 (t + r)) ts rs)), rs)

/-- One row of an iteration. -/
def bpRow (zc : Nat) (b : Bp) (p : List (Nat × Nat) × Nat) : Bp :=
  let old := b.r.getD p.2 []
  let lanes := (List.range zc).map (fun z => bpLane zc p.1 b.l z (old.getD z []))
  { l := lanes.foldl (fun (l : List Int) x => x.1.foldl (fun (m : List Int) w => m.set w.1 w.2) l) b.l
    r := b.r.set p.2 (lanes.map (fun x => x.2)) }

/-- Do all parity checks of the rows hold? -/
def parityHolds (zc : Nat) (rows : List (List (Nat × Nat))) (l : List Int) : Bool :=
  rows.all (fun row => (List.range zc).all (fun z =>
    (((laneVars zc row z).filter (fun v => decide (l.getD v 0 < 0))).length) % 2 == 0))

/-- Iterate up to a limit: the values, the iterations run, whether the checks hold. DESIGN CHOICE, log entry 85. -/
def bpRun (zc : Nat) (rows : List (List (Nat × Nat))) : Nat → Nat → Bp → List Int × Nat × Bool
  | 0, done, b => (b.l, done, parityHolds zc rows b.l)
  | k + 1, done, b =>
    let b' := rows.zipIdx.foldl (bpRow zc) b
    if parityHolds zc rows b'.l then (b'.l, done + 1, true) else bpRun zc rows k (done + 1) b'

/-- Rows that the code block's rate needs: the four core rows, and those whose parity columns the sent positions reach. -/
def rowsNeeded (g : CbShape) (bg : Nat) (ring : List Nat) (e : Nat) : Nat :=
  let top := (ring.take e).foldl max 0
  min (graphRows bg) (max 4 ((2 * g.zc + top + g.zc) / g.zc - g.cols))

/-- Initial values: the punctured columns at zero, fillers at the largest magnitude, then the circular buffer. -/
def bpStart (g : CbShape) (bg : Nat) (q : List Int) : List Int :=
  let n := (g.cols + graphRows bg) * g.zc
  let body := List.replicate (2 * g.zc) 0 ++ q ++ List.replicate (n - 2 * g.zc - q.length) 0
  body.zipIdx.map (fun p => if g.kp ≤ p.2 ∧ p.2 < g.cols * g.zc then 511 else p.1)

/-- Decode: the K' bits, the iterations, whether the parity checks hold. DESIGN CHOICE, log entry 85. -/
def ldpcDecode (g : CbShape) (bg rows limit : Nat) (q : List Int) : List Bool × Nat × Bool :=
  let m := (Config.baseGraph bg g.zc).take rows
  let r := bpRun g.zc m limit 0 ⟨bpStart g bg q, m.map (fun _ => [])⟩
  ((r.1.take g.kp).map (fun v => decide (v < 0)), r.2.1, r.2.2)

/-- Does the CRC of a decoded code block hold: CRC24B of one of several, else the transport block's (R184)? DESIGN CHOICE, log entry 85. -/
def cbCrcOk (tbs count : Nat) (bits : List Bool) : Bool :=
  if 1 < count then crc24b bits == 0 else if 3824 < tbs then crc24a bits == 0 else crc16t bits == 0

/-! ### Soft buffers (R182) -/

/-- A soft buffer as read: valid, N_cb, Zc, base graph, scale, values. -/
structure Soft where
  valid : Bool
  ncb : Nat
  zc : Nat
  bg : Nat
  scale : Nat
  values : List Int

/-- Bytes of a soft buffer: header and values padded to 64. -/
def softStride (ncb : Nat) : Nat := 64 + (ncb + 63) / 64 * 64

/-- Read a buffer's bytes (Table 7.6). -/
def softOf (b : List Byte) : Soft :=
  ⟨bitOf (leAt b 8 1) 0, leAt b 0 4, leAt b 4 2, leAt b 6 1, leAt b 7 1, (b.drop 64).map (fun x => x.toInt)⟩

/-- A buffer's bytes. -/
def softBytes (ncb zc bg scale : Nat) (q : List Int) : List Byte :=
  padTo (softStride ncb) (leBytes 4 ncb ++ leBytes 2 zc ++ leBytes 1 bg ++ leBytes 1 scale ++ leBytes 1 1 ++ zeros 55 ++
    q.map (fun x => BitVec.ofInt 8 x))

/-- Bytes of a place for a soft buffer of the fallback: the largest, N_cb = 66 × 384. DESIGN CHOICE, log entry 86. -/
def fbPlaceBytes : Nat := softStride 25344

/-- Address of a place in the fallback's range (R182). -/
def fbPlaceAddr (s : State) (i : Nat) : Nat := s.fbSoftBase + fbPlaceBytes * i

/-- Give a code block a place in the fallback's range: its own, a new one, or where all are taken another's; none where the range holds none.
DESIGN CHOICE, log entry 86. -/
def claimPlace (s : State) (k : SoftKey) : Option Nat × State :=
  let most := s.fbSoftLen / fbPlaceBytes
  match s.fbSoft.findIdx? (fun x => x == k) with
  | some i => (some i, s)
  | none =>
    if s.fbSoft.length < most then (some s.fbSoft.length, { s with fbSoft := s.fbSoft ++ [k] })
    else if most = 0 then (none, s)
    else (some (k.ue % most), { s with fbSoft := s.fbSoft.set (k.ue % most) k })

/-- A buffer that is not valid. -/
def softNone : Soft := ⟨false, 0, 0, 0, 0, []⟩

/-- Read the fallback's buffer of a code block; a poisoned one is not valid (Table 9.6). -/
def fbSoftOf (s : State) (k : SoftKey) (ncb : Nat) : Soft × State :=
  match s.fbSoft.findIdx? (fun x => x == k) with
  | none => (softNone, s)
  | some i =>
    let r := busRead s 22 (fbPlaceAddr s i) (softStride ncb)
    (if r.poisoned then softNone else softOf r.bytes, r.state)

/-- Write the fallback's buffer of a code block. -/
def setFbSoft (s : State) (k : SoftKey) (bs : List Byte) : State :=
  match claimPlace s k with
  | (some i, t) => busWrite t 22 (fbPlaceAddr t i) bs
  | (none, t) => t

/-- A code −128 is used as −127 (R181). -/
def llrUsed (x : Int) : Int := max (-127) x

/-! ### LDPC_DECODE -/

/-- What a decode came to: scale, combined values, output; and the counters it moves. -/
structure Decoded where
  scale : Nat
  q : List Int
  out : CbOut
  conv : Bool
  sat : Nat
  mismatch : Bool

/-- Decode one code block on decoder n from its soft buffer and LLRs. -/
def decodeCb (limit n : Nat) (a : Alloc) (ncb : Nat) (soft : Soft) (scale : Nat) (llrs : List Int) : Decoded :=
  let bg := a.code % 2 + 1
  let g := cbShape a.tbs bg
  let new := bitOf a.flags 0
  let mismatch := soft.valid && !new && (soft.ncb != ncb || soft.zc != g.zc || soft.bg != bg)
  let fresh := new || !soft.valid || mismatch
  let ring := ringOf g bg ncb (bitsOf a.code 2 1)
  let q1 := deRateMatch ring ncb (deinterleave 0 (max 1 a.qm) (llrs.map llrUsed))
  let q0 := if fresh then List.replicate ncb 0 else soft.values.take ncb
  let (sc, q, sat) := combine (if fresh then 0 else soft.scale) scale q0 q1
  let (bits, iters, conv) := ldpcDecode g bg (rowsNeeded g bg ring llrs.length) limit q
  let ok := cbCrcOk a.tbs g.count bits
  ⟨sc, q, ⟨if 1 < g.count then bits.take (g.kp - 24) else bits, ok, iters, n⟩, conv, sat, mismatch⟩

/-- Count a decode (Table 7.13). -/
def countDecode (s : State) (n many m128 : Nat) (d : Decoded) : State :=
  let s1 := ((s.bump (Reg.DEC_LDPC_CB_DONE n)).bumpBy (Reg.DEC_LDPC_ITER_SUM n) d.out.iters).bumpBy (Reg.DEC_LDPC_HARQ_SAT n) d.sat
  let s2 := s1.bumpBy (Reg.DEC_LDPC_LLR_M128 n) m128
  let s3 := if d.mismatch then s2.bump (Reg.DEC_LDPC_HARQ_MISMATCH n) else s2
  let s4 := if d.conv then s3 else s3.bump (Reg.DEC_LDPC_MAX_ITER_HIT n)
  if 1 < many && !d.out.crcOk then s4.bump (Reg.DEC_LDPC_CB_CRC_FAIL n) else s4

/-- Codes −128 among LLRs. -/
def countM128 (l : List Int) : Nat := (l.filter (fun x => decide (x < -127))).length

/-- A decode on the learned path: its soft buffer lies in job memory. -/
def decodeLearned (s : State) (n c id : Nat) (a : Alloc) (b : CodeBlock) (o : DecodeOp) : State :=
  let va := a.softbuf + b.inTb * softStride o.ncb
  let r := virtRead s 37 va (softStride o.ncb)
  if r.fault.isSome then computeReset r.state 4
  else if r.poisoned then computeReset r.state 6
  else
    let ls := o.llrs.map (fun x => x.toInt)
    let d := decodeCb (r.state.fld (Fd.DEC_LDPC_CFG_MAX_ITER n)) n a o.ncb (softOf r.bytes) o.scale.toNat ls
    let g := cbShape a.tbs (a.code % 2 + 1)
    let w := virtWrite (countDecode r.state n b.ofTb (countM128 ls) d) 37 va (softBytes o.ncb g.zc (a.code % 2 + 1) d.scale d.q)
    if w.fault.isSome then computeReset w.state 4 else cbOutput w.state c id b.num false d.out

/-- A decode of the fallback, from the LLRs that its receiver produced. DESIGN CHOICE, log entry 86. -/
def decodeFallback (s : State) (n c id : Nat) (a : Alloc) (b : CodeBlock) (ncb scale : Nat) (ls : List Int) : State :=
  let k : SoftKey := ⟨c, a.ue, a.harq, b.inTb⟩
  let r := fbSoftOf s k ncb
  let d := decodeCb (s.fld (Fd.DEC_LDPC_CFG_MAX_ITER n)) n a ncb r.1 scale ls
  let g := cbShape a.tbs (a.code % 2 + 1)
  let s1 := setFbSoft (countDecode r.2 n b.ofTb (countM128 ls) d) k (softBytes ncb g.zc (a.code % 2 + 1) d.scale d.q)
  cbOutput s1 c id b.num true d.out

/-- LDPC_DECODE on decoder n. -/
def ldpcStep (s : State) (n c id num : Nat) (o : DecodeOp) : State :=
  match s.slotCtx c id with
  | none => s
  | some x => match x.cbs.find? (fun b => b.num == num) with
    | none => s
    | some b =>
      let a := x.allocs.getD b.alloc (allocRec [])
      if n < 12 then (if computeRunning s && x.learned then decodeLearned s n c id a b o else s)
      else if !(fallbackRuns s x) then s
      else match x.fbLlrs.find? (fun l => l.1 == num) with
        | some l => decodeFallback s n c id a b o.ncb l.2.1 l.2.2
        | none => s

/-- LDPC_DECODE (R184): decoder, carrier, number of the slot's tick on it, code block. -/
def execLdpcDecode (n : Fin 16) (carrier : Fin 8) (tick : BitVec 32) (cb : Fin 2048) (o : DecodeOp) (s : State) :
    Host.Outcome State Fault Refusal :=
  up s (fun s => ldpcStep s n.val carrier.val tick.toNat cb.val o)

/-! ### LDPC_ENCODE (R186) -/

/-- Coded bits of code block j of `count` (TS 38.212 clause 5.4.2.1). -/
def codedShare (o : EncodeOp) (count j : Nat) : Nat :=
  let u := max 1 (o.layers * o.qm)
  let per := o.coded / u
  u * (if j < count - per % count then per / count else (per + count - 1) / count)

/-- Two sets of unknowns, each without repeats, added modulo 2. -/
def xorSets (a b : List Nat) : List Nat := a.filter (fun v => !(b.contains v)) ++ b.filter (fun v => !(a.contains v))

/-- An equation modulo 2 with the unknowns that earlier pivots determine taken out. -/
def reduceEq (ps : List (Nat × List Nat × Bool)) (e : List Nat × Bool) : List Nat × Bool :=
  ps.foldl (fun (e : List Nat × Bool) p => if e.1.contains p.1 then (xorSets e.1 p.2.1, e.2 != p.2.2) else e) e

/-- The pivots of equations modulo 2, each the first unknown of its reduced equation. -/
def pivotsOf (es : List (List Nat × Bool)) : List (Nat × List Nat × Bool) :=
  es.foldl (fun ps e =>
    let r := reduceEq ps e
    match r.1 with
    | [] => ps
    | v :: _ => ps ++ [(v, r)]) []

/-- The unknowns by back substitution, the last pivot first; an unknown without a pivot is 0. -/
def solveEqs (es : List (List Nat × Bool)) : List (Nat × Bool) :=
  (pivotsOf es).reverse.foldl (fun vals p =>
    (p.1, (p.2.1.filter (fun v => v != p.1)).foldl (fun b v => b != ((vals.find? (fun q => q.1 == v)).map (fun q => q.2)).getD false) p.2.2) :: vals) []

/-- The parity bits of a code block (R186): those with which every lifted row of its base graph holds on the systematic bits and them. The
rows and shifts are TS 38.212's. PRESUMED, log entry 41. -/
def ldpcParity (bg zc : Nat) (sys : List Bool) : List Bool :=
  let k := sys.length
  let check (row : List (Nat × Nat)) (i : Nat) : List Nat × Bool :=
    let at' := row.map (fun p => p.1 * zc + (i + p.2) % zc)
    (at'.filter (fun v => decide (k ≤ v)), (at'.filter (fun v => decide (v < k))).foldl (fun b v => b != sys.getD v false) false)
  let vals := solveEqs ((Config.baseGraph bg zc).flatMap (fun row => (List.range zc).map (check row)))
  (List.range (graphRows bg * zc)).map (fun j => ((vals.find? (fun q => q.1 == k + j)).map (fun q => q.2)).getD false)

/-- One code block: CRC, fillers, parity, rate matching, interleaving. -/
def encodeCb (o : EncodeOp) (g : CbShape) (j : Nat) (bits : List Bool) : List Bool :=
  let bg := b2n o.bg + 1
  let info := bits ++ (if 1 < g.count then msbBits 24 (crc24b bits) else [])
  let sys := info ++ List.replicate (g.cols * g.zc - info.length) false
  let n := graphRows bg * g.zc
  let d := sys.drop (2 * g.zc) ++ (ldpcParity bg g.zc sys ++ List.replicate n false).take n
  let ring := ringOf g bg (min o.ncb d.length) o.rv.val
  let e := (List.range (codedShare o g.count j)).map (fun t => d.getD (ring.getD (t % max 1 ring.length) 0) false)
  interleave false (max 1 o.qm) e

/-- Bits in equal bitPieces. -/
def bitPieces (n : Nat) : Nat → List Bool → List (List Bool)
  | 0, _ => []
  | k + 1, bs => bs.take n :: bitPieces n k (bs.drop n)

/-- The coded bits of a transport block. -/
def encodeTb (o : EncodeOp) (bytes : List Byte) : List Bool × Nat :=
  let bits := ((bytes.flatMap (fun b => msbBits 8 b.toNat))).take o.tbs
  let tb := bits ++ (if 3824 < o.tbs then msbBits 24 (crc24a bits) else msbBits 16 (crc16t bits))
  let g := cbShape o.tbs (b2n o.bg + 1)
  let per := if 1 < g.count then g.kp - 24 else g.kp
  (((bitPieces per g.count tb).zipIdx).flatMap (fun p => encodeCb o g p.2 p.1), g.count)

/-- LDPC_ENCODE on encoder n. -/
def ldpcEncode (s : State) (n : Nat) (o : EncodeOp) : State :=
  if !(computeRunning s) then s
  else
    let r := virtRead s 37 o.dataVa ((o.tbs + 7) / 8)
    if r.fault.isSome then computeReset r.state 4
    else if r.poisoned then computeReset r.state 6
    else
      let (bits, count) := encodeTb o r.bytes
      { r.state with coded := Tbl.set (fun _ => []) r.state.coded n bits }.bumpBy (Reg.DEC_LENC_CB_ENC n) count

/-- LDPC_ENCODE (R186). -/
def execLdpcEncode (n : Fin 8) (o : EncodeOp) (s : State) : Host.Outcome State Fault Refusal :=
  up s (fun s => ldpcEncode s n.val o)

end Sys2Proof.Machine
end

