-- ==== Sys2Proof/Machine/Icn.lean ====
section
/-! DEFINITION. The interrupt concentrator (R418 to R425, R427): delivery by level, the coalescers, the in-service stacks, and its
registers' own writes. -/

namespace Sys2Proof.Machine

/-- The origin of a target: 5 and 6 for the hosts, 0 for SC, 1 to 4 for CC0 to CC3 (R420). -/
def targetOrigin (t : Nat) : Nat := if t < 2 then 5 + t else t - 2

/-- May an origin write TGT[t] (R427)? -/
def ownsTarget (origin t : Nat) : Bool := origin == 0 || origin == targetOrigin t

/-! ### The in-service stack (R422) -/

/-- Entries on the stack of target t. -/
def stackDepth (s : State) (t : Nat) : Nat := s.fld (Fd.TGT_STATUS_DEPTH t)

/-- The level at depth k. -/
def stackAt (s : State) (t k : Nat) : Nat := bitsOf (s.regN (Reg.TGT_STACK t)) (4 * k + 3) (4 * k)

/-- Push a level. -/
def pushLevel (s : State) (t v : Nat) : State :=
  let d := stackDepth s t
  ((s.setFld ⟨Reg.TGT_STACK t, 4 * d + 3, 4 * d⟩ v).setFld (Fd.TGT_STATUS_DEPTH t) (d + 1)).setFld (Fd.TGT_STATUS_TOP t) v

/-- Pop the top. -/
def popLevel (s : State) (t : Nat) : State :=
  let d := stackDepth s t - 1
  let s1 := (s.setFld ⟨Reg.TGT_STACK t, 4 * d + 3, 4 * d⟩ 0).setFld (Fd.TGT_STATUS_DEPTH t) d
  s1.setFld (Fd.TGT_STATUS_TOP t) (if d = 0 then 0 else stackAt s1 t (d - 1))

/-- Empty the stack and clear FROZEN (R425, Table 16.3). -/
def clearStack (s : State) (t : Nat) : State := (s.setRegN (Reg.TGT_STACK t) 0).setRegN (Reg.TGT_STATUS t) 0

/-! ### Delivery -/

/-- Is a level unmasked at its target: for a host its MSI-X vector and its function, on a port that sends (R405, R422)? -/
def levelOpen (s : State) (t v : Nat) : Bool :=
  decide (2 ≤ t) || (s.msixOn.contains (16 * t + v) && !(s.fnMasked.contains t) && !(portQuiet s t))

/-- The ready levels above the top of the stack, highest first. -/
def readyLevels (s : State) (t : Nat) : List Nat :=
  ((List.range 16).reverse).filter (fun v =>
    (s.coalOf t v).ready && (decide (stackDepth s t = 0) || decide (s.fld (Fd.TGT_STATUS_TOP t) < v)))

/-- Set a coalescer. -/
def setCoal (s : State) (t v : Nat) (c : Coal) : State := { s with coal := Tbl.set coalReset s.coal (16 * t + v) c }

/-- Deliver level v at target t: pushed, its coalescer cleared, to a host as MSI-X vector v (R410, R422). -/
def deliverLevel (s : State) (t v : Nat) : State :=
  let s1 := (setCoal (pushLevel s t v) t v (coalReset 0)).bump (Reg.TGT_DELIVERED t)
  if t < 2 then
    let k := 16 * t + v
    let a := Tbl.get (fun _ => 0) s1.msix (4 * k) + 2 ^ 32 * Tbl.get (fun _ => 0) s1.msix (4 * k + 1)
    { s1 with pba := s1.pba.filter (fun x => x != k)
              msixSent := Tbl.set (fun _ => (0, 0)) s1.msixSent t (a, Tbl.get (fun _ => 0) s1.msix (4 * k + 2)) }
  else s1

/-- A masked vector sets its PBA bit and pushes nothing (R422). DEDUCED, log entry 99. -/
def markPba (s : State) (t v : Nat) : State :=
  if s.pba.contains (16 * t + v) then s else { s with pba := s.pba ++ [16 * t + v] }

/-- A target delivers the highest level that is eligible; ready levels that are masked set their PBA bits (R422). In Retain the
concentrator keeps its state and does not act (Table 18.5). DEDUCED, log entry 99. -/
def deliver (s : State) (t : Nat) : State :=
  if !(s.flag (Fd.TGT_CTRL_EN t)) || s.flag (Fd.TGT_STATUS_FROZEN t) || s.fld Fd.PMU_STATE_STATE == 2 then s
  else
    let s1 := ((readyLevels s t).filter (fun v => !(levelOpen s t v))).foldl (fun u v => markPba u t v) s
    match (readyLevels s t).find? (fun v => levelOpen s t v) with
    | some v => deliverLevel s1 t v
    | none => s1

/-- INTERRUPT_DELIVERY (R422). -/
def execInterruptDelivery (target : Fin 7) (s : State) : Host.Outcome State Fault Refusal :=
  up s (fun s => deliver s target.val)

/-- Has the timer of a level reached TIME, in microseconds of elapsed time since the first latch (R423)? A microsecond is 156.25 cycles. -/
def coalDue (s : State) (t v : Nat) : Bool :=
  let c := s.coalOf t v
  c.timer && decide (625 * s.fld (Fd.TGT_COAL_TIME t v) ≤ 4 * (s.elapsed - c.start))

/-- COALESCE_TIMEOUT (R423): a timer that has reached TIME makes its level ready; before that nothing changes. DESIGN CHOICE, log entry 10. -/
def execCoalesceTimeout (target : Fin 7) (level : Fin 16) (s : State) : Host.Outcome State Fault Refusal :=
  up s (fun s =>
    let c := s.coalOf target.val level.val
    if coalDue s target.val level.val then setCoal s target.val level.val { c with ready := true } else s)

/-! ### End of service (R424, R425) -/

/-- Is some enabled pending bit of a level left at a target? -/
def levelPending (s : State) (t v : Nat) : Bool :=
  let priv := s.reg (Reg.TGT_PRIV_PEND t) &&& s.reg (Reg.TGT_PRIV_EN t)
  let shared := s.regs.filter (fun p => decide (Reg.ICN_SH_PEND 0 ≤ p.1) && decide (p.1 < Reg.ICN_SH_PEND 64))
  (List.range 64).any (fun i => bitOf priv.toNat i && privLevel s t i == v) ||
    shared.any (fun p =>
      let w := (p.1 - Reg.ICN_SH_PEND 0) / 4
      let m := p.2 &&& s.reg (Reg.ICN_SH_EN w)
      (List.range 32).any (fun i => bitOf m.toNat i && s.fld (Fd.ICN_ROUTE_TARGET (32 * w + i)) == t &&
        s.fld (Fd.ICN_ROUTE_LEVEL (32 * w + i)) == v))

/-- A write of EOI by an origin that may: service of the top level ends, and the level is ready again if a bit of it is pending; any other
level is a stack-order fault. A frozen stack does not pop. DEDUCED, log entry 99. -/
def eoiWrite (s : State) (t origin v : Nat) : State :=
  if !(ownsTarget origin t) then logIgnored s origin (Reg.TGT_EOI t) v
  else
    let l := v % 16
    if stackDepth s t ≠ 0 ∧ s.fld (Fd.TGT_STATUS_TOP t) = l then
      if s.flag (Fd.TGT_STATUS_FROZEN t) then s
      else
        let s1 := popLevel s t
        if levelPending s1 t l then setCoal s1 t l { s1.coalOf t l with ready := true } else s1
    else
      let s1 := (s.setFld (Fd.TGT_STATUS_FROZEN t) 1).bump (Reg.TGT_STACK_ORDER t)
      logIgnored (raisePriv s1 2 (48 + t)) origin (Reg.TGT_EOI t) v

/-- EOI (R424, R425). -/
def execEoi (target : Fin 7) (origin : Fin 64) (value : Word32) (s : State) : Host.Outcome State Fault Refusal :=
  up s (fun s => ctlGate s origin.val (Reg.TGT_EOI target.val) (fun s => eoiWrite s target.val origin.val value.toNat))

/-- A write of TGT[t].CTRL: EN, and STACK_CLR (R425). -/
def tgtCtrlWrite (s : State) (t origin v : Nat) : State :=
  if !(ownsTarget origin t) then logIgnored s origin (Reg.TGT_CTRL t) v
  else
    let s1 := s.setFld (Fd.TGT_CTRL_EN t) (v % 2)
    if bitOf v 1 then clearStack s1 t else s1

/-- STACK_CLR (R425). -/
def execStackClr (target : Fin 7) (origin : Fin 64) (value : Word32) (s : State) : Host.Outcome State Fault Refusal :=
  up s (fun s => ctlGate s origin.val (Reg.TGT_CTRL target.val) (fun s => tgtCtrlWrite s target.val origin.val value.toNat))

/-- A write of SWSET: a source from 1024 on rises (Table 16.7). -/
def swsetWrite (s : State) (origin v : Nat) : State :=
  if v % 2048 < 1024 then logIgnored s origin Reg.ICN_SWSET v else raiseShared s (v % 2048)

/-- SWSET (R418). -/
def execSwset (origin : Fin 64) (value : Word32) (s : State) : Host.Outcome State Fault Refusal :=
  up s (fun s => ctlGate s origin.val Reg.ICN_SWSET (fun s => swsetWrite s origin.val value.toNat))

/-! ### Pending bits and enables (R420, R421) -/

/-- A W1C write of a target's private pending bits: from the bit's target only. -/
def privClear (s : State) (t origin : Nat) (v : Word) : State :=
  if origin = targetOrigin t then s.setReg (Reg.TGT_PRIV_PEND t) (s.reg (Reg.TGT_PRIV_PEND t) &&& ~~~v)
  else logIgnored s origin (Reg.TGT_PRIV_PEND t) v.toNat

/-- A W1C write of a word of shared pending bits: each bit from the target its source is routed to. -/
def sharedClear (s : State) (w origin v : Nat) : State :=
  let mine (i : Nat) : Bool := targetOrigin (s.fld (Fd.ICN_ROUTE_TARGET (32 * w + i))) == origin
  let ones := (List.range 32).filter (fun i => bitOf v i)
  let m := (ones.filter mine).foldl (fun m i => m + 2 ^ i) 0
  let s1 := s.setReg (Reg.ICN_SH_PEND w) (s.reg (Reg.ICN_SH_PEND w) &&& ~~~(BitVec.ofNat 64 m))
  if ones.any (fun i => !(mine i)) then logIgnored s1 origin (Reg.ICN_SH_PEND w) v else s1

/-- The offset of a word of pending bits. -/
def pendOff : IcnWord → Nat
  | .priv t => Reg.TGT_PRIV_PEND t.val
  | .shared w => Reg.ICN_SH_PEND w.val

/-- The offset of a word of enables. -/
def enableOff : IcnWord → Nat
  | .priv t => Reg.TGT_PRIV_EN t.val
  | .shared w => Reg.ICN_SH_EN w.val

/-- PENDING_CLEAR (R420). -/
def execPendingClear (word : IcnWord) (origin : Fin 64) (value : Word) (s : State) : Host.Outcome State Fault Refusal :=
  up s (fun s => ctlGate s origin.val (pendOff word) (fun s =>
    match word with
    | .priv t => privClear s t.val origin.val value
    | .shared w => sharedClear s w.val origin.val (value.toNat % 2 ^ 32)))

/-- A write of a target's private enables: a source that is enabled with its pending bit set counts as a latch (R421). -/
def privEnable (s : State) (t origin : Nat) (v : Word) : State :=
  if !(ownsTarget origin t) then logIgnored s origin (Reg.TGT_PRIV_EN t) v.toNat
  else
    let new := v &&& ~~~(s.reg (Reg.TGT_PRIV_EN t)) &&& s.reg (Reg.TGT_PRIV_PEND t)
    ((List.range 64).filter (fun i => bitOf new.toNat i)).foldl (fun u i => latchLevel u t (privLevel u t i))
      (s.setReg (Reg.TGT_PRIV_EN t) v)

/-- A write of a word of shared enables. -/
def sharedEnable (s : State) (w v : Nat) : State :=
  let x := BitVec.ofNat 64 v
  let new := x &&& ~~~(s.reg (Reg.ICN_SH_EN w)) &&& s.reg (Reg.ICN_SH_PEND w)
  ((List.range 32).filter (fun i => bitOf new.toNat i)).foldl (fun u i =>
    latchLevel u (u.fld (Fd.ICN_ROUTE_TARGET (32 * w + i))) (u.fld (Fd.ICN_ROUTE_LEVEL (32 * w + i)))) (s.setReg (Reg.ICN_SH_EN w) x)

/-- INTERRUPT_ENABLE (R421). -/
def execInterruptEnable (word : IcnWord) (origin : Fin 64) (value : Word) (s : State) : Host.Outcome State Fault Refusal :=
  up s (fun s => ctlGate s origin.val (enableOff word) (fun s =>
    match word with
    | .priv t => privEnable s t.val origin.val value
    | .shared w => sharedEnable s w.val (value.toNat % 2 ^ 32)))

/-! ### Routing and coalescer settings (R419, R423) -/

/-- A write of ROUTE[x]: by origins 0 to 4, or by a port that holds SEM0, of a target that exists. A source whose pending bit is set takes
it along, which is a latch at the new place if it is enabled (R421). -/
def routeWrite (s : State) (x origin v : Nat) : State :=
  let off := Reg.ICN_ROUTE x
  let may := decide (origin < 5) || ((origin == 5 || origin == 6) && holdsSem s (origin - 5) 0)
  if !may || bitsOf v 6 4 == 7 then logIgnored s origin off v
  else
    let s1 := putRw s off (BitVec.ofNat 64 v)
    let live := s.regBit (Reg.ICN_SH_PEND (x / 32)) (x % 32) && s.regBit (Reg.ICN_SH_EN (x / 32)) (x % 32)
    if live && s1.reg off != s.reg off then latchLevel s1 (bitsOf v 6 4) (v % 16) else s1

/-- ROUTE_WRITE (R419). -/
def execRouteWrite (source : Fin 2048) (origin : Fin 64) (value : Word32) (s : State) : Host.Outcome State Fault Refusal :=
  up s (fun s => ctlGate s origin.val (Reg.ICN_ROUTE source.val) (fun s => routeWrite s source.val origin.val value.toNat))

/-- A write of COAL[v]: COUNT 1 to 4,096, TIME from 1 (R423). -/
def coalWrite (s : State) (off origin v : Nat) : State :=
  let n := bitsOf v 28 16
  if n = 0 ∨ 4096 < n ∨ v % 65536 = 0 then logIgnored s origin off v else putRw s off (BitVec.ofNat 64 v)

/-- A write of a register of TGT[t] at an offset in it. -/
def tgtWrite (s : State) (t o origin : Nat) (v : Word) : State :=
  let off := Reg.TGT_CTRL t + o
  if o = 0 then tgtCtrlWrite s t origin v.toNat
  else if o = 8 then eoiWrite s t origin v.toNat
  else if o = 0x18 then privClear s t origin v
  else if o = 0x20 then privEnable s t origin v
  else if !(ownsTarget origin t) then logIgnored s origin off v.toNat
  else if 0x80 ≤ o ∧ o < 0xC0 then coalWrite s off origin v.toNat
  else putRw s off v

/-- A write of an ICN register. -/
def icnWrite (s : State) (origin off : Nat) (v : Word) : State :=
  let o := off - 0x40000
  if o < 0x1C00 then tgtWrite s (o / 0x400) (o % 0x400) origin v
  else if o < 0x4100 then sharedClear s ((o - 0x4000) / 4) origin (v.toNat % 2 ^ 32)
  else if o < 0x4200 then sharedEnable s ((o - 0x4100) / 4) (v.toNat % 2 ^ 32)
  else if o = 0x4200 then swsetWrite s origin (v.toNat % 2 ^ 32)
  else routeWrite s ((o - 0x8000) / 4) origin (v.toNat % 2 ^ 32)

/-- SH_SUM of a target: bit w where word w holds a pending bit of a source routed to it (R420). -/
def shSum (s : State) (t : Nat) : Nat :=
  (s.regs.filter (fun p => decide (Reg.ICN_SH_PEND 0 ≤ p.1) && decide (p.1 < Reg.ICN_SH_PEND 64))).foldl (fun m p =>
    let w := (p.1 - Reg.ICN_SH_PEND 0) / 4
    if (List.range 32).any (fun i => bitOf p.2.toNat i && s.fld (Fd.ICN_ROUTE_TARGET (32 * w + i)) == t) then m + 2 ^ w else m) 0

end Sys2Proof.Machine
end

