-- ==== Sys2Proof/Machine/Streams.lean ====
section
/-! DEFINITION. The stream engines (R238 to R244): descriptors, requests and tags, deadlines, completion records, arming and
cancelling. -/

namespace Sys2Proof.Machine

/-! ### A stream and its registers -/

/-- Origin of the stream engines (Table 12.5). -/
@[reducible] def sdeOrigin : Nat := 34

/-- Island of the stream engines: the NOC (Table 11.4). -/
@[reducible] def nocIsland : Nat := 144

/-- The running stream of a number. -/
def State.stream (s : State) (n : Nat) : Option Stream := s.streams.find? (fun x => x.num == n)

/-- Put a stream back. -/
def State.setStream (s : State) (x : Stream) : State :=
  { s with streams := s.streams.map (fun y => if y.num = x.num then x else y) }

/-- PC of a stream. -/
def streamPc (s : State) (n : Nat) : Nat := s.fld (Fd.SDE_CTX_PC_INDEX (n / 4) (n % 4))

/-- Set it. -/
def setStreamPc (s : State) (n pc : Nat) : State := s.setFld (Fd.SDE_CTX_PC_INDEX (n / 4) (n % 4)) (pc % 65536)

/-- Take or return tags of an engine: FREE + IN_FLIGHT stays 256 (R241). -/
def setTags (s : State) (e free : Nat) : State :=
  (s.setFld (Fd.SDE_TAGS_FREE e) free).setFld (Fd.SDE_TAGS_IN_FLIGHT e) (256 - free)

/-- NOC cycles in a number of REFCLK cycles, by the clock plan (Table 1.2). -/
def nocCycles (s : State) (edges : Nat) : Nat := edges * (if s.flag Fd.CAP_STATUS_PLAN then 720 else 960) * 100 / 15625

/-! ### Completion records (R243) -/

/-- A record of a stream: written, or it waits for a place; a ring that cannot be translated is a job fault. -/
def streamRecord (s : State) (n : Nat) (bs : List Byte) : State :=
  match s.stream n with
  | none => s
  | some x =>
    if !(x.records.isEmpty) || crWaits s n then
      let t := s.setStream { x with
        records := x.records ++ [bs], stallFrom := if x.records.isEmpty then s.elapsed else x.stallFrom }
      if crFull s n then t.setFld (Fd.SDE_CTX_STATE_CR_FULL (n / 4) (n % 4)) 1 else t
    else
      let (f, t) := crWrite s n bs
      if f.isSome then computeReset t 4 else t

/-- Write one of the records that wait, if the ring has a place. -/
def flushRecord (s : State) (n : Nat) : State :=
  match s.stream n with
  | none => s
  | some x =>
    match x.records with
    | [] => s
    | r :: rs =>
      if crWaits s n then s
      else
        let (f, t) := crWrite (s.setStream { x with records := rs }) n (stampRecord s r)
        if f.isSome then computeReset t 4
        else if rs.isEmpty && t.flag (Fd.SDE_CTX_STATE_CR_FULL (n / 4) (n % 4)) then
          (t.setFld (Fd.SDE_CTX_STATE_CR_FULL (n / 4) (n % 4)) 0).bumpBy (Reg.SDE_CR_STALL (n / 4))
            (nocCycles t (t.elapsed - x.stallFrom))
        else t

/-- Write the records that wait while there are places. -/
def flushRecords (s : State) (n : Nat) : State :=
  match s.stream n with
  | none => s
  | some x => x.records.foldl (fun t _ => flushRecord t n) s

/-! ### Starting and ending a generation (R244) -/

/-- The number a STREAM command names. -/
def cmdStream (c : Cmd) : Nat := c.pkt.p0.toNat % 128

/-- Generation g + 1 starts at index 0. A ring other than the one before starts empty (DEDUCED, log entry 90). -/
def startGeneration (s : State) (n prog ring space log2n : Nat) : State :=
  let e := n / 4
  let c := n % 4
  let same := s.fld (Fd.SDE_CTX_CR_BASE_ADDR e c) == ring && s.fld (Fd.SDE_CTX_CR_CFG_SPACE e c) == space &&
    s.fld (Fd.SDE_CTX_CR_CFG_LOG2N e c) == log2n
  let s1 := s.setRegN (Reg.SDE_CTX_GEN e c) ((s.regN (Reg.SDE_CTX_GEN e c) + 1) % 2 ^ 32)
  let s2 := (s1.setRegN (Reg.SDE_CTX_CR_CFG e c) (space * 16 + log2n)).setRegN (Reg.SDE_CTX_CR_BASE e c) ring
  let s3 := if same then s2 else (s2.setRegN (Reg.SDE_CTX_CR_HEAD e c) 0).setRegN (Reg.SDE_CTX_CR_TAIL e c) 0
  let s4 := ((s3.setRegN (Reg.SDE_CTX_PROG e c) prog).setRegN (Reg.SDE_CTX_PC e c) 0).setRegN (Reg.SDE_CTX_STATE e c) 1
  let x : Stream := ⟨Fin.ofNat 128 n, [], [], 0, none, [], [], 0, none, false, false, none⟩
  { s4 with streams := s4.streams.filter (fun y => y.num != n) ++ [x], streamOk := s4.streamOk.filter (fun k => k != n) }

/-- Answer every waiting STREAM command of an opcode on a stream. -/
def answerStream (s : State) (op n status : Nat) (sel : Cmd → Bool := fun _ => true) : State :=
  (s.cmds.filter (fun c => c.opcode == op && c.phase == .executing && cmdStream c == n && sel c)).foldl
    (fun t c => finishCmd t c status 0 0 0) s

/-- A generation whose FINAL record is in the ring is over: cancels are answered, an arm that waits starts. -/
def endGeneration (s : State) (n : Nat) : State :=
  match s.stream n with
  | none => s
  | some x =>
    if x.final && x.records.isEmpty then
      let s1 : State := { s with streams := s.streams.filter (fun y => y.num != n), streamOk := s.streamOk.filter (fun k => k != n) }
      let s2 := { s1.setRegN (Reg.SDE_CTX_STATE (n / 4) (n % 4)) 0 with waiters := s1.waiters.filter (fun w => w.agent != streamAgent n) }
      let s3 := answerStream (s2.setSlotOf (1000 + n) none) 0x21 n St.ok
      match x.pendingArm with
      | some (prog, ring, space, log2n) => answerStream (startGeneration s3 n prog ring space log2n) 0x20 n St.ok
      | none => s3
    else s

/-- The FINAL record of a stream: the run in progress, if one is left, ends with it. -/
def finalize (s : State) (n status flags : Nat) : State :=
  match s.stream n with
  | none => s
  | some x =>
    let bs := finalBytes s x status flags
    let s1 := streamRecord (showEpochs (s.setStream { x with final := true, runs := [], cur := none })) n bs
    endGeneration s1 n

/-! ### Descriptors (Table 9.9) -/

/-- Field accessors of a descriptor. -/
def dOp (d : List Byte) : Nat := leAt d 0 1
/-- REC. -/
def dRec (d : List Byte) : Bool := bitOf (leAt d 0 4) 8
/-- DL_V. -/
def dDlV (d : List Byte) : Bool := bitOf (leAt d 0 4) 9
/-- DL_SKIP. -/
def dSkip (d : List Byte) : Bool := bitOf (leAt d 0 4) 10
/-- LEN. -/
def dLen (d : List Byte) : Nat := leAt d 0x18 3
/-- YCNT and ZCNT. -/
def dRows (d : List Byte) : Nat := leAt d 0x1C 2
/-- ZCNT. -/
def dPlanes (d : List Byte) : Nat := leAt d 0x1E 2
/-- Bytes of a COPY; other descriptors move none. -/
def dTotal (d : List Byte) : Nat := if dOp d = 1 then dLen d * dRows d * dPlanes d else 0

/-- Is a descriptor bad (R239)? -/
def descBad (d : List Byte) (slot : Bool) : Bool :=
  dOp d == 0 || decide (6 < dOp d) || leAt d 0 2 / 32768 != 0 || leAt d 4 2 / 16384 != 0 || leAt d 8 8 / 2 ^ 50 != 0 ||
    leAt d 0x10 8 / 2 ^ 50 != 0 || leAt d 0x1B 1 != 0 || leAt d 0x30 4 / 2 ^ 27 != 0 || leAt d 0x38 8 != 0 ||
    (dOp d == 1 && dLen d == 0) || (dDlV d && !slot)

/-- A failure ends a stream: nothing more is issued, its FINAL record follows once its requests have returned. -/
def failStream (s : State) (n status : Nat) : State :=
  match s.stream n with
  | none => s
  | some x =>
    if x.final then s
    else
      let fl := match x.stop with | some (_, f) => f | none => 8
      s.setStream { x with stop := some (status, fl), abort := true }

/-- Has a run issued all it will? -/
def runIssued (x : Stream) (r : StreamRun) : Bool := x.abort || r.skip || decide (dTotal r.desc ≤ r.issued)

/-- Is a copy over: everything issued and returned (R240)? -/
def copyOver (x : Stream) (r : StreamRun) : Bool :=
  dOp r.desc == 1 && runIssued x r && x.reqs.all (fun q => q.run != r.id)

/-- A run ends: its record, LATE where its deadline passed (R242); the descriptor at PC moves the PC on. Of a stream that is to end the
descriptor in progress ends after those before it, and its record is the FINAL one (R244). DESIGN CHOICE, log entry 87. -/
def endRun (s : State) (n : Nat) (r : StreamRun) (next : Nat) : State :=
  match s.stream n with
  | none => s
  | some x =>
    let late := b2n (r.missed && !r.skip)
    let isCur := x.cur == some r.id
    let s1 := showEpochs (s.setStream { x with runs := x.runs.filter (fun y => y.id != r.id), cur := if isCur then none else x.cur })
    let s2 := if isCur then setStreamPc s1 n next else s1
    let s3 := if (dRec r.desc || late == 1) && !r.skip then
        streamRecord s2 n (recordBytes s n St.ok r.index r.user r.done late s.time64.toNat)
      else s2
    match x.stop, isCur with
    | some (st, fl), true => if x.runs.length == 1 && x.reqs.isEmpty then finalize s n st (fl + late) else s
    | _, _ => s3

/-- Withdraw a stream from the object it waits on; an arrival at a barrier is taken back. -/
def withdrawStream (s : State) (n : Nat) : State :=
  let s0 := s.setFld (Fd.SDE_CTX_STATE_WAITING (n / 4) (n % 4)) 0
  match s0.waiters.find? (fun w => w.agent == streamAgent n) with
  | none => s0
  | some w =>
    let s1 := dropWaiter s0 w
    if objType s1 w.obj = 3 then setObjValue s1 w.obj (objValue s1 w.obj - 1) else s1

/-- Is a run a wait that is abandoned: skipped, or its stream is to end (R242, R244)? -/
def waitDropped (x : Stream) (r : StreamRun) : Bool := dOp r.desc == 2 && (r.skip || x.abort || x.stop.isSome)

/-- Does a run other than a copy end without its effect: skipped, or its stream failed, or a wait that is abandoned? -/
def runDropped (x : Stream) (r : StreamRun) : Bool :=
  dOp r.desc != 1 && (r.skip || (x.reqs.isEmpty && (x.abort || waitDropped x r)))

/-- The run that is the descriptor at PC. -/
def curRun (x : Stream) : Option StreamRun := x.runs.find? (fun r => x.cur == some r.id)

/-- An abandoned wait leaves its object at once (R244). -/
def leaveWait (s : State) (n : Nat) : State :=
  match s.stream n with
  | none => s
  | some x => if (curRun x).any (waitDropped x) then withdrawStream s n else s

/-- A wait whose object has been satisfied has ended (R240). -/
def waitMet (s : State) (n : Nat) : State :=
  match s.stream n with
  | none => s
  | some x => match curRun x with
    | none => s
    | some r =>
      if dOp r.desc == 2 && s.streamOk.contains n then endRun { s with streamOk := s.streamOk.filter (fun k => k != n) } n r (r.index + 1)
      else s

/-- What follows from a stream's state: copies that are over end, oldest first; dropped runs end; a stream that is to end
and has nothing left gives its FINAL record. -/
def settleStream (s : State) (n : Nat) : State :=
  match s.stream n with
  | none => s
  | some x =>
    let s1 := x.runs.foldl (fun t r =>
      match t.stream n with
      | none => t
      | some y =>
        if copyOver y r then endRun t n r (r.index + 1)
        else if runDropped y r then endRun t n r (r.index + 1)
        else t) (leaveWait s n)
    match s1.stream n with
    | none => s1
    | some y =>
      match y.stop with
      | some (st, fl) => if !y.final && y.runs.isEmpty && y.reqs.isEmpty then finalize s1 n st fl else s1
      | none => s1

/-- After an event of a stream: what follows, and the pause that may be complete (R268). -/
def afterStream (s : State) (n : Nat) : State :=
  let s1 := settleStream s n
  match s1.owner with
  | some j => pauseCheck s1 j.handle
  | none => s1

/-! ### Beginning a descriptor -/

/-- May a stream begin its next descriptor: it does not end, no record waits, no pause is pending, and the descriptor at
PC has issued all it will; a SKIPPED one must be over. DESIGN CHOICE, log entry 87. -/
def mayBegin (s : State) (x : Stream) : Bool :=
  let pausing := match s.owner with | some j => j.pausing | none => false
  x.stop.isNone && x.records.isEmpty && !pausing &&
    (match x.runs.find? (fun r => x.cur == some r.id) with
     | none => true
     | some r => dOp r.desc == 1 && runIssued x r && !r.skip)

/-- Index of the descriptor that a stream would begin. -/
def nextIndex (s : State) (x : Stream) : Nat := if x.cur.isSome then (streamPc s x.num + 1) % 65536 else streamPc s x.num

/-- Read the descriptor that begins; a fault or poison is a job fault (Tables 9.6, 9.8). -/
def readDesc (s : State) (x : Stream) : Access :=
  virtRead s sdeOrigin (s.fld (Fd.SDE_CTX_PROG_ADDR (x.num / 4) (x.num % 4)) + 64 * nextIndex s x) 64

/-- Begin the next descriptor if it has an opcode; a bad one ends the stream (R239). -/
def beginDesc (s : State) (x : Stream) (op : Nat) : State :=
  let n := x.num
  let a := readDesc s x
  if a.fault.isSome then computeReset a.state 4
  else if a.poisoned then computeReset a.state 6
  else
    let idx := nextIndex s x
    let slot := a.state.slotOf (1000 + n)
    let r : StreamRun := ⟨x.nextRun, idx, a.bytes, slot, 0, 0, false, false, none⟩
    let y : Stream := { x with runs := x.runs ++ [r], nextRun := x.nextRun + 1, cur := some x.nextRun }
    if descBad a.bytes slot.isSome then
      failStream ((setStreamPc a.state n idx).setStream y |>.bump (Reg.SDE_DESC_BAD (n / 4))) n St.badParam
    else if dOp a.bytes = op then (setStreamPc a.state n idx).setStream y
    else s

/-- A row of a stream: the descriptor in progress of that opcode goes on by `act`, or the next one begins and goes on. -/
def streamRow (s : State) (n op : Nat) (act : State → Stream → StreamRun → State) : State :=
  match s.stream n with
  | none => s
  | some x =>
    if !(computeRunning s) || x.final then s
    else
      let go (t : State) (y : Stream) : State :=
        match curRun y with
        | some r => if dOp r.desc = op && !y.abort && !(waitDropped y r) then afterStream (act t y r) n else afterStream t n
        | none => afterStream t n
      let running := match curRun x with
        | some r => dOp r.desc == op && !(op == 1 && runIssued x r)
        | none => false
      if running then (if x.records.isEmpty then go s x else s)
      else if mayBegin s x then
        let t := beginDesc s x op
        match t.stream n with
        | none => t
        | some y => if y.nextRun = x.nextRun then t else go t y
      else s

/-! ### COPY -/

/-- The byte offset of the source, or destination, of byte k of a COPY in plane, row and byte order (Table 9.9). -/
def copyOffset (d : List Byte) (k : Nat) (dst : Bool) : Int :=
  let len := dLen d
  let row := k / len
  let sy := signed 32 (leAt d (if dst then 0x24 else 0x20) 4)
  let sz := signed 32 (leAt d (if dst then 0x2C else 0x28) 4)
  ((k % len : Nat) : Int) + sy * ((row % dRows d : Nat) : Int) + sz * ((row / dRows d : Nat) : Int)

/-- The address of byte k, modulo 2^50. -/
def copyAddr (d : List Byte) (k : Nat) (dst : Bool) : Nat :=
  (((leAt d (if dst then 0x10 else 8) 8 : Nat) : Int) + copyOffset d k dst).emod (2 ^ 50) |>.toNat

/-- Bytes of the request that begins at byte k: at most 256, within one row, within 256 bytes of the destination (R240). -/
def requestLen (d : List Byte) (k : Nat) : Nat := min (dLen d - k % dLen d) (256 - copyAddr d k true % 256)

/-- The pieces of a range of a space, translated (Table 9.9); a translation fault, or a write into a season window (R201). -/
def piecesOf (s : State) (space a n : Nat) (write : Bool) : Except Nat (List Piece) × State :=
  match space with
  | 1 => (.ok [.host 0 a n], s)
  | 2 => (.ok [.host 1 a n], s)
  | 3 => (if write && meetsSeason s a n then .error 2 else .ok [.phys a n], s)
  | _ =>
    (pageChunks a n).foldl (fun (acc : Except Nat (List Piece) × State) c =>
      match acc.1 with
      | .error e => (.error e, acc.2)
      | .ok l =>
        let (x, t) := translate acc.2 c.1 write
        match x with
        | .phys p => (if write && meetsSeason t p c.2 then .error 2 else .ok (l ++ [.phys p c.2]), t)
        | .remote w o => (.ok (l ++ [.remote w o c.2]), t)
        | .fault e => (.error e, recordFault t sdeOrigin c.1 e)) (.ok [], s)

/-- Bytes of a piece. -/
def Piece.len : Piece → Nat
  | .phys _ n => n
  | .host _ _ n => n
  | .remote _ _ n => n

/-- Is a piece in a remote window? -/
def Piece.isRemote : Piece → Bool
  | .remote _ _ _ => true
  | _ => false

/-- Does a request go over the fabric? -/
def SdeReq.fabric (q : SdeReq) : Bool := (q.src ++ q.dst).any Piece.isRemote

/-- Read a piece. -/
def readPiece (s : State) : Piece → Access
  | .phys a n => let r := jobRead s sdeOrigin a n; ⟨r.bytes, r.poisoned, none, r.state⟩
  | .host p a n => ⟨s.hostBytes p a n, false, none, s⟩
  | .remote _ _ n => ⟨zeros n, false, none, s⟩

/-- Write a piece; what goes to a remote window leaves the device in a packet. -/
def writePiece (s : State) (p : Piece) (bs : List Byte) : State :=
  match p with
  | .phys a _ => busWrite s sdeOrigin a bs
  | .host q a _ => s.putHost q a bs
  | .remote _ _ _ => s

/-- The bytes of a request, remote pieces as they arrived. -/
def gather (s : State) (q : SdeReq) : Access :=
  q.src.zipIdx.foldl (fun (a : Access) p =>
    match q.got.filter (fun g => g.1 == p.2) with
    | g :: gs => ⟨a.bytes ++ (g :: gs).flatMap (fun g => g.2), a.poisoned, none, a.state⟩
    | [] => let b := readPiece a.state p.1; ⟨a.bytes ++ b.bytes, a.poisoned || b.poisoned, none, b.state⟩) ⟨[], false, none, s⟩

/-- Write bytes to a request's pieces. -/
def scatter (s : State) (q : SdeReq) (bs : List Byte) : State :=
  (q.dst.foldl (fun (a : State × List Byte) p => (writePiece a.1 p (a.2.take p.len), a.2.drop p.len)) (s, bs)).1

/-! ### Requests and their ends (R241) -/

/-- Put a request back. -/
def setReq (s : State) (n : Nat) (q : SdeReq) : State :=
  match s.stream n with
  | none => s
  | some x => s.setStream { x with reqs := x.reqs.map (fun r => if r.id = q.id then q else r) }

/-- A request leaves its stream: its tag returns whatever it came to (R241). -/
def dropReq (s : State) (n id : Nat) : State :=
  match s.stream n with
  | none => s
  | some x =>
    showEpochs ((setTags s (n / 4) (s.fld (Fd.SDE_TAGS_FREE (n / 4)) + 1)).setStream
      { x with reqs := x.reqs.filter (fun r => r.id != id) })

/-- A request has moved its bytes. DESIGN CHOICE, log entry 31. DESIGN CHOICE, log entry 87. -/
def reqMoved (s : State) (n : Nat) (q : SdeReq) : State :=
  let bytes := (q.dst.map Piece.len).sum
  let t := (dropReq s n q.id).bumpBy (Reg.SDE_BYTES (n / 4)) ((bytes + 63) / 64)
  match t.stream n with
  | none => t
  | some y => t.setStream { y with runs := y.runs.map (fun r => if r.id = q.run then { r with done := r.done + bytes } else r) }

/-- A request fails: its stream ends (Table 9.12). -/
def reqFailed (s : State) (n id status : Nat) : State := failStream (dropReq s n id) n status

/-- Send one packet for each of a request's remote pieces; a request that cannot be sent fails with WINDOW_CLOSED (R366). -/
def sendPieces (s : State) (n : Nat) (q : SdeReq) (ps : List (PktBody × Nat × Nat × Nat)) : State :=
  ps.foldl (fun t p =>
    let (ok, u) := sendRemote t p.2.1 (pkt p.2.2.2 p.1 (some ⟨n, q.id, p.2.2.1⟩))
    if ok then u else reqFailed t n q.id St.windowClosed) s

/-- The writes of a request: local pieces at once, a WRITE for each remote one (VC2). -/
def fabricWrite (s : State) (n : Nat) (q : SdeReq) : State :=
  let a := gather s q
  if a.poisoned then computeReset a.state 6
  else
    let t := scatter a.state q a.bytes
    let offs := q.dst.zipIdx.map (fun p => ((q.dst.take p.2).map Piece.len).sum)
    let ws := (List.zip q.dst.zipIdx offs).flatMap (fun p => match p.1.1 with
      | .remote w o m => (windowCuts t w m).map (fun c => (PktBody.write w (o + c.1) ((a.bytes.drop (p.2 + c.1)).take c.2), w, p.1.2, 2))
      | _ => [])
    if ws.isEmpty then reqMoved t n q
    else sendPieces (setReq t n { q with out := ws.length, writing := true }) n { q with out := ws.length, writing := true } ws

/-- A request that goes over the fabric begins: READ_REQs for its remote sources (VC0), else its writes. -/
def fabricBegin (s : State) (n : Nat) (q : SdeReq) : State :=
  let rs := q.src.zipIdx.flatMap (fun p => match p.1 with
    | .remote w o m => (windowCuts s w m).map (fun c => (PktBody.readReq w (o + c.1) c.2, w, p.2, 0))
    | _ => [])
  if rs.isEmpty then fabricWrite s n q
  else sendPieces (setReq s n { q with out := rs.length }) n { q with out := rs.length } rs

/-- A part of the bytes that a packet of a request asks for. -/
def fabricPart (s : State) (r : ReqRef) (bs : List Byte) : State :=
  match (s.stream r.stream).bind (fun x => x.reqs.find? (fun q => q.id == r.req)) with
  | none => s
  | some q => setReq s r.stream { q with got := q.got ++ [(r.piece, bs)] }

/-- The answer to a packet of a request: a status that is not OK ends its stream; the last read brings the writes, the last write the
completion. -/
def fabricAnswer (s : State) (r : ReqRef) (status : Nat) (bs : List Byte) : State :=
  match (s.stream r.stream).bind (fun x => x.reqs.find? (fun q => q.id == r.req)) with
  | none => s
  | some q =>
    if status ≠ St.ok then afterStream (reqFailed s r.stream q.id status) r.stream
    else
      let p := { q with out := q.out - 1, got := if q.writing then q.got else q.got ++ [(r.piece, bs)] }
      let s1 := setReq s r.stream p
      if 0 < p.out then s1
      else afterStream (if p.writing then reqMoved s1 r.stream p else fabricWrite s1 r.stream p) r.stream

/-- The port a request reads from. -/
def readPort (q : SdeReq) : Option Nat := q.src.findSome? (fun p => match p with | .host r _ _ => some r | _ => none)

/-- Has the port whose host memory space `sp` is 768 non-posted requests outstanding, its limit (R409)? -/
def readsFull (s : State) (sp : Nat) : Bool :=
  (sp == 1 || sp == 2) && decide (768 ≤ (s.streams.flatMap (fun x => x.reqs.filter (fun q => readPort q == some (sp - 1)))).length)

/-- Issue one request of a COPY, if a tag is free, its port has a non-posted request to spare and no port that it needs is in reset or
D3hot. -/
def issueOne (s : State) (n id : Nat) : State :=
  match s.stream n with
  | none => s
  | some x =>
    match x.runs.find? (fun r => r.id == id) with
    | none => s
    | some r =>
      let e := n / 4
      let free := s.fld (Fd.SDE_TAGS_FREE e)
      let sp := bitsOf (leAt r.desc 0 4) 12 11
      let dp := bitsOf (leAt r.desc 0 4) 14 13
      if runIssued x r || free == 0 || spaceQuiet s sp || spaceQuiet s dp || readsFull s sp then s
      else
        let k := r.issued
        let len := requestLen r.desc k
        let (src, s1) := piecesOf s sp (copyAddr r.desc k false) len false
        let (dst, s2) := piecesOf s1 dp (copyAddr r.desc k true) len true
        match src, dst with
        | .ok ps, .ok pd =>
          let ep := if sp = 0 ∨ dp = 0 then some (s2.regN Reg.DMMU_EPOCH) else none
          let q : SdeReq := ⟨id, ps, pd, s2.nextReq, 0, [], false⟩
          let y := { x with
            runs := x.runs.map (fun r => if r.id = id then { r with issued := k + len, epoch := r.epoch <|> ep } else r)
            reqs := x.reqs ++ [q] }
          let s3 : State := { s2 with nextReq := s2.nextReq + 1 }
          let s4 := showEpochs ((setTags s3 e (free - 1)).setStream y)
          if q.fabric then fabricBegin s4 n q else s4
        | _, _ => computeReset s2 4

/-- A COPY issues requests while tags are free (R240). -/
def copyIssue (s : State) (x : Stream) (r : StreamRun) : State :=
  (List.range (s.fld (Fd.SDE_TAGS_FREE (x.num / 4)))).foldl (fun t _ => issueOne t x.num r.id) s

/-- STREAM_COPY (R240). -/
def execStreamCopy (n : Fin 128) (s : State) : Host.Outcome State Fault Refusal :=
  up s (fun s => streamRow s n.val 1 copyIssue)

/-! ### Completions of requests (R241) -/

/-- The status with which a stream ends for a request that failed (Tables 9.11, 9.12; R408). -/
def reqEndStatus : ReqEnd → Nat
  | .portReset => St.portReset
  | .windowClosed => St.windowClosed
  | .timeout => St.deadlineMissed
  | _ => St.ok

/-- Request k of a stream comes back: its tag returns whatever it came to (R241). -/
def requestBack (s : State) (n k : Nat) (e : ReqEnd) : State :=
  match (s.stream n).bind (fun x => x.reqs[k]?) with
  | none => s
  | some q =>
    match e with
    | .ok =>
      let a := gather s q
      if a.poisoned then computeReset a.state 6 else reqMoved (scatter a.state q a.bytes) n q
    | .uncorrectable =>
      let t := match q.src.findSome? (fun p => match p with | .phys a _ => some a | _ => none) with
        | some a => noteUnit sdeOrigin s a
        | none => s
      computeReset (dropReq t n q.id) 6
    | .recovered => dropReq s n q.id
    | _ => reqFailed s n q.id (reqEndStatus e)

/-- Poison units in a device range. -/
def poisonRange (s : State) (a n : Nat) : State :=
  let span := poisonSpan a
  (List.range ((a % span + n + span - 1) / span)).foldl (fun t k =>
    let u := a / span * span + span * k
    if t.poison.contains u then t
    else
      let t1 : State := { t with poison := u :: t.poison }
      if u < 0x1E00000000 then t1.bump (Reg.MEMC_POISONED (channelOf u)) else t1) s

/-- Request k comes back; data that arrive poisoned are written with the poison code and counted, and so is a completion
timeout (R409). -/
def requestDone (s : State) (n k : Nat) (e : ReqEnd) : State :=
  match (s.stream n).bind (fun x => x.reqs[k]?) with
  | none => s
  | some q =>
    match e, readPort q with
    | .poisonedData, some p =>
      let t := requestBack s n k .ok
      q.dst.foldl (fun (u : State) d => match d with | .phys a m => poisonRange u a m | _ => u) (aerNote (t.bump (Reg.PORT_RX_POISONED p)) p 12)
    | .poisonedData, none => requestBack s n k .uncorrectable
    | .timeout, some p => requestBack (aerNote (s.bump (Reg.PORT_CPL_TIMEOUT p)) p 14) n k .timeout
    | .timeout, none => s
    | e, _ => requestBack s n k e

/-- Every request of a stream that a test selects comes back with one end. -/
def requestsBack (s : State) (n : Nat) (e : ReqEnd) (sel : SdeReq → Bool) : State :=
  match s.stream n with
  | none => s
  | some x =>
    afterStream (x.reqs.foldl (fun t q =>
      if sel q then
        match t.stream n with
        | some y => requestBack t n (y.reqs.findIdx (fun z => z == q)) e
        | none => t
      else t) s) n

/-- Does a request touch the host memory behind port p (Table 9.12)? -/
def touchesPort (p : Nat) (q : SdeReq) : Bool :=
  (q.src ++ q.dst).any (fun x => match x with | .host r _ _ => r == p | _ => false)

/-- Does it touch a remote window? -/
def touchesWindow (w : Nat) (q : SdeReq) : Bool :=
  (q.src ++ q.dst).any (fun x => match x with | .remote v _ _ => v == w | _ => false)

/-- Can a request come to an end: what goes over the fabric is answered by IFERIK_READ_RSP and IFERIK_WRITE_RSP or ended by its path;
only host memory ends a request with a port reset, a completion timeout or poisoned data. -/
def mayEnd (q : SdeReq) (e : ReqEnd) : Bool :=
  !q.fabric && (match e with
    | .ok => true
    | .uncorrectable => true
    | .windowClosed => false
    | .recovered => false
    | _ => (q.src ++ q.dst).any (fun p => match p with | .host _ _ _ => true | _ => false))

/-- SDE_REQUEST_COMPLETE (R241): request k of a stream, counted from the oldest in flight, comes back. -/
def execSdeRequestComplete (n : Fin 128) (k : Fin 256) (e : ReqEnd) (s : State) : Host.Outcome State Fault Refusal :=
  up s (fun s =>
    match (s.stream n.val).bind (fun x => x.reqs[k.val]?) with
    | none => s
    | some q => if mayEnd q e then afterStream (requestDone s n.val k.val e) n.val else s)

/-! ### The other descriptors (R240) -/

/-- The object of a WAIT or SIG. -/
def dObj (d : List Byte) : Nat := leAt d 4 2 % 16384

/-- STREAM_WAIT (R240): the wait arrives at its object; satisfied, the descriptor ends. -/
def execStreamWait (n : Fin 128) (s : State) : Host.Outcome State Fault Refusal :=
  up s (fun s => streamRow s n.val 2 (fun t x r =>
    if t.streamOk.contains x.num then waitMet t x.num
    else if waits t (streamAgent x.num) then t
    else if !(jobObject t (dObj r.desc)) then foreignObject t
    else waitMet (waitObj (t.setFld (Fd.SDE_CTX_STATE_WAITING (x.num / 4) (x.num % 4)) 1) (streamAgent x.num) (dObj r.desc)) x.num))

/-- STREAM_SIG (R240): once every earlier request has completed its object is signalled. -/
def execStreamSig (n : Fin 128) (s : State) : Host.Outcome State Fault Refusal :=
  up s (fun s => streamRow s n.val 3 (fun t x r =>
    if !(jobObject t (dObj r.desc)) then foreignObject t
    else if x.reqs.isEmpty then endRun (unitSignal t (streamAgent x.num) (dObj r.desc) 1 false) x.num r (r.index + 1) else t))

/-- STREAM_FENCE (R240): ends once every earlier request has completed. -/
def execStreamFence (n : Fin 128) (s : State) : Host.Outcome State Fault Refusal :=
  up s (fun s => streamRow s n.val 6 (fun t x r => if x.reqs.isEmpty then endRun t x.num r (r.index + 1) else t))

/-- Jumps a LOOP has made. -/
def loopCount (x : Stream) (i : Nat) : Nat := ((x.loops.find? (fun p => p.1 == i)).map (fun p => p.2)).getD 0

/-- STREAM_LOOP (R240): jumps to TARGET until it has done so COUNT times; then it goes on, and begins afresh when it is
reached again. -/
def execStreamLoop (n : Fin 128) (s : State) : Host.Outcome State Fault Refusal :=
  up s (fun s => streamRow s n.val 4 (fun t x r =>
    let k := loopCount x r.index
    let rest := x.loops.filter (fun p => p.1 != r.index)
    if k < leAt r.desc 2 2 then endRun (t.setStream { x with loops := (r.index, k + 1) :: rest }) x.num r (leAt r.desc 6 2)
    else endRun (t.setStream { x with loops := rest }) x.num r (r.index + 1)))

/-- STREAM_END (R240): the generation ends; its FINAL record follows the records of earlier copies. -/
def execStreamEnd (n : Fin 128) (s : State) : Host.Outcome State Fault Refusal :=
  up s (fun s => streamRow s n.val 5 (fun t x r =>
    if x.reqs.isEmpty && x.runs.length == 1 then
      finalize t x.num St.ok ((match x.stop with | some (_, f) => f | none => 8) + b2n r.missed)
    else t))

/-! ### Deadlines (R242) -/

/-- Has the deadline of a run come? A slot whose context is gone ticked long ago. -/
def runDue (s : State) (r : StreamRun) : Bool :=
  match r.slot with
  | none => false
  | some (c, id) =>
    match s.slotCtx c id with
    | some x => decide (windowAt x (leAt r.desc 0x30 4) ≤ nowT s)
    | none => true

/-- A descriptor has not ended by its deadline (R242). -/
def runMissed (s : State) (n : Nat) (x : Stream) (r : StreamRun) : State :=
  let skip := dSkip r.desc
  let runs := x.runs.map (fun q => if q.id = r.id then { q with missed := true, skip := skip } else q)
  let s1 := (s.setStream { x with runs := runs }).bump (Reg.SDE_DL_MISS (n / 4))
  let s2 := streamRecord s1 n (recordBytes s n St.deadlineMissed r.index r.user r.done (if skip then 2 else 0) s.time64.toNat)
  let s3 := if s2.det then countTdc s2 (if skip then 4 else 3) nocIsland else s2
  afterStream s3 n

/-- STREAM_DEADLINE (R242): the oldest descriptor of a stream with a deadline that has come. -/
def execStreamDeadline (n : Fin 128) (s : State) : Host.Outcome State Fault Refusal :=
  up s (fun s0 =>
    let s := waitMet s0 n.val
    match s.stream n.val with
    | none => s
    | some x =>
      match x.runs.find? (fun r => dDlV r.desc && !r.missed && runDue s r) with
      | some r => if x.final then s else runMissed s n.val x r
      | none => s)

/-- CR_TAIL is written by the consumer (R243): records that wait are written, and the stream goes on. -/
def crTailWrite (s : State) (n v : Nat) : State :=
  pushHeld (endGeneration (flushRecords (s.setFld (Fd.SDE_CTX_CR_TAIL_INDEX (n / 4) (n % 4)) v) n) n) n (v % 4096)

/-- A port issues requests again: the records that waited for it are written (R243, R405). -/
def flushRings (s : State) : State :=
  let t := s.streams.foldl (fun t x => endGeneration (flushRecords t x.num) x.num) s
  s.crHeld.foldl (fun t h => pushHeld t h.stream h.ring.tail) t

/-- CR_TAIL_WRITE (R243), by any origin that the control space lets write. -/
def execCrTailWrite (n : Fin 128) (origin : Fin 64) (value : Word32) (s : State) : Host.Outcome State Fault Refusal :=
  up s (fun s =>
    ctlGate s origin.val (Reg.SDE_CTX_CR_TAIL (n.val / 4) (n.val % 4)) (fun s => crTailWrite s n.val value.toNat))

/-! ### Commands (R244, Table 9.12) -/

/-- STREAM_ARM (R239, R244). -/
def streamArmBody (c : Cmd) (s0 : State) : State :=
  let s := waitMet s0 (cmdStream c)
  let p := c.pkt
  let n := cmdStream c
  let gen := bitsOf p.p0.toNat 63 32
  let ring := addrBits p.p2
  let space := addrSpace p.p2
  let log2n := p.p3.toNat
  match editJob s c with
  | .error (st, d) => refuse s c st d
  | .ok j =>
    if s.jobState j ≠ 2 ∧ s.jobState j ≠ 3 then refuse s c St.badParam 8
    else if extraBits p.p0 0xFFFFFFFF0000007F then refuse s c St.badParam 1
    else if 2 ^ 48 ≤ p.p1.toNat ∨ p.p1.toNat % 64 ≠ 0 then refuse s c St.badParam 2
    else if 2 ^ 52 ≤ p.p2.toNat ∨ ring % 32 ≠ 0 ∨ space = 3 then refuse s c St.badParam 3
    else if log2n < 4 ∨ 12 < log2n then refuse s c St.badParam 4
    else match unusedFrom p 4 with
      | some d => refuse s c St.badParam d
      | none =>
        let g := s.regN (Reg.SDE_CTX_GEN (n / 4) (n % 4))
        match s.stream n with
        | some x =>
          if x.pendingArm.isSome then refuse s c St.streamBusy 0
          else if gen ≠ 0 ∧ gen ≠ (g + 1) % 2 ^ 32 then refuse s c St.staleGeneration 0
          else
            let s1 := s.setStream { x with
              pendingArm := some (p.p1.toNat, ring, space, log2n), stop := some (x.stop.getD (St.ok, 0xC)) }
            afterStream (s1.setFld (Fd.SDE_CTX_STATE_PENDING (n / 4) (n % 4)) 1) n
        | none =>
          if gen ≠ 0 ∧ gen ≠ (g + 1) % 2 ^ 32 then refuse s c St.staleGeneration 0
          else okCmd (startGeneration s n p.p1.toNat ring space log2n) c

/-- STREAM_ARM (R244). -/
def execStreamArm (p : Pkt) (s : State) : Host.Outcome State Fault Refusal := up s (hostCmd 0x20 p streamArmBody)

/-- An arm that waits is taken back with a status. -/
def dropArm (s : State) (n status : Nat) (sel : Cmd → Bool := fun _ => true) : State :=
  match s.stream n with
  | none => s
  | some x =>
    answerStream ((s.setStream { x with pendingArm := none }).setFld (Fd.SDE_CTX_STATE_PENDING (n / 4) (n % 4)) 0) 0x20 n status sel

/-- STREAM_CANCEL (R244). -/
def streamCancelBody (c : Cmd) (s0 : State) : State :=
  let s := waitMet s0 (cmdStream c)
  let p := c.pkt
  let n := cmdStream c
  match editJob s c with
  | .error (st, d) => refuse s c st d
  | .ok _ =>
    if 128 ≤ p.p0.toNat then refuse s c St.badParam 1
    else match unusedFrom p 1 with
      | some d => refuse s c St.badParam d
      | none =>
        match s.stream n with
        | none => okCmd s c
        | some x =>
          let s1 := s.setStream { x with stop := some (x.stop.getD (St.ok, 0xC)) }
          afterStream (dropArm s1 n St.staleGeneration) n

/-- STREAM_CANCEL (R244). -/
def execStreamCancel (p : Pkt) (s : State) : Host.Outcome State Fault Refusal := up s (hostCmd 0x21 p streamCancelBody)

end Sys2Proof.Machine
end

