-- ==== Sys2Proof/Machine/Iferik.lean ====
section
/-! DEFINITION. What arrives over Iferik Link (R368 to R382): packets, acknowledgements and credits, the failure of a path, windows
and groups, timeouts; the commands WINDOW_OPEN, WINDOW_CLOSE, FABRIC_JOIN, FABRIC_LEAVE; writes of the ILP registers. -/

namespace Sys2Proof.Machine

/-! ### A path fails, a path closes (R373, R375) -/

/-- FREE credits of a channel go in blocks of up to 16 to the paths that have asked, in ascending order of device ID (R371). -/
def grantFree (s : State) (n v : Nat) : State :=
  let ask := (s.paths.filter (fun x => x.port == n && (x.vc v).asks)).mergeSort (fun a b => decide (a.peer ≤ b.peer))
  ask.foldl (fun t x =>
    let c := x.vc v
    let k := min (min 16 (t.regN (Reg.ILP_CR_FREE n v))) (t.regN (Reg.ILP_CR_CAP n v) - c.granted)
    let t1 := crMove t (Reg.ILP_CR_FREE n v) (Reg.ILP_CR_GRANTED n v) k
    if k = 0 then t
    else t1.setPath (x.setVc v { c with granted := c.granted + k, owed := c.owed + k, asks := false })) s

/-- Remove a path: the credits its peer held are FREE again, for the paths that have asked (R371). -/
def removePath (s : State) (x : Path) : State :=
  let s1 : State := { s with paths := s.paths.filter (fun y => !(y.port == x.port && y.peer == x.peer)) }
  let s2 := vcList.foldl (fun t v =>
    crMove t (Reg.ILP_CR_GRANTED x.port v) (Reg.ILP_CR_FREE x.port v) (x.vc v).granted) s1
  showPaths (vcList.foldl (fun t v => grantFree t x.port v) s2) x.port

/-- Requests of a path end with WINDOW_CLOSED, those not sent yet as well; every tag returns (R373 step 1). -/
def endRequests (s : State) (x : Path) : State :=
  let mine (r : TagRun) : Bool := r.port == x.port && r.peer == x.peer
  let refs := (s.tagRuns.filter mine).filterMap (fun r => r.ref) ++ x.queue.filterMap (fun p => p.ref)
  let s1 := dropTags s x.port (fun r => r.peer == x.peer)
  refs.foldl (fun t r => fabricAnswer t r St.windowClosed []) s1

/-- Answer every WINDOW command of an opcode on window w. DEDUCED, log entry 93. -/
def answerWindow (s : State) (op w status : Nat) : State :=
  (s.cmds.filter (fun c => c.opcode == op && c.phase == .executing && c.pkt.p0.toNat % 4096 == w)).foldl
    (fun t c => finishCmd t c status 0 0 0) s

/-- Windows exported over a path close without a reply, a WINDOW_CLOSE in progress ends; imports are marked closed (R373, R377). -/
def failWindows (s : State) (x : Path) : State :=
  let mine (w : Window) : Bool := w.port == x.port && w.peer == x.peer && w.state != .opening
  let s1 : State := { s with
    windows := s.windows.filter (fun w => !(mine w))
    imports := s.imports.map (fun i => if i.port = x.port ∧ i.owner = x.peer then { i with isOpen := false } else i) }
  (s.windows.filter mine).foldl (fun t w => answerWindow t 0x39 w.num St.ok) s1

/-- What a failed path does to the groups (R381, R382), if it is the one that the route named: a member without its root has left, and is odd if
a verdict is outstanding (Table 8.7); the root takes the member out; reductions over it are abandoned. -/
def failGroups (s : State) (x : Path) (routed : Bool) : State :=
  (vcList.filter (fun g => groupJoined s g && (groupMembers s g).contains x.peer && routed)).foldl
    (fun t g =>
      let t1 := abandonReductions t g
      if groupRoot t1 g = x.peer then
        let due := groupAdapts t1 g && verdictDue t1
        let t2 := groupLeft t1 g
        if due then expel t2 else t2
      else if groupRoot t1 g = deviceId t1 then memberOut t1 g x.peer
      else t1) s

/-- A path fails (R373): in one step its requests end, its windows close, its reductions are abandoned and its credits are FREE. `routed`: the
route to the peer names it, or named it until now. -/
def pathFailAs (s : State) (n peer : Nat) (routed : Bool) : State :=
  match s.path n peer with
  | none => s
  | some x =>
    let s1 := endRequests (removePath s x) x
    let s2 := failGroups (failWindows s1 x) x routed
    raiseShared (s2.bump (Reg.ILP_PATH_FAIL n)) (276 + n)

/-- A path fails (R373). -/
def pathFail (s : State) (n peer : Nat) : State := pathFailAs s n peer (ilpRoute s peer == some n)

/-- A path closes normally (R375); what was queued meanwhile opens a fresh one. -/
def pathClosed (s : State) (x : Path) : State :=
  x.queue.foldl (fun t p => sendTo t x.peer p) (removePath s x)

/-! ### A packet arrives (R368 to R371) -/

/-- Packets of a channel up to an acknowledgement. -/
def ackedBy (v ack : Nat) (p : OutPkt) : Bool := p.vc == v && decide ((ack + 2 ^ 24 - p.psn) % 2 ^ 24 < 2 ^ 23)

/-- A cumulative acknowledgement: packets leave the retransmission list, REDUCEs, which are VC1's, return their tags (R368, R369). -/
def takeAck (s : State) (x : Path) (v ack : Nat) : State :=
  let fin := x.unacked.filter (ackedBy v ack)
  let s1 := s.setPath { x with
    unacked := x.unacked.filter (fun p => !(ackedBy v ack p)), retries := if fin.isEmpty then x.retries else 0 }
  dropTags s1 x.port (fun r => r.peer == x.peer && r.vc == v && v == 1 && fin.any (fun p => p.psn == r.psn))

/-- Send again, in order, the packets of a path that a test selects; a paused channel sends none (R364, R368). -/
def resend (s : State) (n peer : Nat) (sel : OutPkt → Bool) : State :=
  match s.path n peer with
  | none => s
  | some x => (x.unacked.filter (fun p => sel p && !(vcPaused s n p.vc))).foldl (fun (t : State) p =>
      let t1 := (t.bump (Reg.ILP_RETX n)).bump (Reg.ILP_TX_PKTS n)
      { t1 with ilpSent := t1.ilpSent.filter (fun y => y.1 != n) ++ [(n, p)] }) s

/-- The header's acknowledgement and NAK are taken from every packet of the path's epoch. DEDUCED, log entry 91. -/
def takeHeader (s : State) (h : IlpHdr) : State :=
  let n := h.port.val
  let peer := h.src.toNat
  let s1 := match h.ack, s.path n peer with
    | some a, some x => takeAck s x h.vc.val a.toNat
    | _, _ => s
  if h.nak then resend s1 n peer (fun p => p.vc == h.vc.val) else s1

/-- Credits leave BUSY: to the path up to CR_CAP, the rest to FREE (R371). -/
def returnCredits (s : State) (n peer v m : Nat) : State :=
  match s.path n peer with
  | none => crMove s (Reg.ILP_CR_BUSY n v) (Reg.ILP_CR_FREE n v) m
  | some x =>
    let c := x.vc v
    let k := min m (s.regN (Reg.ILP_CR_CAP n v) - c.granted)
    let s1 := crMove s (Reg.ILP_CR_BUSY n v) (Reg.ILP_CR_GRANTED n v) k
    let s2 := crMove s1 (Reg.ILP_CR_BUSY n v) (Reg.ILP_CR_FREE n v) (m - k)
    s2.setPath (x.setVc v { c with granted := c.granted + k, owed := c.owed + k })

/-- A NOP that acknowledges a channel, or asks to go back. DEDUCED, log entry 91. -/
def nopPkt (v : Nat) (nak : Bool) : OutPkt := { pkt v .nop with nak := nak }

/-- After a packet: acknowledgements every 16, waiting packets, a close that can go on (R368, R375). -/
def afterPacket (s : State) (n peer v : Nat) : State :=
  let s1 := match s.path n peer with
    | some x => if 16 ≤ (x.vc v).unacked then ilpSend s n peer (nopPkt v false) else s
    | none => s
  tryClose (ilpPump s1 n peer) n peer

/-- An accepted packet: its credits go to BUSY, it acts, its credits return (R371). -/
def acceptPacket (s : State) (x : Path) (h : IlpHdr) (need : Nat) (isNop : Bool) (body : State → State) : State :=
  let n := h.port.val
  let v := h.vc.val
  let c := x.vc v
  let m := min need c.granted
  let x1 := x.setVc v { c with
    accepted := c.accepted + 1, nakSent := false, granted := c.granted - m, asks := c.asks || h.crq
    unacked := c.unacked + b2n (!isNop) }
  let g := x1.vc h.crvc.val
  let x2 := x1.setVc h.crvc.val { g with credits := g.credits + h.cred.toNat }
  let s1 := (s.setPath x2).bump (Reg.ILP_RX_PKTS n)
  let s2 := body (crMove s1 (Reg.ILP_CR_GRANTED n v) (Reg.ILP_CR_BUSY n v) m)
  afterPacket (grantFree (returnCredits s2 n x.peer v m) n v) n x.peer v

/-- A packet arrives: a bad FCS or an old epoch discards it; out of order it is answered with a NAK, once (R368, R373). -/
def ilpReceive (h : IlpHdr) (need : Nat) (isNop : Bool) (body : State → State) (s : State) : State :=
  let n := h.port.val
  let peer := h.src.toNat
  if !(ilpUp s n) then s
  else if !h.fcs then s.bump (Reg.ILP_FCS_ERR n)
  else match s.path n peer with
    | none => s.bump (Reg.ILP_STALE_EPOCH n)
    | some x0 =>
      if x0.epoch ≠ h.epoch.toNat then s.bump (Reg.ILP_STALE_EPOCH n)
      else
        let s1 := takeHeader s h
        match s1.path n peer with
        | none => s1
        | some x =>
          let c := x.vc h.vc.val
          if h.psn.toNat = c.accepted % 2 ^ 24 then acceptPacket s1 x h need isNop body
          else if c.nakSent then afterPacket s1 n peer h.vc.val
          else ilpSend (s1.setPath (x.setVc h.vc.val { c with nakSent := true })) n peer (nopPkt h.vc.val true)

/-! ### WRITE and READ (R372, R377) -/

/-- Does the firewall allow a range, page by page (R309)? -/
def rangeAllowed (s : State) (origin a n : Nat) (write : Bool) : Bool := (pageChunks a n).all (fun c => fwAllows s origin c.1 write)

/-- How a packet to a window is answered (R377): open; refused; or closed. -/
inductive WinCheck where
  | go (a : Nat)
  | bad
  | refusedAt (a : Nat)
  | closed
  deriving DecidableEq, Repr

/-- Judge an access to a window from a peer's packet. DEDUCED, log entry 93. -/
def windowCheck (s : State) (n peer w off len : Nat) (write : Bool) : WinCheck :=
  match s.window w with
  | some x =>
    if x.peer ≠ peer ∨ x.port ≠ n ∨ x.state ≠ .isOpen then .closed
    else if (if write then x.write else x.read) = false ∨ x.len < off + len then .bad
    else if rangeAllowed s (16 + n) (x.base + off) len write then .go (x.base + off)
    else .refusedAt (x.base + off)
  | none => .closed

/-- A packet to a window that is closing or closed is discarded whole (R377). DEDUCED, log entry 93. -/
def closedDrop (s : State) (n peer w : Nat) : State :=
  (s.bump (Reg.ILP_WIN_CLOSED_DROP n)).setRegN (Reg.ILP_WCLOSE_LAST n)
    (s.devTime / 2 ^ 48 % 2 ^ 32 * 2 ^ 32 + peer * 4096 + w % 4096)

/-- IFERIK_WRITE (R372): commits whole, or nothing is written; a WRITE_RSP answers on its channel. -/
def execIferikWrite (h : IlpHdr) (w : BitVec 12) (off : BitVec 40) (tag : BitVec 12) (payload : List Byte) (s : State) :
    Host.Outcome State Fault Refusal :=
  up s (ilpReceive h (blocks256 payload.length) false (fun s =>
    let n := h.port.val
    let peer := h.src.toNat
    let answer (t : State) (st : Nat) : State := ilpSend t n peer (pkt h.vc.val (.writeRsp tag.toNat st))
    match windowCheck s n peer w.toNat off.toNat payload.length true with
    | .go a => answer (portWrite s (16 + n) a payload) St.ok
    | .bad => answer (s.bump (Reg.ILP_WIN_BAD n)) St.badParam
    | .refusedAt a => answer (fwRefuse (s.bump (Reg.ILP_WIN_BAD n)) (16 + n) a true) St.badParam
    | .closed => answer (closedDrop s n peer w.toNat) St.windowClosed))

/-- IFERIK_READ_REQ (R377): the window's bytes in READ_RSPs that the port's MAXPAY allows (R365), or a refusal in one. DESIGN CHOICE, log entry 92. -/
def execIferikReadReq (h : IlpHdr) (w : BitVec 12) (off : BitVec 40) (tag : BitVec 12) (len : BitVec 13) (s : State) :
    Host.Outcome State Fault Refusal :=
  up s (ilpReceive h 1 false (fun s =>
    let n := h.port.val
    let peer := h.src.toNat
    let answer (t : State) (st : Nat) (bs : List Byte) : State := ilpSend t n peer (pkt h.vc.val (.readRsp tag.toNat st bs))
    let data (t : State) (bs : List Byte) : State := (packetCuts t n bs.length).foldl (fun u c =>
      ilpSend u n peer (pkt h.vc.val (.readRsp ((tag.toNat + c.1 / 256) % 4096) St.ok ((bs.drop c.1).take c.2)))) t
    match windowCheck s n peer w.toNat off.toNat len.toNat false with
    | .go a => let r := portRead s (16 + n) a len.toNat; data r.state r.bytes
    | .bad => answer (s.bump (Reg.ILP_WIN_BAD n)) St.badParam []
    | .refusedAt a => answer (fwRefuse (s.bump (Reg.ILP_WIN_BAD n)) (16 + n) a false) St.badParam []
    | .closed => answer (closedDrop s n peer w.toNat) St.windowClosed []))

/-- The code of a response's status. -/
def rspCode : RspStatus → Nat
  | .ok => St.ok
  | .badParam => St.badParam
  | .windowClosed => St.windowClosed

/-- A response to the first `k` tags of a request: they return, and with the last of them the request goes on (R369). -/
def response (s : State) (n peer tag status k : Nat) (bs : List Byte) : State :=
  match s.tagRuns.find? (fun r => r.port == n && r.peer == peer && r.tag == tag) with
  | none => s
  | some r =>
    if k < r.count then
      let s1 := showTags { s with tagRuns := s.tagRuns.map (fun q => if q = r then { q with tag := q.tag + k, count := q.count - k } else q) } n
      match r.ref with | some f => fabricPart s1 f bs | none => s1
    else
    let s1 := dropTags s n (fun q => q == r)
    closeIdle (match r.ref with | some f => fabricAnswer s1 f status bs | none => s1) n peer

/-- IFERIK_READ_RSP (R369). -/
def execIferikReadRsp (h : IlpHdr) (tag : BitVec 12) (st : RspStatus) (payload : List Byte) (s : State) : Host.Outcome State Fault Refusal :=
  up s (ilpReceive h 0 false (fun s =>
    response s h.port.val h.src.toNat tag.toNat (rspCode st) (if st = .ok then blocks256 payload.length else 4096) payload))

/-- IFERIK_WRITE_RSP (R369). -/
def execIferikWriteRsp (h : IlpHdr) (tag : BitVec 12) (st : RspStatus) (s : State) : Host.Outcome State Fault Refusal :=
  up s (ilpReceive h 0 false (fun s => response s h.port.val h.src.toNat tag.toNat (rspCode st) 4096 []))

/-- A reduction of a reduction group begins on this device's own participants (R104, R382). DESIGN CHOICE, log entry 95. -/
def beginReduction (s : State) (g : Nat) (r : ReduceOp) : State :=
  if groupAdapts s g || r.own.isEmpty || s.reductions.any (fun x => x.slot == g) then s
  else openReduction s g r.lane.val r.number.toNat
    ((groupMembers s g).zipIdx.map (fun m => if m.1 = deviceId s then r.own.length else (r.counts.getD m.2 0).toNat))
    (r.own.map (fun l => l.map BitVec.toNat))

/-- This device's participants present their sums (R382): no packet arrives. DESIGN CHOICE, log entry 95. -/
def presentSums (r : ReduceOp) (s : State) : State :=
  if groupJoined s r.slot.val && r.lane != 3 then reduceOn (beginReduction s r.slot.val r) r.slot.val else s

/-- IFERIK_REDUCE (R382): a right operand or the tree's result, in INT64, FP32 or compact lanes; an adaptation group's are FP32 (R214). From
this device itself: its own participants' sums. -/
def execIferikReduce (h : IlpHdr) (r : ReduceOp) (s : State) : Host.Outcome State Fault Refusal :=
  up s (if h.src.toNat = deviceId s then presentSums r else ilpReceive h (blocks256 r.payload.length) false (fun s =>
    let g := r.slot.val
    if groupJoined s g && (groupMembers s g).contains h.src.toNat && (if groupAdapts s g then r.lane == 1 else r.lane != 3) then
      let s1 := beginReduction s g r
      reduceOn { s1 with redIn := s1.redIn ++ [⟨g, r.number.toNat, r.chunk.toNat, r.node.toNat, r.result, h.src.toNat, r.payload⟩] } g
    else s))

/-- IFERIK_NOP (R368): acknowledgements and credits only. -/
def execIferikNop (h : IlpHdr) (s : State) : Host.Outcome State Fault Refusal := up s (ilpReceive h 1 true (fun s => s))

/-! ### Control packets of paths (R373, R375) -/

/-- The path that a CTRL OPEN opens here, with the peer's grants; its own go back in an OPEN of the same epoch. -/
def openedBy (s : State) (h : IlpHdr) (grants : List Nat) : State :=
  let n := h.port.val
  let peer := h.src.toNat
  if 256 ≤ portPaths s n then s
  else
    let mine := firstGrants s n
    let s1 := openPath s n peer h.epoch.toNat false
    match s1.path n peer with
    | none => s1
    | some x =>
      let vs := x.vcs.zipIdx.map (fun p => { p.1 with credits := grants.getD p.2 0, accepted := b2n (p.2 == 0), unacked := b2n (p.2 == 0) })
      ilpSend ((s1.setPath { x with vcs := vs }).bump (Reg.ILP_RX_PKTS n)) n peer (pkt 0 (.ctrl (.openPath mine)))

/-- The answer to this end's OPEN. DESIGN CHOICE, log entry 92. -/
def openAnswered (s : State) (h : IlpHdr) (x : Path) (grants : List Nat) : State :=
  let n := h.port.val
  let vs := x.vcs.zipIdx.map (fun p => { p.1 with
    credits := p.1.credits + grants.getD p.2 0, accepted := p.1.accepted + b2n (p.2 == 0), unacked := p.1.unacked + b2n (p.2 == 0) })
  let s1 := takeHeader ((s.setPath { x with vcs := vs, opening := false }).bump (Reg.ILP_RX_PKTS n)) h
  ilpPump s1 n x.peer

/-- Is an epoch newer than another, modulo 256? DESIGN CHOICE, log entry 92. -/
def newerEpoch (new old : Nat) : Bool := decide (0 < (new + 256 - old % 256) % 256) && decide ((new + 256 - old % 256) % 256 < 128)

/-- CTRL_OPEN (R373): with a new epoch the old path fails and a fresh one opens; with this end's epoch it answers its OPEN; an old epoch is
discarded. DESIGN CHOICE, log entry 92. -/
def execCtrlOpen (h : IlpHdr) (grants : List (BitVec 14)) (s : State) : Host.Outcome State Fault Refusal :=
  up s (fun s =>
    let n := h.port.val
    let gs := grants.map BitVec.toNat
    if !(ilpUp s n) then s
    else if !h.fcs then s.bump (Reg.ILP_FCS_ERR n)
    else match s.path n h.src.toNat with
      | none =>
        if h.epoch.toNat ≠ 0 ∧ Tbl.get (fun _ => 0) s.pathEpochs (4096 * n + h.src.toNat) = h.epoch.toNat then s.bump (Reg.ILP_STALE_EPOCH n)
        else openedBy s h gs
      | some x =>
        if newerEpoch h.epoch.toNat x.epoch then openedBy (pathFail s n h.src.toNat) h gs
        else if x.epoch ≠ h.epoch.toNat then s.bump (Reg.ILP_STALE_EPOCH n)
        else if x.opening then openAnswered s h x gs
        else s)

/-- CTRL_CLOSE (R375): the answer to this end's close, or the peer's close, which is answered; the path is closed. -/
def execCtrlClose (h : IlpHdr) (s : State) : Host.Outcome State Fault Refusal :=
  up s (ilpReceive h 1 false (fun s =>
    let n := h.port.val
    match s.path n h.src.toNat with
    | none => s
    | some x =>
      if x.closeSent then pathClosed s x
      else let (t, y) := sendNow s x (pkt 0 (.ctrl .closePath)); pathClosed t y))

/-- RTO_EXPIRY (R368): no acknowledgement within RTO.TIME: go back, or the path fails. DESIGN CHOICE, log entry 10. -/
def execRtoExpiry (port : Fin 4) (peer : BitVec 12) (s : State) : Host.Outcome State Fault Refusal :=
  up s (fun s =>
    match s.path port.val peer.toNat with
    | none => s
    | some x =>
      if x.unacked.all (fun p => p.body == .nop) then s
      else if s.fld (Fd.ILP_RTO_RETRIES port.val) ≤ x.retries + 1 then pathFail s port.val peer.toNat
      else resend (s.setPath { x with retries := x.retries + 1 }) port.val peer.toNat (fun _ => true))

/-- ACK_TIMER (R368): what has been accepted is acknowledged, and credits owed go out. -/
def execAckTimer (port : Fin 4) (peer : BitVec 12) (s : State) : Host.Outcome State Fault Refusal :=
  up s (fun s =>
    vcList.foldl (fun t v => match t.path port.val peer.toNat with
      | some x => if (x.vc v).unacked != 0 || (x.vc v).owed != 0 then ilpSend t port.val peer.toNat (nopPkt v false) else t
      | none => t) s)

/-- ILP_LINK_DOWN (R373): every path of the port fails. -/
def ilpDown (s : State) (n : Nat) : State :=
  if ilpUp s n then
    let s1 := s.setFld (Fd.ILP_STATUS_LINK n) 0
    raiseShared ((s1.paths.filter (fun x => x.port == n)).foldl (fun t x => pathFail t n x.peer) s1) (276 + n)
  else s

/-- ILP_LINK_DOWN (R373). -/
def execIlpLinkDown (port : Fin 4) (s : State) : Host.Outcome State Fault Refusal := up s (fun s => ilpDown s port.val)

/-- ILP_LINK_UP (R374): no path reopens by itself; links stay down in Retain (R451). -/
def execIlpLinkUp (port : Fin 4) (s : State) : Host.Outcome State Fault Refusal :=
  up s (fun s =>
    if ilpUp s port.val || s.fld Fd.PMU_STATE_STATE == 2 then s
    else raiseShared (s.setFld (Fd.ILP_STATUS_LINK port.val) 1) (276 + port.val))

/-- PFC_PAUSE_FRAME (R364): counted; sending on each PCP it enables stops for its time, in quanta of 512 bit times. -/
def execPfcPauseFrame (port : Fin 4) (enable : BitVec 8) (quanta : List (BitVec 16)) (s : State) : Host.Outcome State Fault Refusal :=
  up s (fun s =>
    let n := port.val
    if !(ilpUp s n) then s
    else
      let s1 := s.bump (Reg.ILP_PFC_RX n)
      let l := ((List.range 8).filter (fun p => bitOf enable.toNat p)).foldl (fun m p =>
        let q := ((quanta.map BitVec.toNat).getD p 0)
        Tbl.set (fun _ => 0) m (8 * n + p) (if q = 0 then 0 else nowT s1 + (12 * q + 4) / 5)) s1.ilpPause
      ilpPumpAll { s1 with ilpPause := l })

/-! ### Windows (R376 to R378) -/

/-- Does a range lie in the LPDDR5X data or the SSP (R376)? -/
def windowRange (base len : Nat) : Bool :=
  base % 4096 == 0 && len % 4096 == 0 && decide (0 < len) &&
    (decide (base + len ≤ 0x1E00000000) || (decide (sspBase ≤ base) && decide (base + len ≤ sspBase + sspSize)))

/-- Does a range lie in a job's frames? -/
def inFrames (j : Job) (base len : Nat) : Bool :=
  (List.range (len / 4096)).all (fun k => j.image.frames.any (fun f =>
    decide (f.1 ≤ (base + 4096 * k) / 65536) && decide ((base + 4096 * k) / 65536 < f.2)))

/-- WINDOW_OPEN (R376). -/
def windowOpenBody (c : Cmd) (s : State) : State :=
  let p := c.pkt
  let w := p.p0.toNat % 4096
  let peer := bitsOf p.p0.toNat 23 12
  let base := p.p1.toNat
  let len := p.p2.toNat
  if 2 ^ 26 ≤ p.p0.toNat then refuse s c St.badParam 1
  else match unusedFrom p 3 with
    | some d => refuse s c St.badParam d
    | none =>
      if !(windowRange base len) then refuse s c St.badParam 2
      else if p.job != 0 && !((s.job p.job.toNat).any (fun j => inFrames j base len)) then refuse s c St.badParam 2
      else match ilpRoute s peer with
        | none => refuse s c St.badParam 1
        | some n =>
          if (s.window w).isSome then refuse s c St.busy 0
          else match usePath s peer with
            | .error st => refuse s c st 0
            | .ok (_, t) =>
              let x : Window := ⟨w, peer, n, base, len, bitOf p.p0.toNat 24, bitOf p.p0.toNat 25, p.job.toNat, .opening⟩
              ilpSend { t with windows := t.windows ++ [x] } n peer (pkt 0 (.ctrl (.announce w len x.read x.write)))

/-- WINDOW_OPEN (R376). -/
def execWindowOpen (p : Pkt) (s : State) : Host.Outcome State Fault Refusal := up s (hostCmd 0x38 p windowOpenBody)

/-- CTRL_ANNOUNCE (R376): the importer records the import and accepts, unless it imports a window of that number. -/
def execCtrlAnnounce (h : IlpHdr) (w : BitVec 12) (len : BitVec 40) (read write : Bool) (s : State) : Host.Outcome State Fault Refusal :=
  up s (ilpReceive h 1 false (fun s =>
    let n := h.port.val
    let peer := h.src.toNat
    let answer (t : State) (ok : Bool) : State := ilpSend t n peer (pkt 0 (.ctrl (.accept w.toNat ok)))
    if s.imports.any (fun i => i.num == w.toNat && i.isOpen) then answer s false
    else answer { s with imports := s.imports.filter (fun i => i.num != w.toNat) ++
                    [⟨w.toNat, peer, n, len.toNat, read, write, true⟩] } true))

/-- ANNOUNCE_ACCEPT (R376): the window opens and WINDOW_OPEN is answered OK; refused, BUSY. -/
def execAnnounceAccept (h : IlpHdr) (w : BitVec 12) (ok : Bool) (s : State) : Host.Outcome State Fault Refusal :=
  up s (ilpReceive h 1 false (fun s =>
    match s.window w.toNat with
    | none => s
    | some x =>
      if x.state ≠ .opening ∨ x.peer ≠ h.src.toNat then s
      else if ok then
        answerWindow { s with windows := s.windows.map (fun y => if y.num = x.num then { y with state := .isOpen } else y) }
          0x38 x.num St.ok
      else
        closeIdle (answerWindow { s with windows := s.windows.filter (fun y => y.num != x.num) } 0x38 x.num St.busy) x.port x.peer))

/-- WINDOW_CLOSE (R377). -/
def windowCloseBody (c : Cmd) (s : State) : State :=
  let w := c.pkt.p0.toNat
  if 4096 ≤ w then refuse s c St.badParam 1
  else match unusedFrom c.pkt 1 with
    | some d => refuse s c St.badParam d
    | none =>
      match s.window w with
      | none => refuse s c (if s.imports.any (fun i => i.num == w && i.isOpen) then St.badParam else St.windowClosed) 1
      | some x =>
        match x.state with
        | .closing => refuse s c St.busy 0
        | .opening => refuse s c St.windowClosed 1
        | .isOpen =>
          let t := closeWindow s w
          if (t.window w).isNone then okCmd t c else t

/-- WINDOW_CLOSE (R377). -/
def execWindowClose (p : Pkt) (s : State) : Host.Outcome State Fault Refusal := up s (hostCmd 0x39 p windowCloseBody)

/-- CTRL_REVOKE (R378): the import is closed and the revoke acknowledged. -/
def execCtrlRevoke (h : IlpHdr) (w : BitVec 12) (s : State) : Host.Outcome State Fault Refusal :=
  up s (ilpReceive h 1 false (fun s =>
    let n := h.port.val
    let peer := h.src.toNat
    let s1 : State := { s with
      imports := s.imports.map (fun i => if i.num = w.toNat ∧ i.owner = peer then { i with isOpen := false } else i) }
    ilpSend s1 n peer (pkt 0 (.ctrl (.revokeAck w.toNat)))))

/-- REVOKE_ACKNOWLEDGE (R377): packets accepted before have committed; the window is closed and WINDOW_CLOSE answered OK. -/
def execRevokeAcknowledge (h : IlpHdr) (w : BitVec 12) (s : State) : Host.Outcome State Fault Refusal :=
  up s (ilpReceive h 1 false (fun s =>
    match s.window w.toNat with
    | none => s
    | some x =>
      if x.state ≠ .closing ∨ x.peer ≠ h.src.toNat then s
      else closeIdle (answerWindow { s with windows := s.windows.filter (fun y => y.num != x.num) } 0x39 x.num St.ok) x.port x.peer))

/-! ### Groups (R379 to R381) -/

/-- The devices of a roster, ascending. -/
def roster (s : State) (g : Nat) : List Nat := (List.range 128).flatMap (fun k =>
  let w := s.regN (Reg.ILP_ROSTER g k)
  if w = 0 then [] else ((List.range 32).filter (fun j => bitOf w j)).map (fun j => 32 * k + j))

/-- The slot of a group ID. -/
def groupSlot (s : State) (id : Nat) : Option Nat := vcList.find? (fun g => s.fld (Fd.ILP_GROUP_ID g) == id)

/-- Answer the FABRIC_JOIN commands that wait on a slot: RESULT0 is root and members admitted. -/
def answerJoin (s : State) (g status : Nat) : State :=
  (s.cmds.filter (fun c => c.opcode == 0x3A && c.phase == .executing && c.aux == g)).foldl
    (fun t c => finishCmd t c status 0
      (if status = St.ok then BitVec.ofNat 64 (groupRoot s g + (groupMembers s g).length * 65536) else 0) 0) s

/-- A membership is known here: joins are answered once every roster member has been admitted (R380). -/
def membership (s : State) (g root epoch : Nat) (ms : List Nat) : State :=
  let s1 := if groupAdapts s g && joining s g then s.setFld Fd.CAL_STATUS_EXPELLED 0 else s
  let s2 := setGroup s1 g root epoch ms
  if ms.length = (roster s2 g).length then closeIdleAll (answerJoin s2 g St.ok) else s2

/-- What this device brings to a join (R213). -/
def joinFacts (s : State) : List Byte × Nat × List Byte :=
  match s.owner with
  | some j => (sha256 j.image.signedBytes, j.seed, seasonDigest s j (s.regN Reg.CAL_SEASON) (s.regN Reg.CAL_SEASON % 2))
  | none => ([], 0, [])

/-- JOIN goes to the other devices of the roster that a path reaches: the root among them answers (R380). -/
def sendJoins (s : State) (g : Nat) : State :=
  let (a, b, d) := joinFacts s
  ((roster s g).filter (fun m => m != deviceId s)).foldl (fun t m => sendTo t m (pkt 0 (.ctrl (.join (s.fld (Fd.ILP_GROUP_ID g)) a b d)))) s

/-- This device becomes the root of a group of itself; a root among the others joins the two (R380). DEDUCED, log entry 94. -/
def becomeRoot (s : State) (g : Nat) : State :=
  sendJoins (membership s g (deviceId s) ((s.regN (Reg.ILP_GROUP_EPOCH g) + 1) % 2 ^ 32) [deviceId s]) g

/-- FABRIC_JOIN (R380). DEDUCED, log entry 94. -/
def fabricJoinBody (c : Cmd) (s : State) : State :=
  let p := c.pkt
  if extraBits p.p0 0x1FFFF then refuse s c St.badParam 1
  else match unusedFrom p 2 with
    | some d => refuse s c St.badParam d
    | none =>
      match vcList.find? (fun g => s.fld (Fd.ILP_GROUP_ID g) == p.p0.toNat % 65536 &&
          s.fld (Fd.ILP_GROUP_KIND g) == bitsOf p.p0.toNat 16 16 && inRoster s g (deviceId s)) with
      | none => refuse s c St.badParam 1
      | some g =>
        let ids := roster s g
        if p.p1.toNat ≠ ids.length then refuse s c St.badParam 2
        else if groupJoined s g || joining { s with cmds := s.cmds.filter (fun x => !(x == c)) } g then refuse s c St.busy 0
        else
          let s1 := setCmdAux s c g
          let root := ids.headD 0
          if root = deviceId s then becomeRoot s1 g
          else match usePath s1 root with
            | .error st => refuse s c st 0
            | .ok _ => sendJoins s1 g

/-- FABRIC_JOIN (R380). -/
def execFabricJoin (p : Pkt) (s : State) : Host.Outcome State Fault Refusal := up s (hostCmd 0x3A p fabricJoinBody)

/-- Does the root refuse a joiner of an adaptation group (R213)? -/
def joinMismatch (s : State) (o : JoinOp) : Bool :=
  let (a, b, _) := joinFacts s
  o.image != a || o.seed.toNat != b || (!s.agreed.isEmpty && o.tensors != s.agreed)

/-- CTRL_JOIN (R380): the root admits a member of the roster, or refuses it under R213; every member learns the new
epoch, and the lowest ID is root. -/
def execCtrlJoin (h : IlpHdr) (o : JoinOp) (s : State) : Host.Outcome State Fault Refusal :=
  up s (ilpReceive h 1 false (fun s =>
    match groupSlot s o.group.toNat with
    | none => s
    | some g =>
      let d := h.src.toNat
      if !(groupJoined s g) || groupRoot s g != deviceId s || !(inRoster s g d) then s
      else if groupAdapts s g && joinMismatch s o then ilpSend s h.port.val d (pkt 0 (.ctrl (.refuseJoin o.group.toNat)))
      else
        let ms := ((groupMembers s g).filter (fun m => m != d) ++ [d]).mergeSort (fun a b => decide (a ≤ b))
        let root := ms.headD 0
        let s1 := membership s g root ((s.regN (Reg.ILP_GROUP_EPOCH g) + 1) % 2 ^ 32) ms
        announceGroup s1 g root ms ms))

/-- FABRIC_LEAVE (R381). -/
def fabricLeaveBody (c : Cmd) (s : State) : State :=
  if extraBits c.pkt.p0 0xFFFF then refuse s c St.badParam 1
  else match unusedFrom c.pkt 1 with
    | some d => refuse s c St.badParam d
    | none =>
      match vcList.find? (fun g => groupJoined s g && s.fld (Fd.ILP_GROUP_ID g) == c.pkt.p0.toNat) with
      | none => refuse s c St.badParam 1
      | some g => leaveGroup (setCmdAux s c g) g

/-- FABRIC_LEAVE (R381). -/
def execFabricLeave (p : Pkt) (s : State) : Host.Outcome State Fault Refusal := up s (hostCmd 0x3B p fabricLeaveBody)

/-- CTRL_LEAVE (R381): the root acknowledges, takes the member out and announces the new epoch. -/
def execCtrlLeave (h : IlpHdr) (group : BitVec 16) (s : State) : Host.Outcome State Fault Refusal :=
  up s (ilpReceive h 1 false (fun s =>
    match groupSlot s group.toNat with
    | none => s
    | some g =>
      let d := h.src.toNat
      let s1 := ilpSend s h.port.val d (pkt 0 (.ctrl (.leaveAck group.toNat)))
      if groupJoined s g && groupRoot s g == deviceId s && (groupMembers s g).contains d then
        closeIdle (memberOut s1 g d) h.port.val d
      else s1))

/-- LEAVE_ACKNOWLEDGE (R381): this device has left. DEDUCED, log entry 94. -/
def execLeaveAcknowledge (h : IlpHdr) (group : BitVec 16) (s : State) : Host.Outcome State Fault Refusal :=
  up s (ilpReceive h 1 false (fun s =>
    match groupSlot s group.toNat with
    | none => s
    | some g =>
      if groupJoined s g && groupRoot s g == h.src.toNat then closeIdle (groupLeft s g) h.port.val h.src.toNat else s))

/-- GROUP_EPOCH_ANNOUNCE (R381): the new membership, or the refusal of a join (R213). -/
def execGroupEpochAnnounce (h : IlpHdr) (group : BitVec 16) (news : GroupNews) (s : State) : Host.Outcome State Fault Refusal :=
  up s (ilpReceive h 1 false (fun s =>
    match groupSlot s group.toNat with
    | none => s
    | some g =>
      match news with
      | .refused => closeIdleAll (answerJoin s g St.checkMismatch)
      | .members root epoch l =>
        let ms := l.map BitVec.toNat
        if !(groupJoined s g) && !(joining s g) then s
        else if ms.contains (deviceId s) then membership s g root.toNat epoch.toNat ms
        else closeIdleAll (groupLeft s g)))

/-- CTRL_TIMEOUT (R375, R376, R380): no answer within ILP_CTRL_TIMEOUT. An announced window is not opened; a join is answered with those
admitted so far, this device alone where no root has answered; a path that does not close fails. -/
def execCtrlTimeout (wait : CtrlWait) (s : State) : Host.Outcome State Fault Refusal :=
  up s (fun s =>
    match wait with
    | .announce w =>
      (match s.window w.toNat with
       | some x => if x.state = .opening then closeWindow (answerWindow s 0x38 w.toNat St.deadlineMissed) w.toNat else s
       | none => s)
    | .join g =>
      if joining s g.val then
        let s1 := if groupJoined s g.val then s else becomeRoot s g.val
        closeIdleAll (answerJoin s1 g.val St.ok)
      else s
    | .closePath n d =>
      (match s.path n.val d.toNat with
       | some x => if x.closeSent then pathFail s n.val d.toNat else s
       | none => s))

/-! ### Register writes (R366, R379, R385, R386) -/

/-- A write of eight routes: a path to a peer whose route changes fails (R373). -/
def routeTableWrite (s : State) (off k : Nat) (v : Word) : State :=
  let old := s
  let s1 := putRw s off v
  (List.range 8).foldl (fun t j =>
    let d := 8 * k + j
    match ilpRoute old d with
    | some n => if ilpRoute s1 d = some n then t else pathFailAs t n d true
    | none => t) s1

/-- A write of an ILP register. -/
def ilpWrite (s : State) (origin off : Nat) (v : Word) : State :=
  let o := (off - 0xA00000) % 0x4000
  let ignored := logIgnored s origin off v.toNat
  if o < 0x1000 then putRw s off v
  else if o < 0x1800 then routeTableWrite s off ((o - 0x1000) / 4) v
  else if o < 0x2000 then (if groupJoined s ((o - 0x1800) / 0x200) then ignored else putRw s off v)
  else if o < 0x200C then (if s.paths.isEmpty then putRw s off v else ignored)
  else if o = 0x200C then (if v.toNat % 65536 = 0 then ignored else putRw s off v)
  else
    let g := (o - 0x2010) / 4
    if groupJoined s g then ignored
    else if bitOf v.toNat 28 && (vcList.any (fun x => x != g && groupAdapts s x)) then ignored
    else putRw s off v

end Sys2Proof.Machine
end

