-- ==== Sys2Proof/Machine/Power.lean ====
section
/-! DEFINITION. Power states (R449 to R452), warm reset (R454), brownout holds and supplies (R311, R457, R458, R469), temperature
(R477, R478). -/

namespace Sys2Proof.Machine

/-! ### POWER_STATE (Table 18.3) -/

/-- Is the slot timing of a carrier on? -/
def anyTick (s : State) : Bool := (List.range 8).any (fun c => s.flag (Fd.TSU_CAR_V c))

/-- Is a job in a state of Table 10.8a? -/
def anyJob (s : State) (states : List Nat) : Bool := s.jobs.any (fun j => states.contains (s.jobState j))

/-- To Run (R450): a year on every array comes before a job's start. -/
def toRun (s : State) (c : Cmd) : State :=
  let l := testedArrays s
  let s1 : State := { s.setFld Fd.PMU_STATE_STATE 0 with yearWait := l, katFrom := (List.range 96).foldl (fun m n => Tbl.set (fun _ => 0) m n (nowT s)) s.katFrom }
  okCmd (showPin (l.foldl (fun t n => t.setFld (Fd.KAT_ARRAY_PASSED n) 0) s1)) c

/-- To Idle (R450). -/
def toIdle (s : State) (c : Cmd) : State :=
  if anyJob s [2] || anyTick s then refuse s c St.busy 0 else okCmd (showPin (s.setFld Fd.PMU_STATE_STATE 1)) c

/-- Domains 0 to 148, 151 to 158 and 161 (R451). -/
def retainDomains : List Nat := List.range 149 ++ (List.range 8).map (fun k => 151 + k) ++ [161]

/-- Retain takes hold (R451): links down, domains off, holdover. -/
def enterRetain (s : State) (c : Cmd) : State :=
  let s1 := (List.range 4).foldl (fun t n => ilpDown t n) (s.bump Reg.PMU_RETAIN_ENTRIES)
  let s2 := (List.range 16).foldl (fun t k => ethLink t (k / 4) (k % 4) false) s1
  let s3 := retainDomains.foldl (fun t d => setDomain t d false) s2
  let s4 := (s3.setReg Reg.DMMU_SSP_ON (s3.reg Reg.PMU_RETAIN_SSP)).setFld Fd.PMU_STATE_BUSY 0
  showPin ((okCmd (enterHoldover s4) c).setFld Fd.PMU_STATE_STATE 2)

/-- To Retain (R451): once every other command in flight has written its reply. -/
def toRetain (s : State) (c : Cmd) : State :=
  if anyJob s [1, 2, 3] || anyTick s || !s.windows.isEmpty || !s.groups.isEmpty then
    refuse (showPin (s.setFld Fd.PMU_STATE_BUSY 0)) c St.busy 0
  else if 1 < s.cmds.length then setCmdPhase (showPin (s.setFld Fd.PMU_STATE_BUSY 1)) c .fetched
  else enterRetain s c

/-! ### Warm reset (R454) -/

/-- Registers that a warm reset keeps (Table 18.5): semaphores, queues, PORT and BOOT apart from what firmware set, the ICN host targets, TSU,
the fence and repair maps, PMU and SUP, the fronthaul and Iferik ports, LOG, MEMC. DEDUCED, log entry 48. -/
def warmKeeps (o : Nat) : Bool :=
  (decide (0x10000 ≤ o) && decide (o < 0x40800) &&
    !(decide (Reg.SLOT_RING 0 ≤ o) && decide (o < 0x30000)) && o != Reg.BOOT_FW_SVN && o != Reg.BOOT_FW_VERSION &&
    o != Reg.BOOT_FW_AUTH_FAIL && o != Reg.BOOT_KEYS && !(decide (Reg.BOOT_FW_DIGEST 0 ≤ o) && decide (o < Reg.BOOT_FW_DIGEST 8))) ||
  (decide (0x100000 ≤ o) && decide (o < 0x110000) && !(decide (Reg.TSU_LQ 0 ≤ o) && decide (o < Reg.TSU_LQ 16))) || (decide (0x130004 ≤ o) && decide (o < 0x130018)) ||
  (decide (0x160000 ≤ o) && decide (o < 0x180000)) || (decide (0x900000 ≤ o) && decide (o < 0xB00000)) ||
  (decide (0xC00000 ≤ o) && decide (o < 0xC10000)) || (decide (0x1000000 ≤ o) && decide (o < 0x1010000)) ||
  o == Reg.CAP_EPOCH || o == Reg.CAP_STATUS ||
  (decide (0x400000 ≤ o) && decide (o < 0x580000) &&
    (let r := (o - 0x400000) % 0x4000; r == 4 || r == 8 || r == 0xC || r == 0x10))

/-- Commands in flight end (R454 step 2): those that had begun with DETAIL 1, others with DETAIL 0; the POWER_STATE command goes on. -/
def warmCommands (s : State) (c : Cmd) : State :=
  (s.cmds.filter (fun x => x.phase != .replied && !(x == c))).foldl (fun t x =>
    if x.pkt.job != 0 then finishCmd t x St.jobLost 0 0 0
    else finishCmd t x St.internal (if x.phase = .executing then 1 else 0) 0 0) s

/-- What a warm reset keeps outside the registers. DEDUCED, log entry 48. DESIGN CHOICE, log entry 55. DEDUCED, log entry 58. -/
def warmState (s : State) : State :=
  { State.reset with
    pending := s.pending, phase := s.phase, regs := s.regs.filter (fun p => warmKeeps p.1), mem := s.mem, host0 := s.host0, host1 := s.host1
    poison := s.poison, upsets := s.upsets, zeroing := s.zeroing, latched := s.latched, mainLog := s.mainLog, stickyLog := s.stickyLog, cmds := s.cmds
    held := s.held, fetchPort := s.fetchPort, fetchQueue := s.fetchQueue, devTime := s.devTime, freeCtr := s.freeCtr, resp := s.resp
    coal := s.coal.filter (fun p => decide (p.1 < 32)), msixOn := s.msixOn, pba := s.pba, holdQueues := s.holdQueues
    lastHandle := s.lastHandle, lostHandles := s.lostHandles, tsu := s.tsu, fenceYear := s.fenceYear, birth := s.birth, identity := s.identity, cert := s.cert
    thermLow := s.thermLow, alertLow := s.alertLow, smbAddr := s.smbAddr, hold := s.hold, resume := s.resume, avsAt := s.avsAt, avsOld := s.avsOld
    pathEpochs := s.pathEpochs, ilpSent := s.ilpSent, wire := s.wire, nextReq := s.nextReq
    perst := s.perst, d3 := s.d3, barLog := s.barLog, cplRange := s.cplRange, devCtl := s.devCtl, aer := s.aer, fnMasked := s.fnMasked, msix := s.msix, msixSent := s.msixSent
    cars := s.cars.filterMap (fun k => k.2.lastAbs.map (fun a => (k.1, { carReset k.1 with lastAbs := some a })))
    tapIr := s.tapIr, boundary := s.boundary }

/-- Clear a flag that Table 18.5 does not keep in an array's STATUS: RUN, DONE, SEQ_FAULT. -/
def idleStatus (s : State) : State :=
  (List.range 96).foldl (fun t n =>
    (((t.setFld (Fd.MA_STATUS_RUN n) 0).setFld (Fd.MA_STATUS_DONE n) 0).setFld (Fd.MA_STATUS_SEQ_FAULT n) 0)) s

/-- A warm reset (R454). -/
def warmReset (s : State) (c : Cmd) : State :=
  let s1 := loseAllJobs (s.setFld Fd.PMU_STATE_BUSY 0) 9
  let s2 := s1.paths.foldl (fun t x => pathFail t x.port x.peer) (warmCommands s1 c)
  let s3 := clearSram (warmState s2)
  let fallback (a : Nat) : Bool := decide (dscBase 12 ≤ a) && decide (a < dscBase 16)
  let s4 : State := { s3 with mem := Tbl.clearRange s3.mem (dscBase 12) (dscBase 16), poison := s3.poison.filter (fun a => !(fallback a))
                              upsets := s3.upsets.filter (fun u => !(fallback u.1)) }
  let s5 := (List.range 4).foldl (fun t n => showTags (showPaths t n) n) (idleStatus s4)
  let s6 := ((s5.setFld Fd.CAP_STATUS_PLAN 0).setFld Fd.CAP_STATUS_PLAN_V 0).setFld Fd.BOOT_STATE_PLAN 0
  let s7 := (s6.setFld Fd.BOOT_STATE_HALT_CAUSE 0).setFld Fd.BOOT_STATE_STATE 1
  let s8 := ((restartBeats s7).setFld Fd.PMU_STATE_STATE 0).setRegN Reg.PMU_RESET_CAUSE 4
  okCmd (showPin (s8.bump Reg.PMU_WARM_RESETS)) c

/-- POWER_STATE (R449, Table 18.3). DESIGN CHOICE, log entry 47. -/
def powerBody (c : Cmd) (s : State) : State :=
  match unusedFrom c.pkt 1 with
  | some d => refuse s c St.badParam d
  | none =>
    let now := s.fld Fd.PMU_STATE_STATE
    match c.pkt.p0.toNat with
    | 0 => if now = 0 then okCmd s c else toRun s c
    | 1 => if now = 1 then okCmd s c else toIdle s c
    | 2 => toRetain s c
    | 8 => warmReset s c
    | _ => refuse s c St.badParam 1

/-- POWER_STATE with target 0 (R449). -/
def execPowerStateRun (p : Pkt) (s : State) : Host.Outcome State Fault Refusal := up s (hostCmd 0x7F p powerBody)
/-- POWER_STATE with target 1 (R450). -/
def execPowerStateIdle (p : Pkt) (s : State) : Host.Outcome State Fault Refusal := up s (hostCmd 0x7F p powerBody)
/-- POWER_STATE with target 2 (R451). A packet that is being presented again goes on. -/
def execPowerStateRetain (p : Pkt) (s : State) : Host.Outcome State Fault Refusal := up s (hostCmd 0x7F p powerBody)
/-- POWER_STATE with target 8 (R454). -/
def execWarmReset (p : Pkt) (s : State) : Host.Outcome State Fault Refusal := up s (hostCmd 0x7F p powerBody)

/-! ### The exit from Retain (R452) -/

/-- Unit event counters, fronthaul and Iferik registers return to reset (Table 18.5). DEDUCED, log entry 49. -/
def retainLoses (o : Nat) : Bool :=
  (decide (0x900000 ≤ o) && decide (o < 0xB00000)) ||
    (decide (0x200000 ≤ o) && decide (o < 0x900000) && accMask o .rc != 0)

/-- On-chip SRAM outside the retained SSP banks is zeroed. DEDUCED, log entry 49. -/
def clearUnretained (s : State) : State :=
  let keep := s.mem.filter (fun p => decide (sspBase ≤ p.1) && decide (p.1 < sspBase + 0x3000000) &&
    s.regBit Reg.PMU_RETAIN_SSP ((p.1 - sspBase) / 0x100000))
  let s1 := clearSram s
  { s1 with mem := keep.foldl (fun m p => Tbl.set zeroByte m p.1 p.2) s1.mem }

/-- The device comes back to Idle. DEDUCED, log entry 49. -/
def exitRetain (s : State) (us : Nat) : State :=
  let s1 : State := { clearUnretained s with regs := s.regs.filter (fun p => !(retainLoses p.1) && !(decide (Reg.TSU_LQ 0 ≤ p.1) && decide (p.1 < Reg.TSU_LQ 16))), paths := [], tagRuns := [], ilpPause := [],
                                             launch := [], launchWait := [], ingress := [] }
  let off (d : Nat) : Bool := decide (d < 96) && !(mappable s d)
  let s2 := (retainDomains.filter (fun d => !(off d))).foldl (fun t d => setDomain t d true) s1
  let s3 := fallbackStarts (s2.setReg Reg.DMMU_SSP_ON 0xFFFFFFFFFFFF)
  let s4 := ((restartBeats s3).setRegN Reg.PMU_LAST_EXIT us).setFld Fd.PMU_STATE_STATE 1
  s.wakeLog.foldl (fun t w => logIgnored t w.1 Reg.PMU_CTRL w.2) (showPin { s4 with wakeLog := [] })

/-- A write of PMU.CTRL (R452): WAKE by a port that holds SEM0; a write from another origin is recorded once the control complex runs. -/
def wakeWrite (s : State) (origin v us : Nat) : State :=
  let by_ := (origin == 5 || origin == 6) && holdsSem s (origin - 5) 0
  let retain := s.fld Fd.PMU_STATE_STATE == 2
  if !(bitOf v 0) then s
  else if by_ then (if retain then exitRetain s us else s)
  else if retain then { s with wakeLog := s.wakeLog ++ [(origin, v)] }
  else logIgnored s origin Reg.PMU_CTRL v

/-- WAKE (R452): the exit takes `us` microseconds. -/
def execWake (origin : Fin 64) (value : Word32) (us : BitVec 16) (s : State) : Host.Outcome State Fault Refusal :=
  up s (fun s => ctlGate s origin.val Reg.PMU_CTRL (fun s => wakeWrite s origin.val value.toNat us.toNat))

/-! ### Brownout holds (R311, R469) -/

/-- The last filtered reading of a supply (R460). DESIGN CHOICE, log entry 47. -/
def reading (s : State) (sram : Bool) (mv : Nat) : State := s.setRegN (if sram then Reg.SUP_VSRAM else Reg.SUP_VCORE) mv

/-- The target of a supply in mV: for 50 µs after a step of VDD_CORE the lower of the two (R458, Table 18.7). -/
def supplyTarget (s : State) (sram : Bool) : Nat :=
  if sram then 800
  else
    let t := s.fld Fd.PMU_AVS_TARGET_MV
    match s.avsAt with
    | some e => if s.elapsed < e + 7813 then min t s.avsOld else t
    | none => t

/-- Is a reading below its warning level, 5 % under the target (R311)? -/
def belowWarning (s : State) (sram : Bool) (mv : Nat) : Bool := decide (100 * mv < 95 * supplyTarget s sram)

/-- Is it below its reset level, 9 % under the target? -/
def belowReset (s : State) (sram : Bool) (mv : Nat) : Bool := decide (100 * mv < 91 * supplyTarget s sram)

/-- Has it risen to its warning level and 10 mV more? -/
def released (s : State) (sram : Bool) (mv : Nat) : Bool := decide (95 * supplyTarget s sram + 1000 ≤ 100 * mv)

/-- Freeze every array (R66). -/
def freezeAll (s : State) (on : Bool) : State := (List.range 96).foldl (fun t n => t.setFld (Fd.MA_STATUS_FROZEN n) (b2n on)) s

/-- BROWNOUT: every unreleased code block of the slots on the learned path (Table 12.2 bit 6). -/
def markBrownout (s : State) : State :=
  s.cars.foldl (fun t k => markSlots t k.1 6 (fun x => x.learned)) s

/-- BROWNOUT_HOLD (R311): a supply below its warning level and not below its reset level; else its reading alone. A dip during a hold stays
within it and restarts the count of its end. -/
def execBrownoutHold (sram : Bool) (mv : BitVec 10) (s : State) : Host.Outcome State Fault Refusal :=
  up s (fun s =>
    if !(belowWarning s sram mv.toNat) || belowReset s sram mv.toNat then reading s sram mv.toNat
    else
    let s1 := (reading s sram mv.toNat).setFld (if sram then Fd.SUP_STATUS_WARN_SRAM else Fd.SUP_STATUS_WARN_CORE) 1
    match s1.hold with
    | some h => { s1 with hold := some { h with clear := s1.elapsed } }
    | none =>
      let s2 : State := { (freezeAll s1 true).setFld Fd.SUP_STATUS_HOLD 1 with hold := some ⟨s1.elapsed, sram, false, s1.elapsed⟩, resume := [] }
      raiseShared (markBrownout s2) 282)

/-- Nanoseconds of a number of REFCLK cycles of 6.4 ns. DESIGN CHOICE, log entry 50. -/
def cyclesNs (n : Nat) : Nat := n * 32 / 5

/-- HOLD_END (R311, R469): every supply has stood above its release level for 20 µs; the arrays resume in groups of 24, 1 µs apart. -/
def execHoldEnd (core sram : BitVec 10) (s : State) : Host.Outcome State Fault Refusal :=
  up s (fun s =>
    match s.hold with
    | none => s
    | some h =>
      if s.elapsed < h.clear + 3125 ∨ released s false core.toNat = false ∨ released s true sram.toNat = false then
        reading (reading s false core.toNat) true sram.toNat
      else
      let ns := cyclesNs (s.elapsed - h.start)
      let s1 := reading (reading s false core.toNat) true sram.toNat
      let s2 := (s1.setRegN Reg.SUP_STATUS 0).bump Reg.SUP_DIP_COUNT
      let s3 := s2.setRegN Reg.SUP_HOLD_MAX (max (s2.regN Reg.SUP_HOLD_MAX) (min ns 0xFFFFFFFF))
      let s4 := s3.log 0x0E 39 0x170000 (b2n h.sram) ns
      resumeDue { s4 with hold := none, resume := [0, 1, 2, 3].map (fun g => (g, nowT s + 1875 * g)) })

/-- HOLD_ESCALATION (R311): 5 ms from its start a hold becomes a compute reset with DETAIL 8. -/
def execHoldEscalation (s : State) : Host.Outcome State Fault Refusal :=
  up s (fun s =>
    match s.hold with
    | some h => if h.escalated || decide (s.elapsed < h.start + 781250) then s else computeReset { s with hold := some { h with escalated := true } } 8
    | none => s)

/-- SUPPLY_RESET (R311, R457): a supply below its reset level: a cold reset, held until it recovers. DESIGN CHOICE, log entry 50. -/
def execSupplyReset (sram : Bool) (mv : BitVec 10) (s : State) : Host.Outcome State Fault Refusal :=
  match s.phase with
  | .running | .clockLost =>
    if !(belowReset s sram mv.toNat) then .next (reading s sram mv.toNat)
    else
    let ns := match s.hold with | some h => cyclesNs (s.elapsed - h.start) | none => 0
    let s1 := ((reading s sram mv.toNat).bump Reg.SUP_SUPPLY_RESETS).log 0x0E 39 0x170000 (b2n sram) ns
    .next (coldReset s1 3)
  | .held | .off => .next s

/-- OVERVOLTAGE (R457): a supply 8 % above its target, counted; nothing else follows. -/
def execOvervoltage (sram : Bool) (mv : BitVec 10) (s : State) : Host.Outcome State Fault Refusal :=
  up s (fun s =>
    if 108 * supplyTarget s sram < 100 * mv.toNat then (reading s sram mv.toNat).bump Reg.SUP_OV_COUNT else reading s sram mv.toNat)

/-- AVS_TARGET_STEP (R458): 5 mV within 670 to 820, at most once per 10 ms, never during a hold. -/
def execAvsTargetStep (raise : Bool) (s : State) : Host.Outcome State Fault Refusal :=
  up s (fun s =>
    let t := s.fld Fd.PMU_AVS_TARGET_MV
    let n := if raise then t + 5 else t - 5
    let early := match s.avsAt with | some e => decide (s.elapsed < e + 1562500) | none => false
    if s.hold.isSome || early || decide (n < 670) || decide (820 < n) then s
    else { s.setFld Fd.PMU_AVS_TARGET_MV n with avsAt := some s.elapsed, avsOld := t })

/-! ### Temperature (R477, R478) -/

/-- A temperature in units of 0.125 °C, signed. -/
def tempUnits (n : Nat) : Int := signed 16 n

/-- A reading of the hottest sensor (R460, R476). TEMP_MAX is the highest since it was read: 0 before the first reading.
DESIGN CHOICE, log entry 47. -/
def tempReading (s : State) (v : Nat) : State :=
  let s1 := s.setRegN Reg.SUP_TEMP v
  if tempUnits (s.regN Reg.SUP_TEMP_MAX) < tempUnits v then s1.setRegN Reg.SUP_TEMP_MAX v else s1

/-- THERM_N and SMB_ALERT_N after a reading: THERM_N stays low from 115 °C on; the alert goes low at 100 °C and is released below 95 °C. -/
def tempPins (s : State) (v : Nat) : State :=
  { s with thermLow := s.thermLow || decide (920 ≤ tempUnits v),
           alertLow := decide (800 ≤ tempUnits v) || (s.alertLow && decide (760 ≤ tempUnits v)) }

/-- THERMAL_ALARM (R477). -/
def execThermalAlarm (temp : BitVec 16) (s : State) : Host.Outcome State Fault Refusal :=
  up s (fun s => tempPins (tempReading s temp.toNat) temp.toNat)

/-- TEMP_ALERT (R478). -/
def execTempAlert (temp : BitVec 16) (s : State) : Host.Outcome State Fault Refusal :=
  up s (fun s => tempPins (tempReading s temp.toNat) temp.toNat)

end Sys2Proof.Machine
end

