-- ==== Sys2Proof/Machine/Sem.lean ====
section
/-! DEFINITION. The port semaphores (R412 to R416, R426). -/

namespace Sys2Proof.Machine

/-- The register that shows what port p holds. -/
def heldReg (p : Nat) : Nat := if p = 0 then Reg.SEM_HELD_HP0 else Reg.SEM_HELD_HP1

/-- The register of port p's WANT bits. -/
def wantReg (p : Nat) : Nat := if p = 0 then Reg.SEM_WANT_HP0 else Reg.SEM_WANT_HP1

/-- The HOLDER field of semaphore i: 0 free, 1 HP0, 2 HP1. -/
def semHolder (s : State) (i : Nat) : Nat := if holdsSem s 0 i then 1 else if holdsSem s 1 i then 2 else 0

/-- Port p takes semaphore i; its WANT bit clears (R412, R415). -/
def semTake (s : State) (p i : Nat) : State :=
  ((s.setRegBit (heldReg p) i true).setRegBit (wantReg p) i false).bump Reg.SEM_CLAIMS

/-- Semaphore i, held by port p, becomes free; a port that wants it is told (R415). -/
def semFree (s : State) (p i : Nat) : State :=
  let s1 := s.setRegBit (heldReg p) i false
  if s1.regBit (wantReg (1 - p)) i then raisePriv (s1.setRegBit (wantReg (1 - p)) i false) (1 - p) 32 else s1

/-- A read of CLAIM by port p: it claims a free semaphore, or wants one that the other port holds (R412). -/
def semRead (s : State) (p i : Nat) : State :=
  if semHolder s i = 0 then semTake s p i
  else if semHolder s i = p + 1 then s
  else s.setRegBit (wantReg p) i true

/-- What a read of CLAIM returns, from the state after it: GRANTED, TIE_LOST, HOLDER. -/
def claimValue (s : State) (p i : Nat) (lost : Bool) : Nat :=
  b2n (semHolder s i == p + 1) * 2 ^ 31 + b2n lost * 2 ^ 30 + semHolder s i

/-- Both ports read CLAIM of a free semaphore in one cycle: TIE decides and inverts, the loser wants it (R414). -/
def semTie (s : State) (i : Nat) : State :=
  let w := b2n (s.regBit Reg.SEM_TIE i)
  let s1 := semTake ((s.setRegBit Reg.SEM_TIE i (w == 0)).bump Reg.SEM_TIES) w i
  s1.setRegBit (wantReg (1 - w)) i true

/-- A read of SEM[i].CLAIM by an origin; `tie`: the other port reads it in the same SEM cycle. -/
def claimRead (s : State) (origin i : Nat) (tie : Bool) : State :=
  if origin = 5 ∨ origin = 6 then
    let p := origin - 5
    if tie then
      if semHolder s i = 0 then
        let t := semTie s i
        { t with resp := .value (BitVec.ofNat 64 (claimValue t p i (semHolder t i != p + 1))) }
      else
        let t := semRead (semRead s (1 - p) i) p i
        { t with resp := .value (BitVec.ofNat 64 (claimValue t p i false)) }
    else
      let t := semRead s p i
      { t with resp := .value (BitVec.ofNat 64 (claimValue t p i false)) }
  else { s with resp := .value (BitVec.ofNat 64 (semHolder s i)) }

/-- A write of SEM[i].CLAIM: the holder releases; any other write is ignored and recorded (R413). -/
def claimWrite (s : State) (origin i v : Nat) : State :=
  if (origin = 5 ∨ origin = 6) ∧ holdsSem s (origin - 5) i = true then semFree s (origin - 5) i
  else logIgnored s origin (Reg.SEM_CLAIM i) v

/-- A reset of port p releases every semaphore that it holds and clears its WANT bits (R416). -/
def semPortReset (s : State) (p : Nat) : State :=
  let s1 := s.setReg (wantReg p) 0
  (List.range 64).foldl (fun t i => if holdsSem t p i then semFree (t.bump Reg.SEM_RESET_RELEASES) p i else t) s1

/-- A read of the control space by an origin: nothing from a port in reset, zeros in Retain beyond R451, the firewall (R310). -/
def ctlReadGate (s : State) (origin off : Nat) (f : State → State) : State :=
  if hostInReset s origin then s
  else if !(retainReach s off) then { s with resp := .value 0 }
  else if fwAllows s origin (ctlBase + off) false then f s
  else
    let t := fwRefuse s origin (ctlBase + off) false
    if origin = 5 ∨ origin = 6 then { t.bump (Reg.PORT_UR_SENT (origin - 5)) with resp := .unsupported }
    else { t with resp := .value 0 }

/-- SEM_CLAIM (R412, R414). -/
def execSemClaim (origin : Fin 64) (index : Fin 64) (tie : Bool) (s : State) : Host.Outcome State Fault Refusal :=
  up s (fun s => ctlReadGate s origin.val (Reg.SEM_CLAIM index.val) (fun s => claimRead s origin.val index.val tie))

/-- SEM_RELEASE (R413). -/
def execSemRelease (origin : Fin 64) (index : Fin 64) (value : Word32) (s : State) : Host.Outcome State Fault Refusal :=
  up s (fun s => ctlGate s origin.val (Reg.SEM_CLAIM index.val) (fun s => claimWrite s origin.val index.val value.toNat))

end Sys2Proof.Machine
end

