-- ==== Sys2Proof/Machine/Ports.lean ====
section
/-! DEFINITION. The host ports (R405 to R410, R417, R428): port reset, BAR2, completions, configuration space, the MSI-X table. -/

namespace Sys2Proof.Machine

/-! ### Port reset (R272, R417, Table 16.3) -/

/-- CFG.ENABLE of every queue clears; replies wait until it is set again (R272). -/
def stopQueues (s : State) (p : Nat) : State :=
  let s1 := (List.range 32).foldl (fun t q => t.setFld (Fd.Q_CFG_ENABLE p q) 0) s
  { s1 with holdQueues := s1.holdQueues.filter (fun k => k / 32 != p) ++ (List.range 32).map (fun q => 32 * p + q) }

/-- Count one command that the reset ends. -/
def resetEnded (s : State) (p : Nat) : State := s.bump (Reg.PORT_RESET_ENDED p)

/-- Answer a command that a reset of its port ends before it has begun: PORT_RESET, DETAIL 0. -/
def endUnbegun (s : State) (p : Nat) (c : Cmd) : State := finishCmd (resetEnded s p) c St.portReset 0 0 0

/-- A stream with requests to the port in flight: an arm that waits is answered, the requests come back, the stream ends with PORT_RESET
(Table 9.12). -/
def endStreamRequests (s : State) (p n : Nat) : State :=
  let mine (c : Cmd) : Bool := c.opcode == 0x20 && c.phase == .executing && cmdStream c == n && c.pkt.port.val == p
  let s1 := (s.cmds.filter mine).foldl (fun t c => endUnbegun t p c) s
  let s2 := match s1.stream n with
    | some x => if x.pendingArm.isSome then dropArm s1 n St.staleGeneration else s1
    | none => s1
  requestsBack s2 n .portReset (touchesPort p)

/-- The requests of every stream to the port end. -/
def endPortRequests (s : State) (p : Nat) : State :=
  (s.streams.filter (fun x => x.reqs.any (fun q => touchesPort p q))).foldl (fun t x => endStreamRequests t p x.num) s

/-- A held reply of the port that is not marked yet: its command had completed, and keeps its effect (R272). -/
def heldReset (r : Reply) (p : Nat) : Bool := r.port == p && r.kind == 0 && r.status != St.portReset

/-- Has a command of port p begun: it executes, or is a POWER_STATE that waits to enter Retain (R451)? -/
def begunAt (s : State) (p : Nat) (c : Cmd) : Bool :=
  c.pkt.port.val == p && (c.phase == .executing || (c.phase == .fetched && c.opcode == 0x7F && s.flag Fd.PMU_STATE_BUSY))

/-- The port's commands in flight end with PORT_RESET (R272): held replies change their status, those that execute are marked, the others
are answered. -/
def endPortCommands (s : State) (p : Nat) : State :=
  let n := (s.held.filter (fun r => heldReset r p)).length
  let s1 : State := { s with
    held := s.held.map (fun r => if heldReset r p then { r with status := St.portReset, detail := 1 } else r)
    cmds := s.cmds.map (fun c => if begunAt s p c then { c with portReset := true } else c) }
  let s2 := s1.bumpBy (Reg.PORT_RESET_ENDED p) n
  (s2.cmds.filter (fun c => c.pkt.port.val == p && c.phase == .fetched && !(begunAt s p c))).foldl (fun t c => endUnbegun t p c) s2

/-- The port's ICN target (Table 16.3): stack emptied, FROZEN clear, the MSI-X table masked. -/
def resetTarget (s : State) (p : Nat) : State :=
  { clearStack s p with
    msixOn := s.msixOn.filter (fun k => k / 16 != p), pba := s.pba.filter (fun k => k / 16 != p)
    msix := s.msix.filter (fun e => e.1 / 64 != p) }

/-- What the configuration space of an endpoint says of the device (R405): Device ID, Revision ID, class code, the largest payload and read
request in powers of two times 128 bytes. -/
structure EndpointIdentity where
  device : Nat
  revision : Nat
  classCode : Nat
  maxPayload : Nat
  maxRequest : Nat
  deriving DecidableEq, Repr

/-- Both ports are the same endpoint (R405, Table 16.1). -/
def endpointIdentity : EndpointIdentity := ⟨0x9624, 0xB0, 0x120000, 2, 5⟩

/-- The size of BAR2 of a port, log2 of GiB. -/
def barLogOf (s : State) (p : Nat) : Nat := Tbl.get (fun _ => 7) s.barLog p

/-- BAR2 has a size; a base that is no multiple of it is cleared (R408). -/
def resizeBar2 (s : State) (p n : Nat) : State :=
  let s1 : State := { s with barLog := Tbl.set (fun _ => 7) s.barLog p n }
  if s1.fld (Fd.PORT_B2_BASE_BASE p) % 2 ^ n = 0 then s1 else s1.setFld (Fd.PORT_B2_BASE_BASE p) 0

/-- The port's configuration space returns to its reset values (Table 18.5). -/
def resetConfig (s : State) (p : Nat) : State :=
  resizeBar2 { s with d3 := s.d3.filter (fun q => q != p), fnMasked := s.fnMasked.filter (fun q => q != p),
                      cplRange := Tbl.set (fun _ => 0) s.cplRange p 0, devCtl := Tbl.set (fun _ => (0, 2)) s.devCtl p (0, 2),
                      aer := Tbl.set (fun _ => 0) s.aer p 0 } p 7

/-- The number of a cause in PORT[p].RESET_CAUSE. -/
def portCauseNum : PortCause → Nat
  | .perst => 1
  | .linkDown => 2
  | .hotReset => 3
  | .flr => 4

/-- LINK of a port. -/
def setLink (s : State) (p : Nat) (l : LinkFound) : State :=
  s.setRegN (Reg.PORT_LINK p) (if l.width = 0 then 0 else 2 ^ 31 + l.speed.toNat * 2 ^ 24 + l.width.toNat * 2 ^ 16)

/-- What a cause does to the link: PERST# holds it down, an FLR leaves it, after the others it is as it has come up. -/
def resetLink (s : State) (p : Nat) (cause : PortCause) (l : LinkFound) : State :=
  match cause with
  | .perst => { s with perst := p :: s.perst.filter (fun q => q != p) }.setRegN (Reg.PORT_LINK p) 0
  | .flr => s
  | .linkDown | .hotReset => setLink s p l

/-- A reset of port p (Table 16.3). DESIGN CHOICE, log entry 96. -/
def portReset (s : State) (p : Nat) (cause : PortCause) (l : LinkFound) : State :=
  let s1 := semPortReset (stopQueues s p) p
  let s2 := endPortCommands (endPortRequests s1 p) p
  let s3 := raisePriv (resetConfig (resetTarget s2 p) p) (1 - p) 33
  resetLink ((s3.bump (Reg.PORT_PORT_RESETS p)).setRegN (Reg.PORT_RESET_CAUSE p) (portCauseNum cause)) p cause l

/-- PORT_RESET (R417): PERST# of both ports is a cold reset. The link is as it has come up after a link down or hot reset. -/
def execPortReset (port : Fin 2) (cause : PortCause) (link : LinkFound) (s : State) : Host.Outcome State Fault Refusal :=
  if s.phase = .running ∧ cause = .perst ∧ s.perst.contains (1 - port.val) = true then .next (perstReset s)
  else up s (fun s => if s.perst.contains port.val then s else portReset s port.val cause link)

/-- PERST_RELEASE (R417): the reset ends, and the link comes up; in a cold reset the line alone changes. -/
def execPerstRelease (port : Fin 2) (link : LinkFound) (s : State) : Host.Outcome State Fault Refusal :=
  if s.phase = .held then .next { s with perst := s.perst.filter (fun q => q != port.val) }
  else up s (fun s => flushRings (setLink { s with perst := s.perst.filter (fun q => q != port.val) } port.val link))

/-! ### BAR2 (R408) -/

/-- Answer with Unsupported Request, and count it. DEDUCED, log entry 98. -/
def unsupportedReq (s : State) (p : Nat) : State := { s.bump (Reg.PORT_UR_SENT p) with resp := .unsupported }

/-- An access through BAR2 of port p; outside the window, in Retain, or past the firewall a read is unsupported and a write discarded. A
poisoned write to any BAR is discarded. DEDUCED, log entry 98. DESIGN CHOICE, log entry 118. -/
def bar2 (s : State) (p : Nat) (op : Bar2Op) : State :=
  let base := s.fld (Fd.PORT_B2_BASE_BASE p) * 2 ^ 30
  let size := 2 ^ (30 + barLogOf s p)
  let dark := s.fld Fd.PMU_STATE_STATE == 2
  match op with
  | .read off len =>
    if dark || decide (size < off.toNat + len.toNat) then unsupportedReq s p
    else
      let r := busRead s (5 + p) (base + off.toNat) len.toNat
      if r.refused then unsupportedReq r.state p else { r.state with resp := .data r.bytes r.poisoned }
  | .write off bytes bad =>
    if bad then aerNote (s.bump (Reg.PORT_RX_POISONED p)) p 12
    else if dark || decide (size < off.toNat + bytes.length) then s
    else busWrite s (5 + p) (base + off.toNat) bytes

/-- BAR2_ACCESS (R408, R409). -/
def execBar2Access (port : Fin 2) (op : Bar2Op) (s : State) : Host.Outcome State Fault Refusal :=
  up s (fun s => if s.perst.contains port.val then s else bar2 s port.val op)

/-- A write of B2_BASE: by its port or SC, a multiple of the BAR2 size below 0x60_0000_0000 (R408, R428). -/
def b2BaseWrite (s : State) (origin p : Nat) (v : Word) : State :=
  let b := bitsOf v.toNat 39 30
  if (origin ≠ 0 ∧ origin ≠ 5 + p) ∨ b % 2 ^ barLogOf s p ≠ 0 ∨ 0x180 ≤ b then logIgnored s origin (Reg.PORT_B2_BASE p) v.toNat
  else putRw s (Reg.PORT_B2_BASE p) v

/-! ### Completions (R409) -/

/-- The completion of request k of a stream that reads host memory ends it in a way. -/
def hostEnd (s : State) (n k : Nat) (e : ReqEnd) : State :=
  match (s.stream n).bind (fun x => x.reqs[k]?) with
  | none => s
  | some q => if (readPort q).isSome && mayEnd q e then afterStream (requestDone s n k e) n else s

/-- HOST_COMPLETION (R409): the data of request k of a stream arrive, poisoned or not. -/
def execHostCompletion (n : Fin 128) (k : Fin 256) (poisoned : Bool) (s : State) : Host.Outcome State Fault Refusal :=
  up s (fun s => hostEnd s n.val k.val (if poisoned then .poisonedData else .ok))

/-- COMPLETION_TIMEOUT (R409): they do not arrive in time. -/
def execCompletionTimeout (n : Fin 128) (k : Fin 256) (s : State) : Host.Outcome State Fault Refusal :=
  up s (fun s => hostEnd s n.val k.val .timeout)

/-! ### Configuration space and the MSI-X table (R405, R406, R422) -/

/-- The replies and records that waited for a port are written (R243, R254, R264). -/
def flushPort (s : State) (p : Nat) : State := flushRings ((List.range 32).foldl (fun t q => flushQueue t p q) s)

/-- A configuration-space write. -/
def configWrite (s : State) (p : Nat) : CfgWrite → State
  | .dState on =>
    let rest := s.d3.filter (fun q => q != p)
    if on then { s with d3 := p :: rest } else flushPort { s with d3 := rest } p
  | .cplRange v => { s with cplRange := Tbl.set (fun _ => 0) s.cplRange p v.toNat }
  | .bar2Size n => resizeBar2 s p n.val
  | .deviceControl payload request => { s with devCtl := Tbl.set (fun _ => (0, 2)) s.devCtl p (payload.val, request.val) }
  | .aerClear mask => { s with aer := Tbl.set (fun _ => 0) s.aer p (Tbl.get (fun _ => 0) s.aer p &&& (2 ^ 32 - 1 - mask.toNat)) }
  | .functionMask on =>
    let rest := s.fnMasked.filter (fun q => q != p)
    { s with fnMasked := if on then p :: rest else rest }

/-- PCIE_CONFIG_WRITE (R405, R408, R409). PRESUMED, log entry 100. -/
def execPcieConfigWrite (port : Fin 2) (w : CfgWrite) (s : State) : Host.Outcome State Fault Refusal :=
  up s (fun s => if s.perst.contains port.val then s else configWrite s port.val w)

/-- A write of word `dw` of entry v of the MSI-X table: 0 and 1 the address, 2 the data, 3 the vector control with the mask in bit 0. -/
def msixWrite (s : State) (p v dw x : Nat) : State :=
  let k := 16 * p + v
  if dw < 3 then { s with msix := Tbl.set (fun _ => 0) s.msix (4 * k + dw) x }
  else
    let rest := s.msixOn.filter (fun j => j != k)
    { s with msixOn := if bitOf x 0 then rest else rest ++ [k] }

/-- MSIX_TABLE_WRITE (R406, R422). PRESUMED, log entry 100. -/
def execMsixTableWrite (port : Fin 2) (vector : Fin 16) (dword : Fin 4) (value : Word32) (s : State) :
    Host.Outcome State Fault Refusal :=
  up s (fun s => if s.perst.contains port.val then s else msixWrite s port.val vector.val dword.val value.toNat)

end Sys2Proof.Machine
end

