-- ==== Sys2Proof/Machine/Saf.lean ====
section
/-! DEFINITION. The safety rows: supervisor windows that close (R306), the fallback's self-test (R301), SAFETY_CONFIG (R314 to
R316), FALLBACK_FORCE (R300), the arming of FB_EN (R316), the firewall lock (R324). -/

namespace Sys2Proof.Machine

/-! ### Supervisors (R306) -/

/-- A START or FINISH window of a supervisor closes for a slot, not before its bound; without its signal: kind 2 or 4. -/
def windowClose (s : State) (c id i : Nat) (finish : Bool) : State :=
  match s.slotCtx c id with
  | none => s
  | some x => match x.sups.find? (fun p => p.1 == i) with
    | none => s
    | some (_, sup) =>
      if finish then
        if x.supFinishEnd.contains i || decide (nowT s < windowAt x sup.finishClose) then s
        else
          let s1 := s.setSlotCtx c { x with supFinishEnd := i :: x.supFinishEnd }
          if x.supFinish.contains i then s1 else violation s1 i 4 sup id x.slot
      else if x.supStartEnd.contains i || decide (nowT s < windowAt x sup.startClose) then s
      else
        let s1 := s.setSlotCtx c { x with supStartEnd := i :: x.supStartEnd }
        if x.supStart.contains i then s1 else violation s1 i 2 sup id x.slot

/-- SUPERVISOR_WINDOW_CLOSE (R306). -/
def execSupervisorWindowClose (carrier : Fin 8) (tick : BitVec 32) (sup : Fin 256) (finish : Bool) (s : State) :
    Host.Outcome State Fault Refusal :=
  up s (fun s => windowClose s carrier.val tick.toNat sup.val finish)

/-- FALLBACK_SELF_TEST: a failure is a fallback fault of cause 4 (R301). `unit` is what failed. -/
def execFallbackSelfTest (passed : Bool) (unit : Fin 256) (s : State) : Host.Outcome State Fault Refusal :=
  up s (fun s => if passed then s else fallbackFault s 4 unit.val)

/-! ### SAFETY_CONFIG (R314 to R316) -/

/-- Bytes of the configuration block. -/
@[reducible] def safetyLen : Nat := 8832

/-- A carrier section (Table 12.6). -/
def carSection (b : List Byte) (c : Nat) : List Byte := (b.drop (64 + 64 * c)).take 64

/-- What a carrier section says. -/
def safeCarOf (e : List Byte) : SafeCar :=
  let f := leAt e 0 1
  { fbEn := bitOf f 0, ffdEn := bitOf f 1, ffdAction := bitOf f 2
    layers := ((e.drop 2).take (leAt e 1 1)).map (fun x => x.toNat)
    antennas := some (((e.drop 16).take (leAt e 10 1)).map (fun x => x.toNat)) }

/-- Are a carrier section's fields within their ranges? -/
def carSectionOk (e : List Byte) : Bool :=
  let nl := leAt e 1 1
  let na := leAt e 10 1
  decide (1 ≤ nl) && decide (nl ≤ 8) && decide (1 ≤ na) && decide (na ≤ 16) &&
    ((e.drop 2).take nl).all (fun x => decide (x.toNat ≤ 15)) && ((e.drop 16).take na).all (fun x => decide (x.toNat ≤ 63))

/-- The eight words of the calibration section. -/
def calWords (b : List Byte) : List Nat := (List.range 8).map (fun k => leAt b (0x240 + 4 * k) 4)

/-- Are the calibration words within their ranges (R314)? -/
def calWordsOk (w : List Nat) : Bool :=
  let g (k : Nat) : Nat := w.getD k 0
  [0, 1, 3, 4, 5].all (fun k => decide (g k < 65536)) && decide (g 1 ≤ 0x7FFF) && decide (g 4 ≤ 0x7FFF) &&
    decide (g 2 % 65536 ≤ g 2 / 65536) && decide (0 < g 6) && decide (g 6 < 0x7F800000) && decide (1 ≤ g 7) && decide (g 7 < 256)

/-- A supervisor entry (Table 12.7). -/
def supEntry (b : List Byte) (i : Nat) : List Byte := (b.drop (0x280 + 32 * i)).take 32

/-- Is a supervisor entry within its ranges? -/
def supEntryOk (e : List Byte) : Bool :=
  let w (k : Nat) : Nat := leAt e (8 + 4 * k) 4
  decide (leAt e 2 2 < 16384) && decide (leAt e 4 2 < 16384) && (List.range 4).all (fun k => decide (w k < 2 ^ 27)) &&
    decide (w 0 ≤ w 1) && decide (w 2 ≤ w 3) && zeroAt e 24 8

/-- What a valid supervisor entry says. -/
def supOf (e : List Byte) : Sup :=
  let f := leAt e 0 1
  { safe := bitOf f 1, carrier := bitsOf f 4 2, start := leAt e 2 2, finish := leAt e 4 2, layers := leAt e 6 2
    startOpen := leAt e 8 4, startClose := leAt e 12 4, finishOpen := leAt e 16 4, finishClose := leAt e 20 4 }

/-- The supervisors of a block, by number. -/
def supsOf (b : List Byte) : List (Nat × Sup) :=
  (List.range 256).filterMap (fun i => let e := supEntry b i; if bitOf (leAt e 0 1) 0 then some (i, supOf e) else none)

/-- The block passes its CRC and every field lies in its range (R314). -/
def safetyBlockOk (b : List Byte) : Bool :=
  leAt b 0x3C 4 == crc32 (b.take 0x3C ++ zeros 4 ++ b.drop 0x40) && leAt b 0 4 == 1 && leAt b 4 4 == safetyLen &&
    decide (1 ≤ leAt b 9 1) && decide (leAt b 9 1 ≤ 32) && decide (32 ≤ leAt b 10 1) && decide (leAt b 10 1 ≤ 50) &&
    (List.range 8).all (fun c => carSectionOk (carSection b c)) && calWordsOk (calWords b) &&
    (List.range 256).all (fun i => supEntryOk (supEntry b i))

/-- Would a block clear FB_EN of a carrier that is not armed (R316)? -/
def disarmsUnarmed (s : State) (b : List Byte) : Bool :=
  (List.range 8).any (fun c => !(safeCarOf (carSection b c)).fbEn && !(s.regBit Reg.SAF_FB_OFF_ARM c))

/-- The block is applied: carrier by carrier at their ticks (R315); the arm bits clear (R316). DEDUCED, log entry 70. -/
def applySafety (s : State) (b : List Byte) : State :=
  let sups := supsOf b
  let cfg : SafeCfg := ⟨[], [], leAt b 10 1, leAt b 9 1⟩
  let p : SafePending := ⟨cfg, (List.range 8).filter (configured s), calWords b, leAt b 0x3C 4, bitOf (leAt b 8 1) 0⟩
  let late := (List.range 8).map (fun c => (c, safeCarOf (carSection b c), sups.filter (fun q => q.2.carrier == c)))
  let s1 := { s with safeLate := late, safePend := some p }.setRegN Reg.SAF_FB_OFF_ARM 0
  safePassed s1 (fun _ => false)

/-- SAFETY_CONFIG. -/
def safetyConfigBody (c : Cmd) (s : State) : State :=
  let p := c.pkt
  if s.flag Fd.SAF_STATUS_LOCKED then refuse s c St.badParam 8
  else if 2 ^ 52 ≤ p.p0.toNat then refuse s c St.badParam 1
  else if p.p1.toNat ≠ safetyLen then refuse s c St.badParam 2
  else match unusedFrom p 2 with
    | some d => refuse s c St.badParam d
    | none =>
      if spaceQuiet s (addrSpace p.p0) then setCmdPhase s c .fetched else
      let a := spaceRead s 0 (addrSpace p.p0) (addrBits p.p0) safetyLen
      if a.fault.isSome ∨ a.poisoned = true ∨ safetyBlockOk a.bytes = false ∨ disarmsUnarmed s a.bytes = true then
        refuse a.state c St.badParam 1
      else applySafety a.state a.bytes

/-- SAFETY_CONFIG (R314). -/
def execSafetyConfig (p : Pkt) (s : State) : Host.Outcome State Fault Refusal := up s (hostCmd 0x58 p safetyConfigBody)

/-! ### FALLBACK_FORCE (R300) -/

/-- FALLBACK_FORCE: answered at the next tick of the latest named carrier that ticks, at once where none does. -/
def fallbackForceBody (c : Cmd) (s : State) : State :=
  if extraBits c.pkt.p0 0x1FF then refuse s c St.badParam 1
  else match unusedFrom c.pkt 1 with
    | some d => refuse s c St.badParam d
    | none =>
      let wait := ((List.range 8).filter (fun k => bitOf c.pkt.p0.toNat k && s.flag (Fd.TSU_CAR_V k))).foldl (fun m k => m + 2 ^ k) 0
      if wait = 0 then forceDone s c else setCmdAux s c wait

/-- FALLBACK_FORCE (R300). -/
def execFallbackForce (p : Pkt) (s : State) : Host.Outcome State Fault Refusal := up s (hostCmd 0x59 p fallbackForceBody)

/-! ### Register writes of SAF and FW (R316, R324) -/

/-- A write of SAF.FB_OFF_ARM: by a port that holds SEM0 only; ones set (R316). -/
def fbOffArm (s : State) (origin v : Nat) : State :=
  if (origin = 5 ∨ origin = 6) ∧ holdsSem s (origin - 5) 0 = true then
    s.setRegN Reg.SAF_FB_OFF_ARM (s.regN Reg.SAF_FB_OFF_ARM ||| v % 256)
  else logIgnored s origin Reg.SAF_FB_OFF_ARM v

/-- FB_OFF_ARM (R316). -/
def execFbOffArm (origin : Fin 64) (value : Word32) (s : State) : Host.Outcome State Fault Refusal :=
  up s (fun s => ctlGate s origin.val Reg.SAF_FB_OFF_ARM (fun s => fbOffArm s origin.val value.toNat))

/-- FW_LOCK: SC alone reaches FW; writing 1 locks regions 0 to 63 and the default masks (R309, R324). -/
def execFwLock (origin : Fin 64) (value : Word32) (s : State) : Host.Outcome State Fault Refusal :=
  up s (fun s => ctlGate s origin.val Reg.FW_LOCK (fun s => if bitOf value.toNat 0 then s.setFld Fd.FW_LOCK_LOCKED 1 else s))

end Sys2Proof.Machine
end

