-- ==== Sys2Proof/Machine/Control.lean ====
section
/-! DEFINITION. Reads and writes of the control space (R9 to R11, R407, R461): what a register shows, the ledgers' latches (R169, R276),
and every write to its register's own rule. -/

namespace Sys2Proof.Machine

/-! ### Finding a register -/

/-- The register at an offset, and 32 where the offset is the upper half of a 64-bit one. -/
def regAt (off : Nat) : Option (RegFam × Nat × Nat) :=
  match regLookup off with
  | some f => some (f, off, 0)
  | none =>
    if off % 8 = 4 then
      match regLookup (off - 4) with
      | some f => if f.wide then some (f, off - 4, 32) else none
      | none => none
    else none

/-- Is an offset within the capability record or its STATUS register? Unlisted offsets of the record are reserved (R463). -/
def inCap (off : Nat) : Bool := decide (off < 0x1000) || off == Reg.CAP_STATUS

/-- An access to an unassigned offset reads 0, has no effect and is recorded (R11). -/
def unassigned (s : State) (origin off : Nat) (write : Bool) : State :=
  { s.log 0x01 origin (unitBlock off) (ctlBase + off) 0 write with resp := if write then s.resp else .value 0 }

/-! ### What a read shows -/

/-- Registers that show a view of other state: SH_SUM and the time of day. -/
def shownReg (s : State) (off : Nat) : Word :=
  if 0x40000 ≤ off ∧ off < 0x41C00 ∧ off % 0x400 = 0x28 then BitVec.ofNat 64 (shSum s ((off - 0x40000) / 0x400))
  else if off = Reg.TSU_TIME_SEC then BitVec.ofNat 64 s.timeSec
  else if off = Reg.TSU_TIME_NS then BitVec.ofNat 64 s.timeNs
  else if off = Reg.TSU_TIME_FRAC then BitVec.ofNat 64 s.timeFrac
  else s.reg off &&& ~~~(accMask off .wo)

/-- Registers that a read of another one latches, each with the bits it takes part with (R169, R276, R294, R404). DEDUCED, log entry 23. -/
def latches (off : Nat) : List Nat :=
  if (0x22000 ≤ off ∧ off < 0x28000) ∧ off % 0x4000 = 0x2000 then
    (List.range 32).map (fun q => Reg.Q_IN_FLIGHT ((off - 0x22000) / 0x4000) q)
  else if 0x20000 ≤ off ∧ off < 0x28000 ∧ off % 0x4000 < 0x2000 ∧ off % 0x100 = 0x2C then [off - 4, off + 4]
  else if 0x2C000 ≤ off ∧ off < 0x2C800 ∧ off % 0x100 = 0x1C then [off + 4, off - 4, off - 8]
  else if off = Reg.SYN_INIT_TOTAL then [off + 8, off + 16, off + 24, off + 32]
  else if off = Reg.AE0_KV_POOL_TOTAL then [off + 4, off + 8, off + 12]
  else if 0xA00000 ≤ off ∧ off < 0xA10000 ∧ 0x20 ≤ off % 0x4000 ∧ off % 0x4000 < 0x60 ∧ off % 16 = 0 then [off + 4, off + 8, off + 12]
  else if off = Reg.TSU_TIME_SEC then [Reg.TSU_TIME_NS, Reg.TSU_TIME_FRAC]
  else []

/-- The bits of a latched register that its ledger holds: HELD of SLOT[c].STATE, of others all. DEDUCED, log entry 23. -/
def latchMask (off : Nat) : Word :=
  if 0x2C000 ≤ off ∧ off < 0x2C800 ∧ off % 0x100 = 0x14 then 0x1FC else BitVec.allOnes 64

/-- Keep the value of a register until its ledger is read again. DEDUCED, log entry 22. -/
def latchReg (s : State) (off : Nat) (v : Word) : State :=
  { s with latched := (off, v) :: s.latched.filter (fun p => p.1 != off) }

/-- A register as a read finds it: what a latch holds of it, else its value (R276). DEDUCED, log entry 22. -/
def seenReg (s : State) (off : Nat) : Word :=
  match s.latched.find? (fun p => p.1 == off) with
  | some p => (shownReg s off &&& ~~~(latchMask off)) ||| (p.2 &&& latchMask off)
  | none => shownReg s off

/-- What a read of a register's first word does beside: it latches the ledger's others; of DET.BEAT the upper half (R294). DEDUCED, log entry 22. -/
def latchOthers (s : State) (off : Nat) : State :=
  let s1 := (latches off).foldl (fun t o => latchReg t o (shownReg t o)) s
  if off = Reg.DET_BEAT then latchReg s1 (off + 4) (s.reg off >>> 32) else s1

/-- The upper half of a register: of DET.BEAT as it was latched. -/
def seenHigh (s : State) (off : Nat) : Word :=
  if off = Reg.DET_BEAT then
    match s.latched.find? (fun p => p.1 == off + 4) with
    | some p => p.2
    | none => s.reg off >>> 32
  else seenReg s off >>> 32

/-- RC fields that a read touches clear (R9). -/
def clearRead (s : State) (off : Nat) (mask : Word) : State :=
  let m := accMask off .rc &&& mask
  if m = 0 then s else s.setReg off (s.reg off &&& ~~~m)

/-- A read of the 32-bit word at an offset: its value and what it leaves. -/
def readWord (s : State) (origin off : Nat) : Word × State :=
  if inCap off then (BitVec.ofNat 64 (capWord s off), s)
  else if Reg.SEM_CLAIM 0 ≤ off ∧ off < Reg.SEM_CLAIM 64 then
    let t := claimRead s origin ((off - Reg.SEM_CLAIM 0) / 4) false
    (match t.resp with | .value v => v | _ => 0, t)
  else match regAt off with
    | none => (0, unassigned s origin off false)
    | some (_, base, sh) =>
      if sh = 0 then (seenReg s base &&& 0xFFFFFFFF, clearRead (latchOthers s base) base 0xFFFFFFFF)
      else (seenHigh s base &&& 0xFFFFFFFF, clearRead s base 0xFFFFFFFF00000000)

/-- A read of 8 bytes: atomic at a 64-bit register, two words otherwise (R407). -/
def readDouble (s : State) (origin off : Nat) : Word × State :=
  let wide := match regLookup off with | some f => f.wide | none => false
  if wide && !(inCap off) then (seenReg s off, clearRead (latchOthers s off) off (BitVec.allOnes 64))
  else
    let (lo, s1) := readWord s origin off
    let (hi, s2) := readWord s1 origin (off + 4)
    (lo ||| (hi <<< 32), s2)

/-- A length and an alignment that BAR0 takes (R407). -/
def sizeOk (off len : Nat) : Bool := (len == 4 && off % 4 == 0) || (len == 8 && off % 8 == 0)

/-- An access of another length or alignment: a host gets Unsupported Request for a read, which is counted like the discarded write; LOG
records either (R407). DEDUCED, log entry 98. -/
def badSize (s : State) (origin off v : Nat) (write : Bool) : State :=
  let host := origin == 5 || origin == 6
  let s1 := if host then s.bump (Reg.PORT_UR_SENT (origin - 5)) else s
  let s2 := s1.log (if write then 0x02 else 0x01) origin (unitBlock off) (ctlBase + off) v write
  if write then s2 else { s2 with resp := if host then .unsupported else .value 0 }

/-- A read of the control space. -/
def ctlRead (s : State) (origin off len : Nat) : State :=
  if hostInReset s origin then s
  else if !(sizeOk off len) then badSize s origin off 0 false
  else ctlReadGate s origin off (fun s =>
    let (v, t) := if len = 8 then readDouble s origin off else readWord s origin off
    { t with resp := .value v })

/-- RC_READ (R9): the value is returned and cleared. -/
def execRcRead (origin : Fin 64) (offset : BitVec 26) (len : BitVec 13) (s : State) : Host.Outcome State Fault Refusal :=
  up s (fun s => ctlRead s origin.val offset.toNat len.toNat)

/-- LATCHING_READ (R276): the value is returned, and the other registers of the ledger are latched. -/
def execLatchingRead (origin : Fin 64) (offset : BitVec 26) (len : BitVec 13) (s : State) : Host.Outcome State Fault Refusal :=
  up s (fun s => ctlRead s origin.val offset.toNat len.toNat)

/-! ### Writes -/

/-- A write by access type: RW fields take the value, W1C ones clear, W1S ones set, RWL ones take it until the lock (R9). A locked field is
recorded. -/
def plainWrite (s : State) (origin off : Nat) (v : Word) : State :=
  let old := s.reg off
  let c := old &&& ~~~(v &&& accMask off .w1c)
  let w := c ||| (v &&& accMask off .w1s)
  let rw := accMask off .rw
  let s1 := s.setReg off ((w &&& ~~~rw) ||| (v &&& rw))
  let l := accMask off .rwl
  if l = 0 then s1
  else if s.flag Fd.FW_LOCK_LOCKED then logIgnored s1 origin off v.toNat
  else s1.setReg off ((s1.reg off &&& ~~~l) ||| (v &&& l))

/-- A write of a queue's register: its port only (R252). -/
def queueRegWrite (s : State) (origin off p q : Nat) (v : Word) : State :=
  let n := v.toNat % 2 ^ 32
  match off % 0x100 with
  | 0x00 => queueBaseWrite s origin off p q v
  | 0x08 => queueBaseWrite s origin off p q v
  | 0x10 => queueCfgWrite s origin p q n
  | 0x14 => sqTailWrite s origin p q n
  | 0x1C => rqHeadWrite s origin p q n
  | _ => if origin ≠ portOrigin p then logIgnored s origin off v.toNat else plainWrite s origin off v

/-- A write in the Queues and doorbells block. -/
def queueBlockWrite (s : State) (origin off : Nat) (v : Word) : State :=
  let o := off - 0x20000
  if o < 0x8000 then
    if o % 0x4000 < 0x2000 then queueRegWrite s origin off (o / 0x4000) (o % 0x4000 / 0x100) v
    else if o % 0x4000 = 0x2010 then b2BaseWrite s origin (o / 0x4000) v
    else plainWrite s origin off v
  else if 0xC000 ≤ o ∧ o % 0x100 = 8 then slotTailPublish s origin ((o - 0xC000) / 0x100) (v.toNat % 2 ^ 32)
  else plainWrite s origin off v

/-- A write of a TSU register: OFFSET, a RW register (R394), or one that is read-only. -/
def tsuRegWrite (s : State) (origin off : Nat) (v : Word) : State :=
  if off = Reg.TSU_OFFSET then offsetWrite s origin v
  else if accMask off .rw = 0 then s
  else tsuWrite s origin off v

/-- A write of a CAL register (R199, R209, R212, Table 8.8). -/
def calWrite (s : State) (origin off : Nat) (v : Word) : State :=
  let n := v.toNat
  let ignored := logIgnored s origin off n
  if off = Reg.CAL_CTRL then (if s.fld Fd.COMPUTE_OWNER = 0 then putRw s off v else ignored)
  else if off = Reg.CAL_WINDOW then (if n % 1024 = 0 then ignored else putRw s off v)
  else if off = Reg.CAL_DIGEST_CFG then (if n % 256 = 0 ∨ bitsOf n 31 16 = 0 then ignored else putRw s off v)
  else if Reg.CAL_RANGE_CLEAR ≤ off ∧ off ≤ Reg.CAL_LIM_ACT then ignored
  else plainWrite s origin off v

/-- Is an FP32 value infinite or a NaN (R48)? -/
def fp32NotFinite (n : Nat) : Bool := bitsOf n 30 23 == 255

/-- A write of a register of array block n (R48, R55, R89): those of DQ_MODE to DQ_SOUT are ignored while a job owns the array. -/
def arrayWrite (s : State) (origin off : Nat) (v : Word) : State :=
  let o := (off - 0x400000) % 0x4000
  let n := v.toNat % 2 ^ 32
  if 0x1000 ≤ o ∧ o < 0x2000 then logIgnored s origin off n
  else if 0x3000 ≤ o ∧ o < 0x3010 ∧ s.flag (Fd.MA_ID_MAPPED ((off - 0x400000) / 0x4000)) = true then logIgnored s origin off n
  else if o = 0x3000 then
    if 4 < n % 8 then logIgnored (s.setReg off (fieldPut (rwValue s off v) 2 0 (s.regN off % 8))) origin off n else putRw s off v
  else if o = 0x3004 ∨ o = 0x3008 then (if fp32NotFinite n then logIgnored s origin off n else putRw s off v)
  else plainWrite s origin off v

/-- A write in the Decoders block (R194, R198). -/
def decoderWrite (s : State) (origin off : Nat) (v : Word) : State :=
  let n := v.toNat
  if off < Reg.DEC_LDPC_CFG 16 ∧ off % 0x100 = 0 then logIgnored s origin off n
  else if Reg.DEC_RAMP 0 ≤ off ∧ off < Reg.DEC_RAMP 8 then
    if n % 128 < 2 ∨ 64 < n % 128 ∨ 64 < bitsOf n 14 8 then logIgnored s origin off n else putRw s off v
  else plainWrite s origin off v

/-- A write of LOG.CTRL: STICKY_CLR from a port that holds SEM0 empties the sticky log; any other is ignored and recorded (R346). -/
def stickyClear (s : State) (origin v : Nat) : State :=
  if !(bitOf v 0) then s
  else if (origin = 5 ∨ origin = 6) ∧ holdsSem s (origin - 5) 0 = true then
    { s.setRegN Reg.LOG_STICKY_COUNT 0 with stickyLog := [] }
  else logIgnored s origin Reg.LOG_CTRL v

/-- STICKY_CLR (R346). -/
def execStickyClr (origin : Fin 64) (value : Word32) (s : State) : Host.Outcome State Fault Refusal :=
  up s (fun s => ctlGate s origin.val Reg.LOG_CTRL (fun s => stickyClear s origin.val value.toNat))

/-- A write of PMU.CTRL without the time of the exit: what LAST_EXIT shows is a free value. -/
def pmuCtrlWrite (s : State) (origin v : Nat) : State :=
  let (w, t) := s.free
  wakeWrite t origin v (w.toNat % 65536)

/-- The blocks whose writes have rules of their own below 0x20_0000. -/
def systemWrite (s : State) (origin off : Nat) (v : Word) : State :=
  let n := v.toNat
  if off < 0x20000 then
    if Reg.SEM_CLAIM 0 ≤ off ∧ off < Reg.SEM_CLAIM 64 then claimWrite s origin ((off - Reg.SEM_CLAIM 0) / 4) n else s
  else if off < 0x30000 then queueBlockWrite s origin off v
  else if 0x40000 ≤ off ∧ off < 0x50000 then icnWrite s origin off v
  else if 0x100000 ≤ off ∧ off < 0x110000 then tsuRegWrite s origin off v
  else if off = Reg.SAF_FB_OFF_ARM then fbOffArm s origin n
  else if 0x140000 ≤ off ∧ off < 0x150000 then calWrite s origin off v
  else if off = Reg.PMU_CTRL then pmuCtrlWrite s origin n
  else plainWrite s origin off v

/-- A write of an assigned register. -/
def regWrite (s : State) (origin off : Nat) (v : Word) : State :=
  let n := v.toNat
  if off < 0x200000 then systemWrite s origin off v
  else if off < 0x220000 then
    let e := (off - 0x200000) / 0x1000
    let o := off % 0x1000
    if 0x100 ≤ o ∧ o % 0x40 = 0x1C then crTailWrite s (4 * e + (o - 0x100) / 0x40) (n % 2 ^ 32) else plainWrite s origin off v
  else if 0x400000 ≤ off ∧ off < 0x580000 then arrayWrite s origin off v
  else if 0x600000 ≤ off ∧ off < 0x660000 then
    if 0x2000 ≤ (off - 0x600000) % 0x4000 then logIgnored s origin off n else plainWrite s origin off v
  else if off = Reg.AE0_KV_TICK_SRC then
    if s.fld Fd.COMPUTE_OWNER = 0 then putRw s off v else logIgnored s origin off n
  else if 0x800000 ≤ off ∧ off < 0x810000 then decoderWrite s origin off v
  else if 0x900000 ≤ off ∧ off < 0xA00000 then (if accMask off .rw = 0 then s else fhpWrite s origin off v)
  else if 0xA00000 ≤ off ∧ off < 0xB00000 then (if accMask off .rw = 0 then s else ilpWrite s origin off v)
  else if off = Reg.LOG_CTRL then stickyClear s origin n
  else if off = Reg.SCRUB_CFG then (if n % 16 < 4 ∨ 8 < n % 16 then logIgnored s origin off n else putRw s off v)
  else plainWrite s origin off v

/-- A write of the 32-bit word at an offset; the other half of a 64-bit register keeps its RW bits and clears or sets nothing.
DEDUCED, log entry 101. -/
def writeWord (s : State) (origin off n : Nat) : State :=
  if inCap off then s
  else match regAt off with
    | none => unassigned s origin off true
    | some (f, base, sh) =>
      if !f.wide then regWrite s origin base (BitVec.ofNat 64 n)
      else
        let keep := s.reg base &&& (accMask base .rw ||| accMask base .rwl) &&& (if sh = 0 then 0xFFFFFFFF00000000 else 0xFFFFFFFF)
        regWrite s origin base (keep ||| BitVec.ofNat 64 (n * 2 ^ sh))

/-- A write of 8 bytes: atomic at a 64-bit register, two words otherwise (R407). DEDUCED, log entry 101. -/
def writeDouble (s : State) (origin off : Nat) (v : Word) : State :=
  let wide := match regLookup off with | some f => f.wide | none => false
  if wide && !(inCap off) then regWrite s origin off v
  else writeWord (writeWord s origin off (v.toNat % 2 ^ 32)) origin (off + 4) (v.toNat / 2 ^ 32)

/-- A write of the control space. DEDUCED, log entry 97. -/
def ctlWrite (s : State) (origin off len : Nat) (v : Word) : State :=
  if hostInReset s origin then s
  else if !(sizeOk off len) then badSize s origin off v.toNat true
  else ctlGate s origin off (fun s =>
    if len = 8 then writeDouble s origin off v else writeWord s origin off (v.toNat % 2 ^ 32))

/-- REGISTER_WRITE (R9 to R11, R407). -/
def execRegisterWrite (origin : Fin 64) (offset : BitVec 26) (len : BitVec 13) (value : Word) (s : State) :
    Host.Outcome State Fault Refusal :=
  up s (fun s => ctlWrite s origin.val offset.toNat len.toNat value)

end Sys2Proof.Machine
end

