-- ==== Sys2Proof/Machine/Det.lean ====
section
/-! DEFINITION. Crossings in deterministic mode (R18 to R20, R285, R293) and the load balancer (R107). -/

namespace Sys2Proof.Machine

/-- Cycles per beat and guard cycles of an island (Tables 1.2, 11.4). DESIGN CHOICE, log entry 109. -/
def beatOf (i : Nat) : Nat × Nat :=
  if i < 96 then (64, 8)
  else if i < 128 then (128, 16)
  else if i < 145 then (192, 24)
  else if i < 149 then (128, 16)
  else if i < 151 then (200, 25)
  else if i < 159 then (160, 20)
  else (200, 25)

/-- Non-repeating islands (R285): DSC12 to DSC15, memory, hosts, fronthaul, Iferik Link, the control complex. -/
def nonRepeating (i : Nat) : Bool := (decide (140 ≤ i) && decide (i ≤ 143)) || decide (145 ≤ i)

/-- The smallest beat k with c ≤ k × B - G (R18). -/
def releaseBeat (i c : Nat) : Nat := let (b, g) := beatOf i; (c + g + b - 1) / b

/-- Beat since the origin that a job scheduled an entry for. -/
def scheduledBeat (s : State) (e : CrossEntry) : Nat := s.regN Reg.DET_REF_BEAT + e.scheduled

/-- The beat of an entry's own offer: one of a non-repeating island is taken at the cut-off of its scheduled beat, or
later (R285). -/
def entryBeat (s : State) (e : CrossEntry) : Nat :=
  let k := releaseBeat e.producer.val e.offer
  if nonRepeating e.producer.val then max k (scheduledBeat s e) else k

/-- A late entry, or a producer that a full FIFO stalled past its schedule, counts (R19, R289); LAST shows the beat of the
release. -/
def noteLate (s : State) (kind island beat : Nat) : State :=
  let s1 := countTdc s kind island
  s1.setFld Fd.DET_LAST_BEAT (((beat + 2 ^ 32 - s.regN Reg.DET_REF_BEAT % 2 ^ 32) % 65536))

/-- Entries with the beats at which they are released: those of one producer in the order of their offers (R18). -/
def releases (s : State) (es : List CrossEntry) : List (CrossEntry × Nat) :=
  es.foldl (fun (acc : List (CrossEntry × Nat)) e =>
    let before := (acc.filter (fun p => p.1.producer == e.producer)).foldl (fun m p => max m p.2) 0
    acc ++ [(e, max before (entryBeat s e))]) []

/-- One record of DET.XSIG[i] (R293). -/
def xsigRecord (s : State) (i beat producer n : Nat) : State :=
  let rel := (beat + 2 ^ 32 - s.regN Reg.DET_REF_BEAT % 2 ^ 32) % 2 ^ 32
  let rec_ := leBytes 4 rel ++ leBytes 2 producer ++ leBytes 2 n
  s.setRegN (Reg.DET_XSIG i) ((rec_.foldl crc32Byte (s.regN (Reg.DET_XSIG i) ^^^ 0xFFFFFFFF)) ^^^ 0xFFFFFFFF)

/-- The records of every beat, in order; within a beat by producer. -/
def xsigRecords (s : State) (i : Nat) (rs : List (CrossEntry × Nat)) : State :=
  let beats := ((rs.map (fun p => p.2)).mergeSort (fun a b => decide (a ≤ b))).eraseDups
  beats.foldl (fun t k =>
    (List.range 160).foldl (fun u p =>
      let n := (rs.filter (fun r => r.2 == k && r.1.producer.val == p)).length
      if n = 0 then u else xsigRecord u i k p n) t) s

/-- CROSSING_RELEASE (R18 to R20): in deterministic mode entries are released at beats, late ones counted, the consumer's
signature takes its records; in throughput mode nothing is counted. DESIGN CHOICE, log entry 89. -/
def execCrossingRelease (consumer : Fin 160) (entries : List CrossEntry) (s : State) : Host.Outcome State Fault Refusal :=
  up s (fun s =>
    if !(s.det && s.flag Fd.DET_STATUS_REF_V) then s
    else
      let rs := releases s entries
      let s1 := rs.foldl (fun t r =>
        let t1 := if scheduledBeat s r.1 < entryBeat s r.1 then noteLate t 1 r.1.producer.val r.2 else t
        if r.1.full then noteLate t1 2 r.1.producer.val r.2 else t1) s
      xsigRecords s1 consumer.val rs)

/-- LOAD_BALANCER_MOVE (R107): a move that regroups a compact reduction is a choice of kind 7 of participant 0's array.
Deterministic mode and grouped-mode layers have no moves. DESIGN CHOICE, log entry 89. -/
def execLoadBalancerMove (m : BalanceMove) (s : State) : Host.Outcome State Fault Refusal :=
  up s (fun s =>
    match s.owner, m.participants with
    | some _, p :: _ => if s.det || m.grouped || !m.compact || !m.regroups then s else countTdc s 7 p.val
    | _, _ => s)

end Sys2Proof.Machine
end

