-- ==== Sys2Proof/Machine/Gather.lean ====
section
/-! DEFINITION. The embedding gather units (R245, R246), background scrub (R231) and the evaluation of the ledgers (R276 to R278). -/

namespace Sys2Proof.Machine

/-! ### Gather batches (Table 9.14) -/

/-- Origin of the gather units (Table 12.5). -/
@[reducible] def eguOrigin : Nat := 35

/-- A batch descriptor. -/
structure Batch where
  table : Nat
  rows : Nat
  rsize : Nat
  idx : Nat
  nidx : Nat
  out : Nat
  wait : Option Nat
  sig : Option Nat
  bad : Bool
  deriving DecidableEq, Repr

/-- Read a descriptor; bad: RSIZE or NIDX out of range, or a reserved field set (R245). -/
def batchOf (bs : List Byte) : Batch :=
  let x := leAt bs 0x28 4
  let rsize := leAt bs 0x0C 2
  let nidx := leAt bs 0x18 4
  { table := leAt bs 0 8 % 2 ^ 48, rows := leAt bs 8 4, rsize := rsize, idx := leAt bs 0x10 8 % 2 ^ 48, nidx := nidx,
    out := leAt bs 0x20 8 % 2 ^ 48, wait := if bitOf x 30 then some (x % 16384) else none,
    sig := if bitOf x 31 then some (x / 65536 % 16384) else none,
    bad := decide (rsize < 32) || decide (512 < rsize) || rsize % 32 != 0 || nidx == 0 || decide (65536 < nidx) ||
      leAt bs 0x0E 2 != 0 || leAt bs 0x1C 4 != 0 || x / 2 ^ 14 % 4 != 0 || leAt bs 0x2D 3 != 0 || leAt bs 0x34 8 != 0 ||
      leAt bs 0x3C 4 != 0 }

/-- Stage of a gather unit: 0 awaits its semaphore, 1 its descriptor's object, 2 may run (R245). -/
def eguStageOf (s : State) (n : Nat) : Nat := Tbl.get (fun _ => 0) s.eguStage n

/-- Set it. -/
def setEguStage (s : State) (n k : Nat) : State := { s with eguStage := Tbl.set (fun _ => 0) s.eguStage n k }

/-- SSP address of the descriptor at a unit's ring head. -/
def eguDescAddr (s : State) (n : Nat) : Nat := sspBase + s.regN (Reg.EGU_RING_BASE n) + 64 * s.fld (Fd.EGU_RING_HEAD_INDEX n)

/-- The end of a batch: STATUS and OOR, the signal, the head (R147, R245). -/
def batchEnd (s : State) (n : Nat) (b : Batch) (status oor : Nat) : State :=
  let a := eguDescAddr s n
  let s1 := busWrite (busWrite s eguOrigin (a + 0x2C) [BitVec.ofNat 8 status]) eguOrigin (a + 0x30) (leBytes 4 oor)
  let s2 := match b.sig with
    | some o => unitSignal s1 (eguAgent n) o 1 false
    | none => s1
  if b.sig.any (fun o => !(jobObject s1 o)) then foreignObject s1 else
  let s3 := s2.setRegN (Reg.EGU_RING_HEAD n)
    ((s2.fld (Fd.EGU_RING_HEAD_INDEX n) + 1) % 2 ^ (s2.fld (Fd.EGU_RING_CFG_SIZE n) + 4))
  let s4 := setEguStage s3 n 0
  match s4.owner with
  | some j => pauseCheck s4 j.handle
  | none => s4

/-- What gathering has come to. -/
structure Gathered where
  st : State
  oor : Nat
  fault : Option Nat
  poisoned : Bool

/-- One output row: the table row of a signed index, or zeros (R245). -/
def gatherRow (b : Batch) (g : Gathered) (x : Nat × Nat) : Gathered :=
  if g.fault.isSome || g.poisoned then g
  else
    let inside := decide (x.1 < b.rows) && decide (x.1 < 2 ^ 31)
    let r : Access := if inside then virtRead g.st eguOrigin (b.table + x.1 * b.rsize) b.rsize else ⟨zeros b.rsize, false, none, g.st⟩
    if r.fault.isSome || r.poisoned then { g with st := r.state, fault := r.fault, poisoned := r.poisoned }
    else
      let w := virtWrite r.state eguOrigin (b.out + x.2 * ((b.rsize + 63) / 64 * 64)) r.bytes
      { g with st := w.state, fault := w.fault, oor := if inside then g.oor else g.oor + 1 }

/-- Run a batch. -/
def batchRun (s : State) (n : Nat) (b : Batch) : State :=
  if b.bad then batchEnd (s.bump (Reg.EGU_BATCH_BAD n)) n b St.badParam 0
  else
    let a := virtRead s eguOrigin b.idx (4 * b.nidx)
    if a.fault.isSome then computeReset a.state 4
    else if a.poisoned then computeReset a.state 6
    else
      let idx := (List.range b.nidx).map (fun i => (leAt a.bytes (4 * i) 4, i))
      let g := idx.foldl (gatherRow b) ⟨a.state, 0, none, false⟩
      if g.fault.isSome then computeReset g.st 4
      else if g.poisoned then computeReset g.st 6
      else batchEnd ((g.st.bumpBy (Reg.EGU_GATHERS n) b.nidx).bumpBy (Reg.EGU_OOR n) g.oor) n b St.ok g.oor

/-- Await an object. -/
def eguAwait (s : State) (n o : Nat) : State :=
  if !(jobObject s o) then foreignObject s else waitObj (s.setFld (Fd.EGU_STATUS_WAIT_SYNC n) 1) (eguAgent n) o

/-- A gather unit goes on as far as its semaphore and its descriptor's object let it; a batch runs whole. With a pause
pending it takes no new descriptor (R268). -/
def gatherStep (s : State) (n : Nat) : State :=
  let pausing := match s.owner with | some j => j.pausing | none => false
  if !(computeRunning s) || !(s.flag (Fd.EGU_STATUS_RUN n)) || waits s (eguAgent n) || (pausing && eguStageOf s n == 0) then s
  else
    let s1 := if eguStageOf s n = 0 then eguAwait s n (s.regN (Reg.EGU_RING_CFG n) % 16384) else s
    if eguStageOf s1 n = 0 then s1
    else
      let r := busRead s1 eguOrigin (eguDescAddr s1 n) 64
      let b := batchOf r.bytes
      if r.poisoned then computeReset r.state 6
      else
        let s2 := if eguStageOf r.state n = 1 then
            match b.wait with
            | some o => eguAwait r.state n o
            | none => setEguStage r.state n 2
          else r.state
        if eguStageOf s2 n = 2 then batchRun s2 n b else s2

/-- GATHER_BATCH (R245). -/
def execGatherBatch (n : Fin 4) (s : State) : Host.Outcome State Fault Refusal := up s (fun s => gatherStep s n.val)

/-! ### Scrub (R226, R230, R231) -/

/-- Origin of the scrub (Table 12.4). -/
@[reducible] def scrubOrigin : Nat := 23

/-- The lines of a memory, 64 bytes or 16 OAB entries each (Tables 9.2, R227). -/
def scrubLines : ScrubUnit → Nat
  | .channel _ => 15 * 2 ^ 22
  | .lsp _ | .dsc _ => 1024
  | .ssp _ => 16384
  | .ve _ | .control _ => 4096
  | .oab _ => 2048

/-- The key of a memory, or of its bank `b`, in `scrubPos`. -/
def scrubKey (u : ScrubUnit) (b : Fin 16) : Nat :=
  match u with
  | .channel c => c.val
  | .lsp n => 100 + 16 * n.val + b.val
  | .ssp k => 2000 + k.val
  | .ve n => 2100 + n.val
  | .dsc n => 2200 + 16 * n.val + b.val
  | .oab n => 2600 + n.val
  | .control k => 2700 + k.val

/-- Device physical address of line k of a memory: a channel's block 0, lines 0 to 14, then block 1 (R227). -/
def scrubAddr (u : ScrubUnit) (b : Fin 16) (k : Nat) : Nat :=
  match u with
  | .channel c => (k / 15 * 32 + c.val) * 960 + k % 15 * 64
  | .lsp n => lspBase n.val + 0x10000 * b.val + 64 * k
  | .ssp j => sspBase + 0x100000 * j.val + 64 * k
  | .ve n => veBase n.val + 64 * k
  | .dsc n => dscBase n.val + 0x10000 * b.val + 64 * k
  | .oab _ | .control _ => 64 * k

/-- Scrub finds a line or word uncorrectable, or holding the poison code: it is poisoned from now on (Table 9.6, R230). -/
def scrubPoison (s : State) (u : Nat) : State :=
  let t := notePoison s scrubOrigin u (poisonSpan u)
  let t1 : State := { t with upsets := t.upsets.filter (fun p => !(checkMeets u (poisonSpan u) p.1)) }
  if s.poison.contains u then t1
  else
    let t2 : State := { t1 with poison := u :: t1.poison }
    if u < 0x1E00000000 then t2.bump (Reg.MEMC_POISONED (channelOf u)) else t2

/-- Scrub reads 64 bytes: words with one bad bit are corrected in place, the others treated as a read treats them (R226, R231). -/
def scrubMem (s : State) (a : Nat) : State :=
  let n := 64 / poisonSpan a
  let t := correctWords s a 64
  ((List.range n).map (fun k => a + poisonSpan a * k)).foldl (fun t u => if poisoned t u (poisonSpan a) then scrubPoison t u else t) t

/-- Scrub reads a group of 16 OAB entries, eight words. -/
def scrubOab (s : State) (n k : Nat) : State :=
  (List.range 8).foldl (fun (t : State) i =>
    let e := 16 * k + 2 * i
    if oabBad t n e 2 then
      let t1 := (t.bump (Reg.MA_OAB_UE n)).log 0x04 scrubOrigin (0x400000 + 0x4000 * n) e scrubOrigin
      { t1 with
        oabPoison := [32768 * n + e, 32768 * n + e + 1] ++ t1.oabPoison.filter (fun p => p / 2 != (32768 * n + e) / 2)
        upsets := t1.upsets.filter (fun u => u.1 != oabWordKey n (e / 2)) }
    else t) (oabCorrect s n (16 * k) 16)

/-- Scrub reads 64 bytes of a bank of the control memories, which have no counters (Table 9.19); a poisoned word is recorded. -/
def scrubControl (s : State) (bank k : Nat) : State :=
  (List.range 8).foldl (fun (t : State) i =>
    let w := 32768 * bank + 8 * k + i
    let bad := t.ctlPoison.contains w || t.upsets.contains (ctlWordKey w, true)
    let t1 : State := { t with
      upsets := t.upsets.filter (fun u => u.1 != ctlWordKey w)
      ctlPoison := if bad then w :: t.ctlPoison.filter (fun x => x != w) else t.ctlPoison }
    if bad then t1.log 0x04 scrubOrigin 0 (8 * w) scrubOrigin else t1) s

/-- A pass over a channel ends with its last line (R231). -/
def scrubPassed (s : State) (u : ScrubUnit) : State :=
  match u with
  | .channel c => s.bump (Reg.MEMC_SCRUB_PASSES c.val)
  | _ => s

/-- Is a memory powered (R225)? -/
def scrubOn (s : State) (u : ScrubUnit) (b : Fin 16) : Bool :=
  match u with
  | .oab _ | .control _ => true
  | _ => bankOn s (scrubAddr u b 0)

/-- SCRUB (R231): the next background access of a memory, or of a bank of it, in ascending order; none in Retain (R451). DESIGN CHOICE, log entry 88. -/
def execScrub (unit : ScrubUnit) (bank : Fin 16) (s : State) : Host.Outcome State Fault Refusal :=
  up s (fun s =>
    if s.fld Fd.PMU_STATE_STATE = 2 || !(scrubOn s unit bank) then s
    else
      let k := Tbl.get (fun _ => 0) s.scrubPos (scrubKey unit bank)
      let last := decide (scrubLines unit ≤ k + 1)
      let s1 : State := { s with scrubPos := Tbl.set (fun _ => 0) s.scrubPos (scrubKey unit bank) (if last then 0 else k + 1) }
      let s2 := match unit with
        | .oab n => scrubOab s1 n.val k
        | .control b => scrubControl s1 b.val k
        | _ => scrubMem s1 (scrubAddr unit bank k)
      if last then scrubPassed s2 unit else s2)

/-! ### Ledgers (Table 10.11) -/

/-- The relations, in the order of Table 10.11. -/
def ledgerHolds (s : State) (row : Nat) : Bool :=
  match row with
  | 0 => (List.range 2).all (fun p =>
      s.fld (Fd.PORT_CMD_FREE p) + s.fld (Fd.PORT_CMD_IN_FLIGHT p) == 1024 &&
        s.fld (Fd.PORT_CMD_IN_FLIGHT p) == ((List.range 32).map (fun q => s.regN (Reg.Q_IN_FLIGHT p q))).sum)
  | 1 => (List.range 2).all (fun p => (List.range 32).all (fun q =>
      (s.regN (Reg.Q_FETCHED p q) + 2 ^ 32 - s.regN (Reg.Q_REPLIED p q)) % 2 ^ 32 == s.regN (Reg.Q_IN_FLIGHT p q)))
  | 2 => (List.range 8).all (fun c =>
      s.regN (Reg.SLOT_CONSUMED c) ==
        (s.regN (Reg.SLOT_REPLIED c) + s.fld (Fd.SLOT_ACTIVE_COUNT c) + s.fld (Fd.SLOT_STATE_HELD c)) % 2 ^ 32)
  | 3 => s.regN Reg.SYN_INIT_TOTAL + s.regN Reg.SYN_SIG_TOTAL ==
      s.regN Reg.SYN_TAKE_TOTAL + s.regN Reg.SYN_RETIRED_TOTAL + s.regN Reg.SYN_COUNT_SUM
  | 4 => (List.range 32).all (fun n => s.fld (Fd.SDE_TAGS_FREE n) + s.fld (Fd.SDE_TAGS_IN_FLIGHT n) == 256)
  | 5 => s.regN Reg.AE0_KV_FREE + s.regN Reg.AE0_KV_MAPPED + s.regN Reg.AE0_KV_RETIRING == s.regN Reg.AE0_KV_POOL_TOTAL
  | _ => (List.range 4).all (fun n =>
      s.fld (Fd.ILP_TAGS_FREE n) + s.fld (Fd.ILP_TAGS_OUT n) == 4096 &&
      (List.range 4).all (fun v => s.regN (Reg.ILP_CR_POOL n v) ==
        s.regN (Reg.ILP_CR_FREE n v) + s.regN (Reg.ILP_CR_GRANTED n v) + s.regN (Reg.ILP_CR_BUSY n v)))

/-- What the record of a lost ledger holds of the values read: those of its first two registers on the first instance whose relation fails,
else on instance 0. DESIGN CHOICE, log entry 21. -/
def ledgerValue (s : State) (row : Nat) : Nat :=
  let two (a b : Nat) : Nat := s.regN a % 2 ^ 32 + s.regN b % 2 ^ 32 * 2 ^ 32
  let first (n : Nat) (ok : Nat → Bool) : Nat := ((List.range n).find? (fun k => !(ok k))).getD 0
  match row with
  | 0 => two (Reg.PORT_CMD 0) (Reg.PORT_CMD 1)
  | 1 =>
    let k := first 64 (fun k => (s.regN (Reg.Q_FETCHED (k / 32) (k % 32)) + 2 ^ 32 - s.regN (Reg.Q_REPLIED (k / 32) (k % 32))) % 2 ^ 32 ==
      s.regN (Reg.Q_IN_FLIGHT (k / 32) (k % 32)))
    two (Reg.Q_FETCHED (k / 32) (k % 32)) (Reg.Q_REPLIED (k / 32) (k % 32))
  | 2 =>
    let c := first 8 (fun c => s.regN (Reg.SLOT_CONSUMED c) ==
      (s.regN (Reg.SLOT_REPLIED c) + s.fld (Fd.SLOT_ACTIVE_COUNT c) + s.fld (Fd.SLOT_STATE_HELD c)) % 2 ^ 32)
    two (Reg.SLOT_CONSUMED c) (Reg.SLOT_REPLIED c)
  | 3 => two Reg.SYN_INIT_TOTAL Reg.SYN_SIG_TOTAL
  | 4 => s.regN (Reg.SDE_TAGS (first 32 (fun n => s.fld (Fd.SDE_TAGS_FREE n) + s.fld (Fd.SDE_TAGS_IN_FLIGHT n) == 256)))
  | 5 => two Reg.AE0_KV_POOL_TOTAL Reg.AE0_KV_FREE
  | _ => s.regN (Reg.ILP_TAGS (first 4 (fun n => s.fld (Fd.ILP_TAGS_FREE n) + s.fld (Fd.ILP_TAGS_OUT n) == 4096)))

/-- A ledger is lost: recorded, and a compute reset with LEDGER_LOST (R278). DESIGN CHOICE, log entry 88. -/
def ledgerLost (s : State) (row : Nat) : State := computeReset (s.log 0x0D 0 0x20000 row (ledgerValue s row)) 7

/-- LEDGER_CHECK (R278): the device evaluates every relation; `storage` names a ledger whose storage had an uncorrectable
error. DESIGN CHOICE, log entry 88. -/
def execLedgerCheck (storage : Option (Fin 7)) (s : State) : Host.Outcome State Fault Refusal :=
  up s (fun s =>
    match (match storage with
      | some r => some r.val
      | none => (List.range 7).find? (fun r => !(ledgerHolds s r))) with
    | some r => ledgerLost s r
    | none => s)

end Sys2Proof.Machine
end

