-- ==== Sys2Proof/Machine/HostCmd.lean ====
section
/-! DEFINITION. The fetch of command packets from the submission rings (R255, R256), and what each opcode starts. -/

namespace Sys2Proof.Machine

/-! ### Packets (Table 10.1) -/

/-- A packet of queue q of port p at ring index i, from its 64 bytes. -/
def pktOf (p : Fin 2) (q : Fin 32) (i : Nat) (bs : List Byte) : Pkt :=
  let w (k : Nat) : Word := BitVec.ofNat 64 (leAt bs (8 + 8 * k) 8)
  { port := p, queue := q, index := Fin.ofNat 4096 i, fence := bitOf (leAt bs 1 1) 0, irq := bitOf (leAt bs 1 1) 1
    rsv := BitVec.ofNat 30 (leAt bs 1 1 / 4 + 64 * leAt bs 5 3), tag := BitVec.ofNat 16 (leAt bs 2 2)
    job := BitVec.ofNat 8 (leAt bs 4 1), p0 := w 0, p1 := w 1, p2 := w 2, p3 := w 3, p4 := w 4, p5 := w 5, p6 := w 6 }

/-! ### What an opcode starts -/

/-- The bodies of the opcodes below 0x40 that the packet and the device alone decide. -/
def bodyLow (op : Nat) : Option (Cmd → State → State) :=
  match op with
  | 0x01 => some nopBody
  | 0x02 => some queryCapsBody
  | 0x11 => some jobStartBody
  | 0x12 => some jobPauseBody
  | 0x13 => some jobResumeBody
  | 0x14 => some jobKillBody
  | 0x15 => some jobSaveBody
  | 0x16 => some jobRestoreBody
  | 0x20 => some streamArmBody
  | 0x21 => some streamCancelBody
  | 0x28 => some mapPagesBody
  | 0x29 => some unmapPagesBody
  | 0x2A => some seqPageEditBody
  | 0x30 => some seasonStageBody
  | 0x31 => some seasonCommitBody
  | 0x33 => some digestReportBody
  | 0x38 => some windowOpenBody
  | 0x39 => some windowCloseBody
  | 0x3A => some fabricJoinBody
  | 0x3B => some fabricLeaveBody
  | _ => none

/-- And of those from 0x40 on. -/
def bodyHigh (op : Nat) : Option (Cmd → State → State) :=
  match op with
  | 0x40 => some syncInitBody
  | 0x41 => some syncSignalBody
  | 0x42 => some syncWaitBody
  | 0x43 => some syncQueryBody
  | 0x50 => some katRunBody
  | 0x51 => some fenceUnitBody
  | 0x52 => some unfenceUnitBody
  | 0x53 => some logReadBody
  | 0x58 => some safetyConfigBody
  | 0x59 => some fallbackForceBody
  | 0x60 => some timeSetBody
  | 0x61 => some timeAdjustBody
  | 0x71 => some attestBody
  | 0x7F => some powerBody
  | _ => none

/-- The body of an opcode. -/
def bodyOf (op : Nat) : Option (Cmd → State → State) := if op < 0x40 then bodyLow op else bodyHigh op

/-- A fetched command begins: an opcode outside the table is refused (R259). One whose effect needs what the packet does not carry (a job image,
a gradient, the outcome of a firmware check) begins with its own row; only a refusal at its header comes now. DESIGN CHOICE, log entry 17. -/
def startCmd (s : State) (c : Cmd) : State :=
  if !(knownOpcodes.contains c.opcode) then
    (if dupTag s c then refuse s c St.badParam 8
     else if queueTurn s c && fenceOpen s c then refuse s c (if s.fld Fd.BOOT_STATE_STATE ≤ 3 then St.busy else St.badOpcode) 0 else s)
  else match bodyOf c.opcode with
    | some b => beginCmd s c b
    | none =>
      if dupTag s c || waitFull s c || (queueTurn s c && fenceOpen s c && orderOpen s c && (headerRefusal s c).isSome) then beginCmd s c (fun _ t => t)
      else s

/-- The spaces in which a command's own accesses lie (Table 10.3). -/
def cmdSpaces (c : Cmd) : List Nat :=
  match c.opcode with
  | 0x53 => [addrSpace c.pkt.p2]
  | 0x58 => [addrSpace c.pkt.p0]
  | 0x71 => [addrSpace c.pkt.p0, addrSpace c.pkt.p1]
  | _ => []

/-- Does a command whose turn has come wait for the device: JOB_START for the year on every array (R450), JOB_RESTORE for the SRAM clear
(R443), any for a port that issues no requests (R405)? -/
def bodyWaits (s : State) (c : Cmd) : Bool :=
  (c.opcode == 0x11 && !s.yearWait.isEmpty) || (c.opcode == 0x16 && s.flag Fd.BOOT_ZERO_SRAM_BUSY) || (cmdSpaces c).any (spaceQuiet s)

/-- Can a fetched command begin now? DESIGN CHOICE, log entry 17. -/
def canStart (s : State) (c : Cmd) : Bool :=
  c.phase == .fetched &&
    (dupTag s c || waitFull s c || (queueTurn s c && fenceOpen s c && orderOpen s c &&
      (!(knownOpcodes.contains c.opcode) || ((bodyOf c.opcode).isSome && !(bodyWaits s c)) || (headerRefusal s c).isSome)) &&
      !(c.opcode == 0x7F && s.flag Fd.PMU_STATE_BUSY && decide (1 < s.cmds.length)))

/-! ### Fetching (R255) -/

/-- Does queue q of port p have a packet to fetch: enabled, not empty, and no PORT_RESET reply waiting in it (R272)? -/
def queueReady (s : State) (p q : Nat) : Bool :=
  s.flag (Fd.Q_CFG_ENABLE p q) && s.fld (Fd.Q_SQ_HEAD_INDEX p q) != s.fld (Fd.Q_SQ_TAIL_INDEX p q) &&
    !(s.held.any (fun r => r.port == p && r.queue == q && r.status == St.portReset))

/-- The queue the next fetch of port p turns to. DESIGN CHOICE, log entry 16. -/
def fetchNext (s : State) (p : Nat) : Nat := Tbl.get (fun _ => 0) s.fetchQueue p

/-- The queue of port p that is served next, round-robin; none: nothing to fetch, or the port has 1,024 commands in flight.
DESIGN CHOICE, log entry 16. -/
def nextQueue (s : State) (p : Nat) : Option (Fin 32) :=
  if s.fld (Fd.PORT_CMD_FREE p) = 0 || !(fetching s p) then none
  else ((List.range 32).map (fun k => Fin.ofNat 32 (fetchNext s p + k))).find? (fun q => queueReady s p q.val)

/-- Fetch the packet at SQ_HEAD of queue q of port p and start it. -/
def fetchFrom (s : State) (p : Fin 2) (q : Fin 32) : State :=
  let i := s.fld (Fd.Q_SQ_HEAD_INDEX p.val q.val)
  let bs := s.hostBytes p.val (s.fld (Fd.Q_SQ_BASE_ADDR p.val q.val) * 64 + 64 * i) 64
  let op := leAt bs 0 1
  let k := pktOf p q i bs
  let s1 := s.setFld (Fd.Q_SQ_HEAD_INDEX p.val q.val) ((i + 1) % ringSize s p.val q.val)
  let s2 : State := { s1 with fetchPort := 1 - p.val, fetchQueue := Tbl.set (fun _ => 0) s1.fetchQueue p.val ((q.val + 1) % 32) }
  startCmd (intake s2 op k) ⟨op, k, .fetched, false, 0⟩

/-- One act of the fetch engine: the oldest command that waited and can begin begins; else the next packet is fetched, the ports in turn. -/
def fetchStep (s : State) : State :=
  match s.cmds.find? (fun c => canStart s c) with
  | some c => startCmd s c
  | none =>
    let a : Fin 2 := Fin.ofNat 2 s.fetchPort
    let b : Fin 2 := Fin.ofNat 2 (1 - s.fetchPort)
    match nextQueue s a.val, nextQueue s b.val with
    | some q, _ => fetchFrom s a q
    | none, some q => fetchFrom s b q
    | none, none => s

/-- COMMAND_FETCH (R255, R256). -/
def execCommandFetch (s : State) : Host.Outcome State Fault Refusal := up s fetchStep

end Sys2Proof.Machine
end

