-- ==== Sys2Proof/Machine/Pins.lean ====
section
/-! DEFINITION. The SMBus interface (R478, R479) and the TAP (R482, R483). -/

namespace Sys2Proof.Machine

/-! ### SMBus (Table 20.4) -/

/-- The status word, code 0x20. -/
def smbStatus (s : State) : Nat :=
  s.fld Fd.PMU_STATE_STATE + s.fld Fd.BOOT_STATE_STATE * 16 + s.fld Fd.SAF_STATUS_FB_DOWN * 2 ^ 8 +
    s.fld Fd.SAF_STATUS_FAULT_PIN * 2 ^ 9 + b2n s.thermLow * 2 ^ 10 + b2n s.alertLow * 2 ^ 11

/-- The value of a command code; none: NACK. DEDUCED, log entry 103. -/
def smbValue (s : State) (code : Nat) : Option Nat :=
  match code with
  | 0x01 => some 0x9624
  | 0x02 => some 0x00B0
  | 0x10 => some (s.fld Fd.SUP_TEMP_DEGC)
  | 0x11 => some (s.fld Fd.SUP_VCORE_MV)
  | 0x12 => some (s.fld Fd.SUP_VSRAM_MV)
  | 0x13 => some (s.fld Fd.PMU_AVS_TARGET_MV)
  | 0x20 => some (smbStatus s)
  | 0x30 => some (s.regN Reg.BOOT_SERIAL % 2 ^ 16)
  | 0x31 => some (s.regN Reg.BOOT_SERIAL / 2 ^ 16 % 2 ^ 16)
  | 0x32 => some (s.regN Reg.BOOT_SERIAL / 2 ^ 32 % 2 ^ 16)
  | 0x33 => some (s.regN Reg.BOOT_SERIAL / 2 ^ 48 % 2 ^ 16)
  | _ => none

/-- What an SMBus access returns: a value, or NACK for a write or another code; the address itself to the alert response address while
SMB_ALERT_N is low. DEDUCED, log entry 103. -/
def smbAnswer (s : State) : SmbOp → Resp
  | .readWord c => match smbValue s c.toNat with | some v => .value (BitVec.ofNat 64 v) | none => .nack
  | .blockRead c => match smbValue s c.toNat with | some v => .value (BitVec.ofNat 64 v) | none => .nack
  | .write _ => .nack
  | .alertResponse => if s.alertLow then .value (BitVec.ofNat 64 (0x60 + s.smbAddr)) else .nack

/-- SMBUS_READ (R479): answered while the device runs and during every reset; without supplies nothing answers. -/
def execSmbusRead (op : SmbOp) (s : State) : Host.Outcome State Fault Refusal :=
  match s.phase with
  | .running | .held => .next { s with resp := smbAnswer s op }
  | .off => .next s
  | .clockLost => .fault .clockLost

/-! ### The TAP (Table 20.7) -/

/-- What drives the pins. -/
inductive PinDriver where
  | device | boundaryCells | highZ | pulse | train
  deriving DecidableEq, Repr

/-- Is SYS_RST_N held low: a cold reset that it caused? DEDUCED, log entry 102. -/
def sysRstLow (s : State) : Bool := s.phase == .held && s.regN Reg.PMU_RESET_CAUSE == 1

/-- What drives the pins: EXTEST, CLAMP, HIGHZ, EXTEST_PULSE and EXTEST_TRAIN only while SYS_RST_N is low, the device otherwise (R483). -/
def pinDriver (s : State) : PinDriver :=
  if !(sysRstLow s) then .device
  else match s.tapIr.toNat with
    | 0x00 => .boundaryCells
    | 0x03 => .boundaryCells
    | 0x04 => .highZ
    | 0x05 => .pulse
    | 0x06 => .train
    | _ => .device

/-- Is a code one of Table 20.7 other than BYPASS? -/
def tapListed (code : BitVec 8) : Bool := decide (code.toNat < 7)

/-- The TAP works with its own clock, while the device has supplies. DEDUCED, log entry 102. -/
def tapUp (s : State) (f : State → State) : Host.Outcome State Fault Refusal :=
  match s.phase with
  | .off => .next s
  | .running | .held | .clockLost => .next (f s)

/-- Select an instruction. -/
def tapSelect (s : State) (code : BitVec 8) : State := { s with tapIr := code }

/-- The bypass register: one bit that captures 0. -/
def tapBypass (s : State) (code : BitVec 8) : State := { tapSelect s code with resp := .value 0 }

/-- A pin instruction: it acts as BYPASS unless SYS_RST_N is held low (R483). DEDUCED, log entry 102. -/
def tapPins (s : State) (code : BitVec 8) : State := if sysRstLow s then tapSelect s code else tapBypass s code

/-- EXTEST (R483). -/
def execExtest (s : State) : Host.Outcome State Fault Refusal := tapUp s (fun s => tapPins s 0x00)
/-- SAMPLE/PRELOAD (R482, R483): what the cells sampled is shifted out, the preload in. -/
def execSamplePreload (sampled preload : List Bool) (s : State) : Host.Outcome State Fault Refusal :=
  tapUp s (fun s => { tapSelect s 0x01 with resp := .cells sampled, boundary := preload })
/-- IDCODE (R482). -/
def execIdcode (s : State) : Host.Outcome State Fault Refusal :=
  tapUp s (fun s => { tapSelect s 0x02 with resp := .value 0x19624B6F })
/-- CLAMP (R483): the cells drive the pins, and the bypass register is selected. -/
def execClamp (s : State) : Host.Outcome State Fault Refusal := tapUp s (fun s => tapBypass s 0x03)
/-- HIGHZ (R483). -/
def execHighz (s : State) : Host.Outcome State Fault Refusal := tapUp s (fun s => tapBypass s 0x04)
/-- EXTEST_PULSE (R483). -/
def execExtestPulse (s : State) : Host.Outcome State Fault Refusal := tapUp s (fun s => tapPins s 0x05)
/-- EXTEST_TRAIN (R483). -/
def execExtestTrain (s : State) : Host.Outcome State Fault Refusal := tapUp s (fun s => tapPins s 0x06)
/-- BYPASS (R482), with its code 0xFF or one that is not listed; a listed code is another command's. -/
def execBypass (code : BitVec 8) (s : State) : Host.Outcome State Fault Refusal :=
  tapUp s (fun s => if tapListed code then s else tapBypass s code)
/-- TAP_RESET (R482): Test-Logic-Reset, IDCODE selected. -/
def execTapReset (s : State) : Host.Outcome State Fault Refusal := tapUp s (fun s => tapSelect s 0x02)

end Sys2Proof.Machine
end

