-- ==== Sys2Proof/Machine/Pucch.lean ====
section
/-! DEFINITION. Control information: PUCCH detection (R172), polar and Reed–Muller decoding (R172, R185). -/

namespace Sys2Proof.Machine

/-! ### Polar codes (R185) -/

/-- Code length of UCI of k bits with their CRC in e coded bits (TS 38.212 clause 5.3.1). PRESUMED, log entry 41. -/
def polarLength (k e : Nat) : Nat := 2 ^ polarLog 10 k e

/-- Polar decoding of UCI of `a` bits: its segments, each with its CRC, two when A ≥ 360 and E ≥ 1,088; what each gave, and whether its CRC
holds. -/
def polarUci (list a : Nat) (ls : List Int) : List (List Bool × Bool) :=
  let seg := if 360 ≤ a ∧ 1088 ≤ ls.length then 2 else 1
  let per := (a + seg - 1) / seg
  let e := ls.length / seg
  let k := per + (if a < 20 then 6 else 11)
  (List.range seg).map (fun j =>
    let b := Config.polarDecode list k (polarLength k e) ((ls.drop (j * e)).take e)
    (b.take per, crcUci a (b.take k) == 0))

/-- The bits of UCI from its segments: a first filler bit is dropped. -/
def uciBits (a : Nat) (segs : List (List Bool × Bool)) : List Bool :=
  let bs := segs.flatMap (fun p => p.1)
  (bs.drop (bs.length - a)).take a

/-- May an allocation carry control information of 3 bits or more: PUCCH formats 2 to 4, PUSCH (Table 7.2)? -/
def carriesUci (a : Alloc) : Bool := (a.type == 2 && decide (2 ≤ a.format)) || a.type == 1

/-- Keep the control information of an allocation. -/
def setUci (s : State) (c : Nat) (x : SlotCtx) (i : Nat) (u : Option (List Bool)) : State :=
  s.setSlotCtx c { x with uci := x.uci.filter (fun p => p.1 != i) ++ [(i, u)] }

/-- A polar decoder decodes a payload of 12 bits or more. -/
def polarStep (s : State) (n c id i a : Nat) (llrs : List (BitVec 8)) : State :=
  match s.slotCtx c id with
  | none => s
  | some x => match x.allocs[i]? with
    | none => s
    | some al =>
      if !(computeRunning s) || !(carriesUci al) || a < 12 then s
      else
        let ls := llrs.map (fun q => q.toInt)
        let segs := polarUci 8 a (ls.map llrUsed)
        let s1 := (s.bumpBy (Reg.DEC_POL_CB_DONE n) segs.length).bumpBy (Reg.DEC_POL_LLR_M128 n) (countM128 ls)
        let s2 := s1.bumpBy (Reg.DEC_POL_CRC_FAIL n) ((segs.filter (fun b => !b.2)).length)
        if segs.all (fun b => b.2) then setUci s2 c x i (some (uciBits a segs)) else s2

/-- POLAR_DECODE (R185): decoder, carrier, number of the slot's tick on it, allocation, payload bits, LLRs. -/
def execPolarDecode (n : Fin 4) (carrier : Fin 8) (tick : BitVec 32) (alloc : Fin 255) (bits : Nat) (llrs : List (BitVec 8))
    (s : State) : Host.Outcome State Fault Refusal :=
  up s (fun s => polarStep s n.val carrier.val tick.toNat alloc.val bits llrs)

/-! ### PUCCH (R172) -/

/-- The received samples times the conjugate of a sequence, summed (R172), for one antenna. -/
def despread (x : SlotCtx) (comp : Option (Nat → Comp)) (ant : Nat) (rows : List SeqRow) : Int × Int :=
  rows.foldl (fun (acc : Int × Int) r =>
    let ys := finSamples x comp ant r.sym.val
    (r.vals.zipIdx).foldl (fun (a : Int × Int) v =>
      match ys.find? (fun y => y.1 == r.sc + v.2) with
      | none => a
      | some y =>
        let k := cplxOf v.1
        (a.1 + y.2.1 * k.1 + y.2.2 * k.2, a.2 + y.2.2 * k.1 - y.2.1 * k.2)) acc) (0, 0)

/-- Energy of a hypothesis over the antennas, in units of a squared sample unit times a squared sequence unit. DESIGN CHOICE, log entry 84. -/
def shiftEnergy (x : SlotCtx) (comp : Option (Nat → Comp)) (ants : List Nat) (rows : List SeqRow) : Frac :=
  ⟨((ants.map (fun a => magSq (despread x comp a rows))).sum : Nat), 2 ^ 46⟩

/-- Index and value of the largest energy, the first of equals. DESIGN CHOICE, log entry 84. -/
def bestEnergy (l : List Frac) : Nat × Frac :=
  l.zipIdx.foldl (fun (b : Nat × Frac) p => if Frac.lt b.2 p.1 then (p.2, p.1) else b) (0, l.getD 0 ⟨0, 1⟩)

/-- Bits of a hypothesis number, three of them: two and SR (Table 7.3). DESIGN CHOICE, log entry 84. -/
def hypothesisBits (i : Nat) : List Bool := [bitOf i 0, bitOf i 1, bitOf i 2]

/-- Format 1: data de-spread and combined coherently over the channel estimates of the DMRS, and the power of the combined symbol per power of
the estimates (R172). DESIGN CHOICE, log entry 84. -/
def combinePsk (x : SlotCtx) (comp : Option (Nat → Comp)) (ants : List Nat) (data dmrs : List SeqRow) : (Int × Int) × Frac :=
  let ps := ants.map (fun a => (despread x comp a data, despread x comp a dmrs))
  let z := ps.foldl (fun (acc : Int × Int) p =>
    (acc.1 + p.1.1 * p.2.1 + p.1.2 * p.2.2, acc.2 + p.1.2 * p.2.1 - p.1.1 * p.2.2)) (0, 0)
  let h := (ps.map (fun p => magSq p.2)).sum
  (z, if h = 0 then ⟨0, 1⟩ else ⟨magSq z, h * 2 ^ 46⟩)

/-- Is a metric below the slot's threshold? DESIGN CHOICE, log entry 84. -/
def belowDtx (x : SlotCtx) (m : Frac) : Bool :=
  match finVal fp32 x.dtx with
  | some t => Frac.lt m t
  | none => false

/-- A format 0 or 1 occasion: decided, or DTX below the threshold. -/
def pucchDecide (s : State) (n c : Nat) (x : SlotCtx) (i : Nat) (metric : Frac) (bits : List Bool) : State :=
  if belowDtx x metric then (setUci s c x i none).bump (Reg.DSC_PUCCH_DTX n) else setUci s c x i (some bits)

/-- Payloads of 3 to 11 bits by Reed–Muller, in the fallback longer ones by polar decoding with list size 4 (R172, R185). -/
def softUci (n k : Nat) (llrs : List Int) : Option (List Bool) :=
  if k < 3 then none
  else if k ≤ 11 then some ((Config.reedMuller k llrs).take k)
  else if n < 12 then none
  else
    let segs := polarUci 4 k llrs
    if segs.all (fun b => b.2) then some (uciBits k segs) else none

/-- Keep what the soft bits of an occasion decode to. -/
def softDecide (s : State) (n c : Nat) (x : SlotCtx) (i k : Nat) (llrs : List Int) : State :=
  match softUci n k llrs with
  | some u => setUci s c x i (some u)
  | none => s

/-- Format 4: each symbol despread by the conjugate of the UE's sequence and cover, combined over the channel estimates, and handed to
decoding (R172). DESIGN CHOICE, log entry 84. -/
def spreadSoft (x : SlotCtx) (comp : Option (Nat → Comp)) (ants : List Nat) (data : List (List SeqRow)) (dmrs : List SeqRow) : List Int :=
  Config.spreadBits (data.map (fun rows => (combinePsk x comp ants rows dmrs).1))

/-- A PUCCH occasion, or UCI on PUSCH, on cluster n: DSC0 to DSC11 while the job runs, the fallback where it runs for the slot (R28). -/
def pucchDetect (s : State) (n c id i : Nat) (o : PucchOp) : State :=
  match s.slotCtx c id with
  | none => s
  | some x => match x.allocs[i]? with
    | none => s
    | some a =>
      if (if n < 12 then !(computeRunning s) else !(fallbackRuns s x)) then s
      else
        let ants := pucchAntennas x n
        match o with
        | .shifts hyps =>
          if a.type = 2 ∧ a.format = 0 then
            let b := bestEnergy (hyps.map (shiftEnergy x (slotComp s n c x) ants))
            pucchDecide s n c x i b.2 (hypothesisBits b.1)
          else s
        | .psk data dmrs two =>
          if a.type = 2 ∧ a.format = 1 then
            let r := combinePsk x (slotComp s n c x) ants data dmrs
            pucchDecide s n c x i r.2 (if two then [decide (r.1.1 < 0), decide (r.1.2 < 0)] else [decide (r.1.1 + r.1.2 < 0)])
          else s
        | .soft k => if carriesUci a && !(a.type == 2 && a.format == 4) then softDecide s n c x i k (Config.softBits (rxInput s n c x a) k) else s
        | .spread k data dmrs =>
          if a.type = 2 ∧ a.format = 4 then softDecide s n c x i k (spreadSoft x (slotComp s n c x) ants data dmrs) else s

/-- PUCCH_DETECT (R172): cluster, carrier, number of the slot's tick on it, allocation. -/
def execPucchDetect (n : Fin 16) (carrier : Fin 8) (tick : BitVec 32) (alloc : Fin 255) (o : PucchOp) (s : State) :
    Host.Outcome State Fault Refusal :=
  up s (fun s => pucchDetect s n.val carrier.val tick.toNat alloc.val o)

end Sys2Proof.Machine
end

