-- ==== Sys2Proof/Machine/Dispatch.lean ====
section
/-! DEFINITION. The dispatch: every command's meaning, by one direct call, on everything but the queue. -/

namespace Sys2Proof.Machine

/-- The effect of one command (spec/opcode_table.json) on the state; the queue of waiting commands is `step`'s. -/
def exec (i : Instr) (s : State) : Host.Outcome State Fault Refusal :=
  match i with
  | .commandFetch => Sys2Proof.Machine.execCommandFetch s
  | .sqTailDoorbell port queue origin value => Sys2Proof.Machine.execSqTailDoorbell port queue origin value s
  | .queueCfgWrite port queue origin value => Sys2Proof.Machine.execQueueCfgWrite port queue origin value s
  | .rqHeadWrite port queue origin value => Sys2Proof.Machine.execRqHeadWrite port queue origin value s
  | .nop p => Sys2Proof.Machine.execNop p s
  | .queryCaps p => Sys2Proof.Machine.execQueryCaps p s
  | .jobLoad p img => Sys2Proof.Machine.execJobLoad p img s
  | .jobStart p => Sys2Proof.Machine.execJobStart p s
  | .referenceBeat => Sys2Proof.Machine.execReferenceBeat s
  | .jobPause p => Sys2Proof.Machine.execJobPause p s
  | .pauseDeadline => Sys2Proof.Machine.execPauseDeadline s
  | .jobResume p => Sys2Proof.Machine.execJobResume p s
  | .jobKill p => Sys2Proof.Machine.execJobKill p s
  | .jobSave p => Sys2Proof.Machine.execJobSave p s
  | .jobRestore p => Sys2Proof.Machine.execJobRestore p s
  | .streamArm p => Sys2Proof.Machine.execStreamArm p s
  | .streamCancel p => Sys2Proof.Machine.execStreamCancel p s
  | .mapPages p => Sys2Proof.Machine.execMapPages p s
  | .unmapPages p => Sys2Proof.Machine.execUnmapPages p s
  | .seqPageEditReset p => Sys2Proof.Machine.execSeqPageEditReset p s
  | .seqPageEditConfig p => Sys2Proof.Machine.execSeqPageEditConfig p s
  | .seqPageEditTrim p => Sys2Proof.Machine.execSeqPageEditTrim p s
  | .seqPageEditMove p => Sys2Proof.Machine.execSeqPageEditMove p s
  | .poolAdd p => Sys2Proof.Machine.execPoolAdd p s
  | .poolRemove p => Sys2Proof.Machine.execPoolRemove p s
  | .heldEditApply => Sys2Proof.Machine.execHeldEditApply s
  | .frameRetire => Sys2Proof.Machine.execFrameRetire s
  | .seasonStage p => Sys2Proof.Machine.execSeasonStage p s
  | .shadowCheck => Sys2Proof.Machine.execShadowCheck s
  | .seasonCommit p => Sys2Proof.Machine.execSeasonCommit p s
  | .commitWithdrawal => Sys2Proof.Machine.execCommitWithdrawal s
  | .candidateBuild => Sys2Proof.Machine.execCandidateBuild s
  | .adaptStep p g => Sys2Proof.Machine.execAdaptStep p g s
  | .groupSumTimeout => Sys2Proof.Machine.execGroupSumTimeout s
  | .digestReport p => Sys2Proof.Machine.execDigestReport p s
  | .digestVerdict ds => Sys2Proof.Machine.execDigestVerdict ds s
  | .digestVerdictReceive v => Sys2Proof.Machine.execDigestVerdictReceive v s
  | .windowOpen p => Sys2Proof.Machine.execWindowOpen p s
  | .windowClose p => Sys2Proof.Machine.execWindowClose p s
  | .fabricJoin p => Sys2Proof.Machine.execFabricJoin p s
  | .fabricLeave p => Sys2Proof.Machine.execFabricLeave p s
  | .syncInit p => Sys2Proof.Machine.execSyncInit p s
  | .syncSignal p => Sys2Proof.Machine.execSyncSignal p s
  | .syncWait p => Sys2Proof.Machine.execSyncWait p s
  | .syncWaitTimeout port queue tag => Sys2Proof.Machine.execSyncWaitTimeout port queue tag s
  | .syncQuery p => Sys2Proof.Machine.execSyncQuery p s
  | .syncDeadline a obj => Sys2Proof.Machine.execSyncDeadline a obj s
  | .katRun p => Sys2Proof.Machine.execKatRun p s
  | .fenceUnit p => Sys2Proof.Machine.execFenceUnit p s
  | .unfenceUnit p => Sys2Proof.Machine.execUnfenceUnit p s
  | .logRead p => Sys2Proof.Machine.execLogRead p s
  | .safetyConfig p => Sys2Proof.Machine.execSafetyConfig p s
  | .fallbackForce p => Sys2Proof.Machine.execFallbackForce p s
  | .timeSet p => Sys2Proof.Machine.execTimeSet p s
  | .timeAdjust p => Sys2Proof.Machine.execTimeAdjust p s
  | .fwLoad p f => Sys2Proof.Machine.execFwLoad p f s
  | .firmwareReady ok => Sys2Proof.Machine.execFirmwareReady ok s
  | .attest p => Sys2Proof.Machine.execAttest p s
  | .powerStateRun p => Sys2Proof.Machine.execPowerStateRun p s
  | .powerStateIdle p => Sys2Proof.Machine.execPowerStateIdle p s
  | .powerStateRetain p => Sys2Proof.Machine.execPowerStateRetain p s
  | .warmReset p => Sys2Proof.Machine.execWarmReset p s
  | .slotTailWrite carrier origin value => Sys2Proof.Machine.execSlotTailWrite carrier origin value s
  | .slotTick carrier => Sys2Proof.Machine.execSlotTick carrier s
  | .codeBlockRelease carrier tick cb => Sys2Proof.Machine.execCodeBlockRelease carrier tick cb s
  | .slotReply carrier => Sys2Proof.Machine.execSlotReply carrier s
  | .supervisorWindowClose carrier tick sup finish => Sys2Proof.Machine.execSupervisorWindowClose carrier tick sup finish s
  | .fallbackSelfTest passed unit => Sys2Proof.Machine.execFallbackSelfTest passed unit s
  | .seqNop n ins => Sys2Proof.Machine.execSeqNop n ins s
  | .seqHalt n ins => Sys2Proof.Machine.execSeqHalt n ins s
  | .seqLdi n ins => Sys2Proof.Machine.execSeqLdi n ins s
  | .seqLui n ins => Sys2Proof.Machine.execSeqLui n ins s
  | .seqAddi n ins => Sys2Proof.Machine.execSeqAddi n ins s
  | .seqAdd n ins => Sys2Proof.Machine.execSeqAdd n ins s
  | .seqSub n ins => Sys2Proof.Machine.execSeqSub n ins s
  | .seqJmp n ins => Sys2Proof.Machine.execSeqJmp n ins s
  | .seqLoop n ins => Sys2Proof.Machine.execSeqLoop n ins s
  | .seqBeqz n ins => Sys2Proof.Machine.execSeqBeqz n ins s
  | .seqMode n ins => Sys2Proof.Machine.execSeqMode n ins s
  | .seqScales n ins => Sys2Proof.Machine.execSeqScales n ins s
  | .seqWload n ins => Sys2Proof.Machine.execSeqWload n ins s
  | .seqPass n ins => Sys2Proof.Machine.execSeqPass n ins s
  | .seqDqcfg n ins => Sys2Proof.Machine.execSeqDqcfg n ins s
  | .seqDqout n ins => Sys2Proof.Machine.execSeqDqout n ins s
  | .seqSpill n ins => Sys2Proof.Machine.execSeqSpill n ins s
  | .seqFence n ins => Sys2Proof.Machine.execSeqFence n ins s
  | .seqSig n ins => Sys2Proof.Machine.execSeqSig n ins s
  | .seqWait n ins => Sys2Proof.Machine.execSeqWait n ins s
  | .seqPpoint n ins => Sys2Proof.Machine.execSeqPpoint n ins s
  | .passDrain n errors stalls => Sys2Proof.Machine.execPassDrain n errors stalls s
  | .veNop n ins => Sys2Proof.Machine.execVeNop n ins s
  | .veHalt n ins => Sys2Proof.Machine.execVeHalt n ins s
  | .setvl n ins => Sys2Proof.Machine.execSetvl n ins s
  | .li n ins => Sys2Proof.Machine.execLi n ins s
  | .veLui n ins => Sys2Proof.Machine.execVeLui n ins s
  | .veAddi n ins => Sys2Proof.Machine.execVeAddi n ins s
  | .veAdd n ins => Sys2Proof.Machine.execVeAdd n ins s
  | .veSub n ins => Sys2Proof.Machine.execVeSub n ins s
  | .shli n ins => Sys2Proof.Machine.execShli n ins s
  | .shri n ins => Sys2Proof.Machine.execShri n ins s
  | .veJmp n ins => Sys2Proof.Machine.execVeJmp n ins s
  | .veLoop n ins => Sys2Proof.Machine.execVeLoop n ins s
  | .veBeqz n ins => Sys2Proof.Machine.execVeBeqz n ins s
  | .bnez n ins => Sys2Proof.Machine.execBnez n ins s
  | .vget n ins => Sys2Proof.Machine.execVget n ins s
  | .vput n ins => Sys2Proof.Machine.execVput n ins s
  | .veTransferComplete n => Sys2Proof.Machine.execVeTransferComplete n s
  | .vwaitx n ins => Sys2Proof.Machine.execVwaitx n ins s
  | .veSig n ins => Sys2Proof.Machine.execVeSig n ins s
  | .veWait n ins => Sys2Proof.Machine.execVeWait n ins s
  | .vePpoint n ins => Sys2Proof.Machine.execVePpoint n ins s
  | .vadd n ins residue => Sys2Proof.Machine.execVadd n ins residue s
  | .vsub n ins residue => Sys2Proof.Machine.execVsub n ins residue s
  | .vmul n ins residue => Sys2Proof.Machine.execVmul n ins residue s
  | .vfma n ins residue => Sys2Proof.Machine.execVfma n ins residue s
  | .vdiv n ins => Sys2Proof.Machine.execVdiv n ins s
  | .vmin n ins => Sys2Proof.Machine.execVmin n ins s
  | .vmax n ins => Sys2Proof.Machine.execVmax n ins s
  | .vabs n ins => Sys2Proof.Machine.execVabs n ins s
  | .vneg n ins => Sys2Proof.Machine.execVneg n ins s
  | .vshl n ins => Sys2Proof.Machine.execVshl n ins s
  | .vshra n ins => Sys2Proof.Machine.execVshra n ins s
  | .vand n ins => Sys2Proof.Machine.execVand n ins s
  | .vor n ins => Sys2Proof.Machine.execVor n ins s
  | .vxor n ins => Sys2Proof.Machine.execVxor n ins s
  | .vcmp n ins => Sys2Proof.Machine.execVcmp n ins s
  | .vsel n ins => Sys2Proof.Machine.execVsel n ins s
  | .vexp2 n ins => Sys2Proof.Machine.execVexp2 n ins s
  | .vlog2 n ins => Sys2Proof.Machine.execVlog2 n ins s
  | .vrcp n ins => Sys2Proof.Machine.execVrcp n ins s
  | .vrsq n ins => Sys2Proof.Machine.execVrsq n ins s
  | .vmov n ins => Sys2Proof.Machine.execVmov n ins s
  | .vscan n ins residue => Sys2Proof.Machine.execVscan n ins residue s
  | .vred n ins residue => Sys2Proof.Machine.execVred n ins residue s
  | .vtopk n ins => Sys2Proof.Machine.execVtopk n ins s
  | .vsoftmax n ins residue => Sys2Proof.Machine.execVsoftmax n ins residue s
  | .vstats n ins residue => Sys2Proof.Machine.execVstats n ins residue s
  | .vaccx n ins residue => Sys2Proof.Machine.execVaccx n ins residue s
  | .vaccc n ins residue => Sys2Proof.Machine.execVaccc n ins residue s
  | .vdq n ins residue => Sys2Proof.Machine.execVdq n ins residue s
  | .vcvt n ins => Sys2Proof.Machine.execVcvt n ins s
  | .tapm n c pc ins => Sys2Proof.Machine.execTapm n c pc ins s
  | .blkrpt n c pc cr cnt len => Sys2Proof.Machine.execBlkrpt n c pc cr cnt len s
  | .bexp n c pc vf nm1 acc rsv => Sys2Proof.Machine.execBexp n c pc vf nm1 acc rsv s
  | .bnorm n c pc vf nm1 guard ge rsv => Sys2Proof.Machine.execBnorm n c pc vf nm1 guard ge rsv s
  | .transform n size src dst inverse exp => Sys2Proof.Machine.execTransform n size src dst inverse exp s
  | .frontEnd n carrier tick ant sym o => Sys2Proof.Machine.execFrontEnd n carrier tick ant sym o s
  | .pucchDetect n carrier tick alloc o => Sys2Proof.Machine.execPucchDetect n carrier tick alloc o s
  | .fallbackReceive n carrier tick alloc o => Sys2Proof.Machine.execFallbackReceive n carrier tick alloc o s
  | .ldpcDecode n carrier tick cb o => Sys2Proof.Machine.execLdpcDecode n carrier tick cb o s
  | .polarDecode n carrier tick alloc bits llrs => Sys2Proof.Machine.execPolarDecode n carrier tick alloc bits llrs s
  | .ldpcEncode n o => Sys2Proof.Machine.execLdpcEncode n o s
  | .precoding n g => Sys2Proof.Machine.execPrecoding n g s
  | .attentionStep n => Sys2Proof.Machine.execAttentionStep n s
  | .streamCopy n => Sys2Proof.Machine.execStreamCopy n s
  | .streamWait n => Sys2Proof.Machine.execStreamWait n s
  | .streamSig n => Sys2Proof.Machine.execStreamSig n s
  | .streamLoop n => Sys2Proof.Machine.execStreamLoop n s
  | .streamEnd n => Sys2Proof.Machine.execStreamEnd n s
  | .streamFence n => Sys2Proof.Machine.execStreamFence n s
  | .sdeRequestComplete n k e => Sys2Proof.Machine.execSdeRequestComplete n k e s
  | .streamDeadline n => Sys2Proof.Machine.execStreamDeadline n s
  | .crTailWrite n origin value => Sys2Proof.Machine.execCrTailWrite n origin value s
  | .gatherBatch n => Sys2Proof.Machine.execGatherBatch n s
  | .crossingRelease consumer entries => Sys2Proof.Machine.execCrossingRelease consumer entries s
  | .scrub unit bank => Sys2Proof.Machine.execScrub unit bank s
  | .ledgerCheck storage => Sys2Proof.Machine.execLedgerCheck storage s
  | .sramZeroComplete => Sys2Proof.Machine.execSramZeroComplete s
  | .granuleZero => Sys2Proof.Machine.execGranuleZero s
  | .katSlice kind inst r => Sys2Proof.Machine.execKatSlice kind inst r s
  | .katOverdue pa => Sys2Proof.Machine.execKatOverdue pa s
  | .overdueOther kind inst => Sys2Proof.Machine.execOverdueOther kind inst s
  | .ethFrameReceive fhp mac bytes => Sys2Proof.Machine.execEthFrameReceive fhp mac bytes s
  | .rxWindowClose carrier tick sym => Sys2Proof.Machine.execRxWindowClose carrier tick sym s
  | .frameLaunch mac => Sys2Proof.Machine.execFrameLaunch mac s
  | .txonEvent n => Sys2Proof.Machine.execTxonEvent n s
  | .ethLinkChange fhp mac linkUp => Sys2Proof.Machine.execEthLinkChange fhp mac linkUp s
  | .iferikWrite h w off tag payload => Sys2Proof.Machine.execIferikWrite h w off tag payload s
  | .iferikReadReq h w off tag len => Sys2Proof.Machine.execIferikReadReq h w off tag len s
  | .iferikReadRsp h tag st payload => Sys2Proof.Machine.execIferikReadRsp h tag st payload s
  | .iferikWriteRsp h tag st => Sys2Proof.Machine.execIferikWriteRsp h tag st s
  | .iferikReduce h r => Sys2Proof.Machine.execIferikReduce h r s
  | .iferikNop h => Sys2Proof.Machine.execIferikNop h s
  | .ctrlOpen h grants => Sys2Proof.Machine.execCtrlOpen h grants s
  | .ctrlClose h => Sys2Proof.Machine.execCtrlClose h s
  | .ctrlAnnounce h w len read write => Sys2Proof.Machine.execCtrlAnnounce h w len read write s
  | .announceAccept h w ok => Sys2Proof.Machine.execAnnounceAccept h w ok s
  | .ctrlRevoke h w => Sys2Proof.Machine.execCtrlRevoke h w s
  | .ctrlJoin h o => Sys2Proof.Machine.execCtrlJoin h o s
  | .ctrlLeave h group => Sys2Proof.Machine.execCtrlLeave h group s
  | .rtoExpiry port peer => Sys2Proof.Machine.execRtoExpiry port peer s
  | .ackTimer port peer => Sys2Proof.Machine.execAckTimer port peer s
  | .ctrlTimeout wait => Sys2Proof.Machine.execCtrlTimeout wait s
  | .ilpLinkDown port => Sys2Proof.Machine.execIlpLinkDown port s
  | .tsuOffsetWrite origin value => Sys2Proof.Machine.execTsuOffsetWrite origin value s
  | .holdoverEntry => Sys2Proof.Machine.execHoldoverEntry s
  | .rateSample => Sys2Proof.Machine.execRateSample s
  | .ppsInEdge => Sys2Proof.Machine.execPpsInEdge s
  | .ppsOutEdge => Sys2Proof.Machine.execPpsOutEdge s
  | .todMessageSend => Sys2Proof.Machine.execTodMessageSend s
  | .todMessageReceive msg => Sys2Proof.Machine.execTodMessageReceive msg s
  | .portReset port cause link => Sys2Proof.Machine.execPortReset port cause link s
  | .perstRelease port link => Sys2Proof.Machine.execPerstRelease port link s
  | .bar2Access port op => Sys2Proof.Machine.execBar2Access port op s
  | .hostCompletion n k poisoned => Sys2Proof.Machine.execHostCompletion n k poisoned s
  | .completionTimeout n k => Sys2Proof.Machine.execCompletionTimeout n k s
  | .semClaim origin index tie => Sys2Proof.Machine.execSemClaim origin index tie s
  | .semRelease origin index value => Sys2Proof.Machine.execSemRelease origin index value s
  | .interruptDelivery target => Sys2Proof.Machine.execInterruptDelivery target s
  | .coalesceTimeout target level => Sys2Proof.Machine.execCoalesceTimeout target level s
  | .eoi target origin value => Sys2Proof.Machine.execEoi target origin value s
  | .stackClr target origin value => Sys2Proof.Machine.execStackClr target origin value s
  | .swset origin value => Sys2Proof.Machine.execSwset origin value s
  | .pendingClear word origin value => Sys2Proof.Machine.execPendingClear word origin value s
  | .interruptEnable word origin value => Sys2Proof.Machine.execInterruptEnable word origin value s
  | .routeWrite source origin value => Sys2Proof.Machine.execRouteWrite source origin value s
  | .stickyClr origin value => Sys2Proof.Machine.execStickyClr origin value s
  | .wake origin value us => Sys2Proof.Machine.execWake origin value us s
  | .fbOffArm origin value => Sys2Proof.Machine.execFbOffArm origin value s
  | .fwLock origin value => Sys2Proof.Machine.execFwLock origin value s
  | .rcRead origin offset len => Sys2Proof.Machine.execRcRead origin offset len s
  | .latchingRead origin offset len => Sys2Proof.Machine.execLatchingRead origin offset len s
  | .registerWrite origin offset len value => Sys2Proof.Machine.execRegisterWrite origin offset len value s
  | .brownoutHold sram mv => Sys2Proof.Machine.execBrownoutHold sram mv s
  | .holdEnd core sram => Sys2Proof.Machine.execHoldEnd core sram s
  | .holdEscalation => Sys2Proof.Machine.execHoldEscalation s
  | .supplyReset sram mv => Sys2Proof.Machine.execSupplyReset sram mv s
  | .overvoltage sram mv => Sys2Proof.Machine.execOvervoltage sram mv s
  | .avsTargetStep raise => Sys2Proof.Machine.execAvsTargetStep raise s
  | .thermalAlarm temp => Sys2Proof.Machine.execThermalAlarm temp s
  | .tempAlert temp => Sys2Proof.Machine.execTempAlert temp s
  | .smbusRead op => Sys2Proof.Machine.execSmbusRead op s
  | .powerOnReset f => Sys2Proof.Machine.execPowerOnReset f s
  | .coldReset perst => Sys2Proof.Machine.execColdReset perst s
  | .extest => Sys2Proof.Machine.execExtest s
  | .samplePreload sampled preload => Sys2Proof.Machine.execSamplePreload sampled preload s
  | .idcode => Sys2Proof.Machine.execIdcode s
  | .clamp => Sys2Proof.Machine.execClamp s
  | .highz => Sys2Proof.Machine.execHighz s
  | .extestPulse => Sys2Proof.Machine.execExtestPulse s
  | .extestTrain => Sys2Proof.Machine.execExtestTrain s
  | .bypass code => Sys2Proof.Machine.execBypass code s
  | .loadBalancerMove m => Sys2Proof.Machine.execLoadBalancerMove m s
  | .refclkStop => Sys2Proof.Machine.execRefclkStop s
  | .supplyRemoval => Sys2Proof.Machine.execSupplyRemoval s
  | .coldResetRelease f => Sys2Proof.Machine.execColdResetRelease f s
  | .pcieConfigWrite port w => Sys2Proof.Machine.execPcieConfigWrite port w s
  | .msixTableWrite port vector dword value => Sys2Proof.Machine.execMsixTableWrite port vector dword value s
  | .ilpLinkUp port => Sys2Proof.Machine.execIlpLinkUp port s
  | .pfcPauseFrame port enable quanta => Sys2Proof.Machine.execPfcPauseFrame port enable quanta s
  | .revokeAcknowledge h w => Sys2Proof.Machine.execRevokeAcknowledge h w s
  | .leaveAcknowledge h group => Sys2Proof.Machine.execLeaveAcknowledge h group s
  | .groupEpochAnnounce h group news => Sys2Proof.Machine.execGroupEpochAnnounce h group news s
  | .clk10mServoUpdate cycles => Sys2Proof.Machine.execClk10mServoUpdate cycles s
  | .tapReset => Sys2Proof.Machine.execTapReset s

end Sys2Proof.Machine
end

