-- ==== Sys2Proof/Machine/Idle.lean ====
section
/-! DEFINITION. What the device does while no command waits: one edge of REFCLK (DESIGN CHOICE, log entry 7). -/

namespace Sys2Proof.Machine

/-- An edge while the device is held in reset: elapsed and device time go on (R387, R388, Table 18.5). -/
def heldEdge (s : State) : State :=
  let s1 := s.setRegN Reg.TSU_ELAPSED (s.elapsed + 1)
  { s1 with devTime := s1.devTime + edgeUnits s1 }

/-- One REFCLK edge, and what time brings with it: ingress queues drain and paused paths send again; without supplies or without a clock
nothing happens. -/
def idle (s : State) : State :=
  match s.phase with
  | .running => s.after (ilpPumpAll (sendWindowWrites (drainIngress (ticksDue (refclkEdge s)))))
  | .held => heldEdge s
  | .off | .clockLost => s

end Sys2Proof.Machine
end

