-- ==== Sys2Proof/Safety.lean ====
section
/-! DEFINITION. The terms in which statements about the device are made: what a command leaves alone, when a host command begins at
once, which control-space register a command writes, what is left in a device that does not run. -/

namespace Sys2Proof.Machine

/-! ### What stays -/

/-- Two states differ at most in registers. -/
def RegsOnly (s t : State) : Prop := t = { s with regs := t.regs }

/-- Two states differ at most in registers, and there at most at the listed offsets. -/
def OnlyRegs (offs : List Nat) (s t : State) : Prop := RegsOnly s t ∧ ∀ o, o ∉ offs → t.reg o = s.reg o

/-- Every register outside the list reads as before. -/
def RegsKept (offs : List Nat) (s t : State) : Prop := ∀ o, o ∉ offs → t.reg o = s.reg o

/-- Every byte of the device physical memories reads as before. -/
def MemKept (s t : State) : Prop := ∀ a n, t.bytes a n = s.bytes a n

/-! ### Writes of the control space -/

/-- The origin and the register of a command that is a write of one register. -/
def writeOf : Instr → Option (Nat × Nat)
  | .sqTailDoorbell p q o _ => some (o.val, Reg.Q_SQ_TAIL p.val q.val)
  | .queueCfgWrite p q o _ => some (o.val, Reg.Q_CFG p.val q.val)
  | .rqHeadWrite p q o _ => some (o.val, Reg.Q_RQ_HEAD p.val q.val)
  | .slotTailWrite c o _ => some (o.val, Reg.SLOT_TAIL c.val)
  | .semRelease o i _ => some (o.val, Reg.SEM_CLAIM i.val)
  | .eoi t o _ => some (o.val, Reg.TGT_EOI t.val)
  | .stackClr t o _ => some (o.val, Reg.TGT_CTRL t.val)
  | .swset o _ => some (o.val, Reg.ICN_SWSET)
  | .pendingClear w o _ => some (o.val, pendOff w)
  | .interruptEnable w o _ => some (o.val, enableOff w)
  | .routeWrite x o _ => some (o.val, Reg.ICN_ROUTE x.val)
  | .stickyClr o _ => some (o.val, Reg.LOG_CTRL)
  | .wake o _ _ => some (o.val, Reg.PMU_CTRL)
  | .tsuOffsetWrite o _ => some (o.val, Reg.TSU_OFFSET)
  | .crTailWrite n o _ => some (o.val, Reg.SDE_CTX_CR_TAIL (n.val / 4) (n.val % 4))
  | .fbOffArm o _ => some (o.val, Reg.SAF_FB_OFF_ARM)
  | .fwLock o _ => some (o.val, Reg.FW_LOCK)
  | .registerWrite o off len _ => if sizeOk off.toNat len.toNat then some (o.val, off.toNat) else none
  | _ => none

/-- A write from an origin reaches a register: its port is not in reset, Retain does not close the register (R451), the firewall allows
it (R310). -/
def writePasses (s : State) (origin off : Nat) : Bool :=
  !(hostInReset s origin) && retainReach s off && fwAllows s origin (ctlBase + off) true

/-- The same for a read. -/
def readPasses (s : State) (origin off : Nat) : Bool :=
  !(hostInReset s origin) && retainReach s off && fwAllows s origin (ctlBase + off) false

/-- The origin and the register of a command that reads one register. -/
def readOf : Instr → Option (Nat × Nat)
  | .semClaim o i _ => some (o.val, Reg.SEM_CLAIM i.val)
  | .rcRead o off len => if sizeOk off.toNat len.toNat then some (o.val, off.toNat) else none
  | .latchingRead o off len => if sizeOk off.toNat len.toNat then some (o.val, off.toNat) else none
  | _ => none

/-- A register of the SAF, FFD, KAT, DET, PMU, SUP, DMMU or DSC block whose writes have no rule of their own. -/
def plainOff (off : Nat) : Bool :=
  (decide (0x110000 ≤ off) && decide (off < 0x140000) && off != Reg.SAF_FB_OFF_ARM) ||
    (decide (0x150000 ≤ off) && decide (off < 0x1A0000) && off != Reg.PMU_CTRL) || (decide (0x700000 ≤ off) && decide (off < 0x800000))

/-- No record is held for any queue, and no slot reply for any carrier (R254, R264). -/
def noneHeld (s : State) : Prop := s.held = [] ∧ ∀ c, (s.car c).held = []

/-- The last record of the main log is of a kind, from an origin, about an address, with a data word (Table 13.5). -/
def logged (t : State) (kind origin addr data : Nat) (write : Bool) : Prop :=
  ∃ r, t.mainLog.getLast? = some r ∧ r.kind = kind ∧ r.origin = origin ∧ r.addr = addr % 2 ^ 64 ∧ r.data = data % 2 ^ 64 ∧ r.write = write

/-- Registers that a record of a kind that is not sticky changes. -/
def logRegs : List Nat := [Reg.LOG_NEXT_SEQ, Reg.LOG_OLDEST_SEQ, Reg.LOG_OVERWRITTEN]

/-- A refused access and nothing else: counted, shown in FW.LAST, recorded (R310); the listed registers may count beside. -/
def refusedAt (offs : List Nat) (s t : State) (origin addr : Nat) (write : Bool) : Prop :=
  t.regN Reg.FW_REFUSED = min (s.regN Reg.FW_REFUSED + 1) 0xFFFFFFFF ∧ t.fld Fd.FW_LAST_ORIGIN = origin ∧
    t.fld Fd.FW_LAST_WRITE = b2n write ∧ t.regN Reg.FW_LAST_ADDR = addr ∧
    (∃ r, t.mainLog.getLast? = some r ∧ r.kind = 3 ∧ r.origin = origin ∧ r.addr = addr ∧ r.write = write) ∧
    t = { s with regs := t.regs, mainLog := t.mainLog, resp := t.resp } ∧
    RegsKept (offs ++ [Reg.FW_REFUSED, Reg.FW_LAST, Reg.FW_LAST_ADDR] ++ logRegs) s t

/-! ### Host commands -/

/-- The command that a packet with an opcode is while its body runs. -/
def cmdOf (op : Nat) (p : Pkt) : Cmd := ⟨op, p, .executing, false, 0⟩

/-- The command that a packet with an opcode is once it has been fetched. -/
def fetchedCmd (op : Nat) (p : Pkt) : Cmd := ⟨op, p, .fetched, false, 0⟩

/-- The state in which the body of a command that begins at once runs: the packet in flight and counted (R255, R276). -/
def begun (s : State) (op : Nat) (p : Pkt) : State := setCmdPhase (intake s op p) (fetchedCmd op p) .executing

/-- Registers that count a command into flight (R255, R276). -/
def flightRegs (p : Pkt) : List Nat :=
  [Reg.Q_IN_FLIGHT p.port.val p.queue.val, Reg.Q_FETCHED p.port.val p.queue.val, Reg.PORT_CMD p.port.val, Reg.Q_STATUS p.port.val p.queue.val]

/-- The opcode and the packet of a command that a host issues (Table 10.3). -/
def opOf : Instr → Option (Nat × Pkt)
  | .nop p => some (0x01, p)
  | .queryCaps p => some (0x02, p)
  | .jobLoad p _ => some (0x10, p)
  | .jobStart p => some (0x11, p)
  | .jobPause p => some (0x12, p)
  | .jobResume p => some (0x13, p)
  | .jobKill p => some (0x14, p)
  | .jobSave p => some (0x15, p)
  | .jobRestore p => some (0x16, p)
  | .streamArm p => some (0x20, p)
  | .streamCancel p => some (0x21, p)
  | .mapPages p => some (0x28, p)
  | .unmapPages p => some (0x29, p)
  | .seqPageEditReset p => some (0x2A, withOp p 0)
  | .seqPageEditConfig p => some (0x2A, withOp p 1)
  | .seqPageEditTrim p => some (0x2A, withOp p 2)
  | .seqPageEditMove p => some (0x2A, withOp p 3)
  | .poolAdd p => some (0x2A, withOp p 4)
  | .poolRemove p => some (0x2A, withOp p 5)
  | .seasonStage p => some (0x30, p)
  | .seasonCommit p => some (0x31, p)
  | .adaptStep p _ => some (0x32, p)
  | .digestReport p => some (0x33, p)
  | .windowOpen p => some (0x38, p)
  | .windowClose p => some (0x39, p)
  | .fabricJoin p => some (0x3A, p)
  | .fabricLeave p => some (0x3B, p)
  | .syncInit p => some (0x40, p)
  | .syncSignal p => some (0x41, p)
  | .syncWait p => some (0x42, p)
  | .syncQuery p => some (0x43, p)
  | .katRun p => some (0x50, p)
  | .fenceUnit p => some (0x51, p)
  | .unfenceUnit p => some (0x52, p)
  | .logRead p => some (0x53, p)
  | .safetyConfig p => some (0x58, p)
  | .fallbackForce p => some (0x59, p)
  | .timeSet p => some (0x60, p)
  | .timeAdjust p => some (0x61, p)
  | .fwLoad p _ => some (0x70, p)
  | .attest p => some (0x71, p)
  | .powerStateRun p => some (0x7F, p)
  | .powerStateIdle p => some (0x7F, p)
  | .powerStateRetain p => some (0x7F, p)
  | .warmReset p => some (0x7F, p)
  | _ => none

/-- The reply of a command can be written at once: its ring has a place, and nothing waits before it (R254). -/
def ringOpen (s : State) (p : Pkt) : Bool :=
  !(ringFull s p.port.val p.queue.val) && !(s.holdQueues.contains (32 * p.port.val + p.queue.val)) && !(portQuiet s p.port.val) &&
    !(hasHeld s p.port.val p.queue.val)

/-- The bus address at which the next record of a packet's queue is written (R254). -/
def replyAddr (s : State) (p : Pkt) : Nat :=
  s.fld (Fd.Q_RQ_BASE_ADDR p.port.val p.queue.val) * 64 + 32 * s.fld (Fd.Q_RQ_TAIL_INDEX p.port.val p.queue.val)

/-- A packet is taken: the device runs, the port fetches and has room, and the packet is not in flight already (R255). -/
def taken (s : State) (op : Nat) (p : Pkt) : Bool :=
  s.phase == .running && (inFlight s op p).isNone && s.fld (Fd.PORT_CMD_FREE p.port.val) != 0 && fetching s p.port.val

/-- A command begins at once: its packet is taken, no TAG is in use twice (R256), no capacity for waiting commands is full (R266), its order
allows it (R257, R260), and its header is not refused (R256 to R259, R432, R450). -/
def hostReady (s : State) (op : Nat) (p : Pkt) : Bool :=
  taken s op p && !(dupTag (intake s op p) (fetchedCmd op p)) && !(waitFull (intake s op p) (fetchedCmd op p)) && queueTurn (intake s op p) (fetchedCmd op p) &&
    fenceOpen (intake s op p) (fetchedCmd op p) && orderOpen (intake s op p) (fetchedCmd op p) &&
    (headerRefusal (intake s op p) (fetchedCmd op p)).isNone

/-- The effect of a command that is answered with a status and a DETAIL: the state before its reply is `u`. -/
def answered (u : State) (op : Nat) (p : Pkt) (status detail : Nat) (r0 r1 : Word) : State :=
  finishCmd u (cmdOf op p) status detail r0 r1

/-! ### Jobs, seasons, counts -/

/-- A job's entry, units, rings and regions are ones the device has, as JOB_LOAD gives them (R267). -/
def Job.placed (j : Job) : Bool :=
  decide (j.entry ≤ 8) && j.la.all (fun p => decide (p.2 < 96)) && j.lv.all (fun p => decide (p.2 < 24)) &&
    decide (j.image.aeRings.length ≤ 8) && decide (j.image.eguRings.length ≤ 4) && j.regions.all (fun r => decide (r < 256)) &&
    j.image.cores.all (fun c => decide (c.1 < 12 ∧ c.2 < 4))

/-- A job's units run (R267): its line says RUNNING; every array and engine of it runs or has ended; its rings run. -/
def jobRuns (t : State) (j : Job) : Prop :=
  t.jobState j = 2 ∧
    (∀ p ∈ j.la, t.flag (Fd.MA_STATUS_RUN p.2) = true ∨ t.flag (Fd.MA_STATUS_DONE p.2) = true) ∧
    (∀ p ∈ j.lv, t.flag (Fd.VE_STATUS_RUN p.2) = true ∨ t.flag (Fd.VE_STATUS_DONE p.2) = true) ∧
    (∀ n ∈ (freeAes t).take j.image.aeRings.length, t.flag (Fd.AE_STATUS_RUN n) = true) ∧ (∀ n < j.image.eguRings.length, t.flag (Fd.EGU_STATUS_RUN n) = true)

/-- The on-chip memories are being cleared (R443): BOOT and COMPUTE show it, and what they held is gone. -/
def clearing (t : State) : Prop :=
  t.flag Fd.BOOT_ZERO_SRAM_BUSY = true ∧ t.flag Fd.COMPUTE_ZEROING = true ∧ t.oab = [] ∧ t.banks = []

/-- A command is in flight and has begun; it is answered later. -/
def underway (t : State) (op : Nat) (p : Pkt) : Prop := ∃ c ∈ t.cmds, c.opcode = op ∧ c.pkt = p ∧ c.phase = .executing

/-! ### Iferik Link -/

/-- The header of a packet on a path; CTRL OPEN begins one and has its own rule (Table 14.5). -/
def packetHdr : Instr → Option IlpHdr
  | .iferikWrite h _ _ _ _ => some h
  | .iferikReadReq h _ _ _ _ => some h
  | .iferikReadRsp h _ _ _ => some h
  | .iferikWriteRsp h _ _ => some h
  | .iferikReduce h _ => some h
  | .iferikNop h => some h
  | .ctrlClose h => some h
  | .ctrlAnnounce h _ _ _ _ => some h
  | .announceAccept h _ _ => some h
  | .ctrlRevoke h _ => some h
  | .ctrlJoin h _ => some h
  | .ctrlLeave h _ => some h
  | .revokeAcknowledge h _ => some h
  | .leaveAcknowledge h _ => some h
  | .groupEpochAnnounce h _ _ => some h
  | _ => none

/-- A packet arrives whole on a path of its epoch that is up; `x`: the path once its acknowledgement has been taken (R368, R373). -/
def arrivesOn (s : State) (h : IlpHdr) (x : Path) : Prop :=
  s.phase = .running ∧ ilpUp s h.port.val = true ∧ h.fcs = true ∧
    (∃ y, s.path h.port.val h.src.toNat = some y ∧ y.epoch = h.epoch.toNat) ∧ (takeHeader s h).path h.port.val h.src.toNat = some x

/-- Its PSN is the next of its channel: it is accepted (R368). -/
def accepted (s : State) (h : IlpHdr) (x : Path) : Prop := arrivesOn s h x ∧ h.psn.toNat = (x.vc h.vc.val).accepted % 2 ^ 24

/-- A packet with a body has been sent to a peer and is unacknowledged, or waits for credits or tags. -/
def queuedTo (t : State) (n peer : Nat) (body : PktBody) : Prop :=
  ∃ y, t.path n peer = some y ∧ ∃ q ∈ y.unacked ++ y.queue, q.body = body

/-- Two states differ at most in the links' own bookkeeping: registers, paths, tags, packets sent. -/
def LinkOnly (s t : State) : Prop := t = { s with regs := t.regs, paths := t.paths, tagRuns := t.tagRuns, ilpSent := t.ilpSent }

/-! ### Arrays and engines -/

/-- Array n issues its next instruction: its sequencer runs, waits for nothing, its program counter lies in the program, and the word there
is not one with an illegal opcode (R81, R86). -/
def seqIssues (s : State) (n : Nat) : Prop :=
  s.phase = .running ∧ seqReady s n = true ∧ s.pcOut.contains n = false ∧ seqIllegal s n = false

/-- The register that an instruction of array n with destination d writes: none for S0 (R81). -/
def seqDest (n : Nat) (d : BitVec 4) : List Nat := if d = 0 then [] else [Reg.MA_SEQ_S n d.toNat]

/-- Register d of array n takes a value modulo 2^32, S0 stays 0, the program counter goes on, and no other register changes (R83). -/
def seqWrites (s t : State) (n : Nat) (d : BitVec 4) (v : Nat) : Prop :=
  OnlyRegs (Reg.MA_SEQ_PC n :: seqDest n d) s t ∧ t.regN (Reg.MA_SEQ_PC n) = s.regN (Reg.MA_SEQ_PC n) + 1 ∧
    sreg t n d = (if d = 0 then 0 else v % 2 ^ 32)

/-- A job fault has been taken: a compute reset, after which no job is left and the on-chip memories are being cleared (R271). -/
def jobFault (t : State) : Prop := t.jobs = [] ∧ t.flag Fd.BOOT_ZERO_SRAM_BUSY = true

/-- Engine n issues its next instruction: it runs, waits for nothing, its program counter lies in the program, and the word there is not
one with an illegal opcode (R121, R125). -/
def veIssues (s : State) (n : Nat) : Prop :=
  s.phase = .running ∧ veReady s n = true ∧ s.pcOut.contains (96 + n) = false ∧ veIllegal s n = false

/-- The register that an instruction of engine n with destination d writes: none for X0 (R119). -/
def veDest (n : Nat) (d : BitVec 5) : List Nat := if d = 0 then [] else [Reg.VE_X n d.toNat]

/-- What issuing an instruction leaves in STATUS of engine n: no hold on a transfer, the rest as before (R121). -/
def veStatusKept (s t : State) (n : Nat) : Prop :=
  t.reg (Reg.VE_STATUS n) = (s.setFld (Fd.VE_STATUS_WAIT_XFER n) 0).reg (Reg.VE_STATUS n)

/-- Register d of engine n takes a value modulo 2^32, X0 stays 0, the program counter goes on, and no register beside the listed ones
changes (R120). -/
def veWrites (offs : List Nat) (s t : State) (n : Nat) (d : BitVec 5) (v : Nat) : Prop :=
  OnlyRegs (Reg.VE_PC n :: Reg.VE_STATUS n :: veDest n d ++ offs) s t ∧ veStatusKept s t n ∧
    t.regN (Reg.VE_PC n) = s.regN (Reg.VE_PC n) + 1 ∧ xreg t n d = (if d = 0 then 0 else v % 2 ^ 32)

/-- Engine n holds its instruction on a transfer, and nothing else changes (R121). -/
def veHeld (s t : State) (n : Nat) : Prop := OnlyRegs [Reg.VE_STATUS n] s t ∧ t.flag (Fd.VE_STATUS_WAIT_XFER n) = true

/-! ### Vector operations (Table 5.4) -/

/-- Elements of operand A as a type. -/
def vecA (s : State) (n : Nat) (i : VFields) (t : Nat) : List Nat := vRead s n t (xreg s n i.xa) (s.regN (Reg.VE_VLEN n))

/-- Elements of operand B as a type, or its broadcast value. -/
def vecB (s : State) (n : Nat) (i : VFields) (t : Nat) : List Nat := (vOperandB s n t i (s.regN (Reg.VE_VLEN n))).1

/-- Elements of operand C as a type. -/
def vecC (s : State) (n : Nat) (i : VFields) (t : Nat) : List Nat := vRead s n t (xreg s n i.xc) (s.regN (Reg.VE_VLEN n))

/-- Where operand A lies, of elements of a type. -/
def vecAt (s : State) (n : Nat) (x : BitVec 5) (t : Nat) : VRange := (xreg s n x, vtBytes t (s.regN (Reg.VE_VLEN n)))

/-- Results as the bytes of a destination. -/
def vecOut (s : State) (n : Nat) (i : VFields) (t : Nat) (rs : List VRes) : List (Nat × List Byte) :=
  [(xreg s n i.xd, vtPack t (rs.map (fun r => r.1)))]

/-- The events of results. -/
def vecEvs (rs : List VRes) : List VEv := rs.flatMap (fun r => r.2)

/-- Where operands A and B lie. -/
def vecAB (s : State) (n : Nat) (i : VFields) (t : Nat) : List VRange := vecAt s n i.xa t :: vRangeB s n t i (s.regN (Reg.VE_VLEN n))

/-- A binary operation of Table 5.4: its source and destination types, its name. -/
def VecBinary (n : Fin 24) (i : VFields) (c : Instr) (op : VBin) : Prop :=
  vBad i 0x80 = false ∧
    ((c = .vadd n i none ∧ op = .add ∧ vTypes i vtArith = true) ∨ (c = .vsub n i none ∧ op = .sub ∧ vTypes i vtArith = true) ∨
      (c = .vmul n i none ∧ op = .mul ∧ vTypes i vtArith32 = true) ∨ (c = .vdiv n i ∧ op = .div ∧ vTypes i vtWide = true) ∨
      (c = .vmin n i ∧ op = .min ∧ vTypes i vtArith = true) ∨ (c = .vmax n i ∧ op = .max ∧ vTypes i vtArith = true))

/-- An operation of one operand, and what it makes of an element. -/
def VecUnary (n : Fin 24) (i : VFields) (c : Instr) (f : Nat → VRes) : Prop :=
  vBad i 0x80 = false ∧
    ((c = .vabs n i ∧ f = vAbs i.st.toNat i.dt.toNat ∧ vTypes i vtArith32 = true) ∨
      (c = .vneg n i ∧ f = vNeg i.st.toNat i.dt.toNat ∧ vTypes i vtArith32 = true) ∨
      (c = .vexp2 n i ∧ f = vExp2 ∧ i.st = 6 ∧ i.dt = 6) ∨ (c = .vlog2 n i ∧ f = vLog2 ∧ i.st = 6 ∧ i.dt = 6) ∨
      (c = .vrcp n i ∧ f = vRcp ∧ i.st = 6 ∧ i.dt = 6) ∨ (c = .vrsq n i ∧ f = vRsq ∧ i.st = 6 ∧ i.dt = 6) ∨
      (c = .vmov n i ∧ f = vCopy i.st.toNat ∧ i.st = i.dt ∧ i.st.toNat ≤ 13))

/-- A shift or a bitwise operation on elements of one integer type. -/
def VecLogic (n : Fin 24) (i : VFields) (c : Instr) (f : Nat → Nat → VRes) : Prop :=
  vBad i 0x80 = false ∧ vSame i vtInt32 = true ∧
    ((c = .vshl n i ∧ f = vShl i.st.toNat) ∨ (c = .vshra n i ∧ f = vShra i.st.toNat) ∨ (c = .vand n i ∧ f = fun a b => (a &&& b, [])) ∨
      (c = .vor n i ∧ f = fun a b => (a ||| b, [])) ∨ (c = .vxor n i ∧ f = fun a b => (a ^^^ b, [])))

/-- A valid vector instruction of engine n other than VDQ: its sources, its destinations with their alignment, the bytes that it writes
there, and its events, where they are those of its elements alone (Tables 5.4 and 5.5, R126 to R132). -/
inductive VecForm (s : State) (n : Fin 24) (i : VFields) :
    Instr → List VRange → List VRange → Nat → List (Nat × List Byte) → Option (List VEv) → Prop
  | binary (c : Instr) (op : VBin) (rs : List VRes) : VecBinary n i c op →
      rs = List.zipWith (vBin op i.st.toNat i.dt.toNat) (vecA s n i i.st.toNat) (vecB s n i i.st.toNat) →
      VecForm s n i c (vecAB s n i i.st.toNat) [vecAt s n i.xd i.dt.toNat] 64 (vecOut s n i i.dt.toNat rs) (some (vecEvs rs))
  | unary (c : Instr) (f : Nat → VRes) (rs : List VRes) : VecUnary n i c f → rs = (vecA s n i i.st.toNat).map f →
      VecForm s n i c [vecAt s n i.xa i.st.toNat] [vecAt s n i.xd i.dt.toNat] 64 (vecOut s n i i.dt.toNat rs)
        (if i.st = 10 then none else some (vecEvs rs))
  | logic (c : Instr) (f : Nat → Nat → VRes) (rs : List VRes) : VecLogic n i c f →
      rs = List.zipWith f (vecA s n i i.st.toNat) (vecB s n i i.st.toNat) →
      VecForm s n i c (vecAB s n i i.st.toNat) [vecAt s n i.xd i.st.toNat] 64 (vecOut s n i i.st.toNat rs) (some (vecEvs rs))
  | fma (rs : List VRes) : vBad i 0x80 = false → vTypes i vtWide = true →
      rs = List.zipWith (fun x c => vFma i.st.toNat i.dt.toNat x.1 x.2 c)
        (List.zip (vecA s n i i.st.toNat) (vecB s n i i.st.toNat)) (vecC s n i i.st.toNat) →
      VecForm s n i (.vfma n i none) (vecAt s n i.xa i.st.toNat :: vecAt s n i.xc i.st.toNat ::
        vRangeB s n i.st.toNat i (s.regN (Reg.VE_VLEN n))) [vecAt s n i.xd i.dt.toNat] 64 (vecOut s n i i.dt.toNat rs) (some (vecEvs rs))
  | compare (rs : List VRes) : vBad i 0x87 = false → i.mod.toNat % 8 ≤ 5 → i.dt = 0 → vtArith i.st.toNat = true →
      rs = List.zipWith (vCompare i.st.toNat (i.mod.toNat % 8)) (vecA s n i i.st.toNat) (vecB s n i i.st.toNat) →
      VecForm s n i (.vcmp n i) (vecAB s n i i.st.toNat) [(xreg s n i.xd, s.regN (Reg.VE_VLEN n))] 64 (vecOut s n i 0 rs) (some (vecEvs rs))
  | select (rs : List VRes) : vBad i 0x80 = false → vSame i vtArith = true →
      rs = List.zipWith (fun x c => vCopy i.st.toNat (if c != 0 then x.1 else x.2))
        (List.zip (vecA s n i i.st.toNat) (vecB s n i i.st.toNat)) (vecC s n i 0) →
      VecForm s n i (.vsel n i) (vecAt s n i.xa i.st.toNat :: (xreg s n i.xc, s.regN (Reg.VE_VLEN n)) ::
        vRangeB s n i.st.toNat i (s.regN (Reg.VE_VLEN n))) [vecAt s n i.xd i.st.toNat] 64 (vecOut s n i i.st.toNat rs) (some (vecEvs rs))
  | scan (rs : List VRes) (seg : Bool) : vBad i 0x8F = false → i.mod.toNat % 4 ≠ 3 → vTypes i vtArith = true → seg = bitOf i.mod.toNat 3 →
      rs = vScan i.st.toNat i.dt.toNat (i.mod.toNat % 4) (bitOf i.mod.toNat 2) seg []
        (List.zip (vecA s n i i.st.toNat) (if seg then vecC s n i 0 else List.replicate (s.regN (Reg.VE_VLEN n)) 0)) →
      VecForm s n i (.vscan n i none) (vecAt s n i.xa i.st.toNat :: (if seg then [(xreg s n i.xc, s.regN (Reg.VE_VLEN n))] else []))
        [vecAt s n i.xd i.dt.toNat] 64 (vecOut s n i i.dt.toNat rs) (some (vecEvs rs))
  | reduce (r : VRes) : vBad i 0x8F = false → i.mod.toNat % 4 ≠ 3 → vTypes i vtArith = true →
      r = vFoldOut i.st.toNat i.dt.toNat (i.mod.toNat % 4) (vecA s n i i.st.toNat) →
      VecForm s n i (.vred n i none) [vecAt s n i.xa i.st.toNat] [(xreg s n i.xd, vtBits i.dt.toNat / 8)] (vtBits i.dt.toNat / 8)
        (vecOut s n i i.dt.toNat [r]) (some (vecEvs [r]))
  | top (l : List (VRes × Nat)) (k : Nat) : vBad i 0x81 = false → k = i.imm.toNat → 0 < k → k ≤ 256 → vSame i vtArith32 = true →
      l = topK i.st.toNat (bitOf i.mod.toNat 0) k (vecA s n i i.st.toNat) →
      VecForm s n i (.vtopk n i) [vecAt s n i.xa i.st.toNat] [(xreg s n i.xd, vtBytes i.st.toNat k), (xreg s n i.xb, 2 * k)] 64
        (vecOut s n i i.st.toNat (l.map (fun x => x.1)) ++ [(xreg s n i.xb, vtPack 1 (l.map (fun x => x.2)))])
        (some (vecEvs (l.map (fun x => x.1))))
  | softmax (rs : List VRes) : vBad i 0x80 = false → vtFloat i.st.toNat = true → vtFloat i.dt.toNat = true →
      rs = vSoftmax i.st.toNat i.dt.toNat (xreg s n i.xb) (vecA s n i i.st.toNat) →
      VecForm s n i (.vsoftmax n i none) [vecAt s n i.xa i.st.toNat] [vecAt s n i.xd i.dt.toNat] 64 (vecOut s n i i.dt.toNat rs)
        (some (vecEvs rs))
  | stats (bs : List Byte) (out : List Nat) : vBad i 0x80 = false → i.st = 3 → i.dt = 6 →
      bs = s.bytes (veBase n + xreg s n i.xa) (24 * s.regN (Reg.VE_VLEN n)) →
      out = (List.range (s.regN (Reg.VE_VLEN n))).flatMap (fun k =>
        [(vStats (leAt bs (24 * k) 8) (signed 64 (leAt bs (24 * k + 8) 8)) (leAt bs (24 * k + 16) 8)).1,
         (vStats (leAt bs (24 * k) 8) (signed 64 (leAt bs (24 * k + 8) 8)) (leAt bs (24 * k + 16) 8)).2]) →
      VecForm s n i (.vstats n i none) [(xreg s n i.xa, 24 * s.regN (Reg.VE_VLEN n))] [(xreg s n i.xd, 8 * s.regN (Reg.VE_VLEN n))] 64
        [(xreg s n i.xd, vtPack 6 out)] (some [])
  | exact (rs : List VRes) : vBad i 0x80 = false → i.st = 12 → i.dt = 12 →
      rs = List.zipWith (fun x y => (sext64 (satS 48 (signed 64 x + signed 64 y)),
        if satS 48 (signed 64 x + signed 64 y) = signed 64 x + signed 64 y then [] else [VEv.isat])) (vecA s n i 12) (vecB s n i 12) →
      VecForm s n i (.vaccx n i none) ((xreg s n i.xa, 8 * s.regN (Reg.VE_VLEN n)) :: vRangeB s n 12 i (s.regN (Reg.VE_VLEN n)))
        [(xreg s n i.xd, 8 * s.regN (Reg.VE_VLEN n))] 64 (vecOut s n i 12 rs) (some (vecEvs rs))
  | compact (rs : List VRes) : vBad i 0x80 = false → i.st = 13 → i.dt = 13 →
      rs = List.zipWith (fun x y => ((comb x y).1, if (comb x y).2 then [VEv.isat] else [])) (vecA s n i 13) (vecB s n i 13) →
      VecForm s n i (.vaccc n i none) ((xreg s n i.xa, 4 * s.regN (Reg.VE_VLEN n)) :: vRangeB s n 13 i (s.regN (Reg.VE_VLEN n)))
        [(xreg s n i.xd, 4 * s.regN (Reg.VE_VLEN n))] 64 (vecOut s n i 13 rs) (some (vecEvs rs))
  | convert (rs : List VRes) (g seed lv : Nat) (scs : Option (List Nat)) (sc dyn : Bool) : vcvtBad i = false →
      g = 2 ^ (i.mod.toNat % 16) → dyn = bitOf i.mod.toNat 5 → sc = (bitOf i.mod.toNat 4 && !(bitOf i.mod.toNat 7)) →
      (seed, lv) = (match s.engineJob n with | some (j, l) => (j.seed, l) | none => (0, 0)) →
      scs = (vcvtScales s n i (s.regN (Reg.VE_VLEN n)) (vecA s n i i.st.toNat)).1 →
      rs = (vecA s n i i.st.toNat).zipIdx.map (fun x => vConvert i.st.toNat i.dt.toNat (bitOf i.mod.toNat 6)
        (scs.map (fun c => c.getD (x.2 / g) 0)) x.1 (if i.rnd = 1 then
          some (gen32 seed 2 (0x80 + lv) ((xreg s n i.xc + x.2) % 2 ^ 32) (s.regN (Reg.VE_X n 31))) else none)) →
      VecForm s n i (.vcvt n i)
        (vecAt s n i.xa i.st.toNat :: (if sc && !dyn then [(xreg s n i.xb, (s.regN (Reg.VE_VLEN n) + g - 1) / g)] else []))
        (vecAt s n i.xd i.dt.toNat :: (if sc && dyn then [(xreg s n i.xb, (s.regN (Reg.VE_VLEN n) + g - 1) / g)] else [])) 64
        (vecOut s n i i.dt.toNat rs ++ (if sc && dyn then [(xreg s n i.xb, (scs.getD []).map (BitVec.ofNat 8))] else [])) none

/-- What a vector instruction writes has been written: the bytes of its destinations, no other byte; the engine has counted it and gone
on (R114, R115). -/
def vecWrote (s t : State) (n : Nat) (outs : List (Nat × List Byte)) : Prop :=
  (∀ p ∈ outs, t.bytes (veBase n + p.1) p.2.length = p.2) ∧
    (∀ y, (∀ p ∈ outs, y < veBase n + p.1 ∨ veBase n + p.1 + p.2.length ≤ y) → t.bytes y 1 = s.bytes y 1) ∧
    t.regN (Reg.VE_PC n) = s.regN (Reg.VE_PC n) + 1 ∧ t.regN (Reg.VE_INSTR n) = min (s.regN (Reg.VE_INSTR n) + 1) 0xFFFFFFFF ∧
    t = { s with regs := t.regs, mem := t.mem, poison := t.poison, upsets := t.upsets, freeCtr := t.freeCtr }

/-! ### DSP cores and frames for launch -/

/-- Core faults (R178): a job fault in DSC0 to DSC11, a fallback fault of cause 1 in DSC12 to DSC15. -/
def coreFaulted (t : State) (n : Nat) : Prop :=
  if n < 12 then jobFault t
  else t.flag Fd.SAF_STATUS_FB_DOWN = true ∧ t.fld Fd.SAF_FB_FAULT_CAUSE = 1 ∧ t.fld Fd.SAF_FB_FAULT_UNIT = n

/-- Two states differ at most in registers and the DSP cores. -/
def CoresOnly (s t : State) : Prop := t = { s with regs := t.regs, dsp := t.dsp }

/-- Frames that wait for launch at a MAC, in its queue and before it (R399). -/
def framesAt (s : State) (m : Nat) : Nat := (launchQ s m).length + (Tbl.get (fun _ => []) s.launchWait m).length

/-- The memory and the registers of a slot's carrier stay; the slot is what it has become. -/
def SlotIs (s t : State) (c id : Nat) (y : SlotCtx) : Prop := t.slotCtx c id = some y ∧ t = { s with cars := t.cars, regs := t.regs }

/-! ### Streams, steps, batches -/

/-- Stream n is at rest and may begin a descriptor: `d` is the one at its PC, and `u` the state once it has been read (R239, R240). -/
def streamBegins (s : State) (n : Nat) (x : Stream) (d : List Byte) (u : State) : Prop :=
  s.phase = .running ∧ computeRunning s = true ∧ s.stream n = some x ∧ x.final = false ∧ x.abort = false ∧ x.cur = none ∧ x.runs = [] ∧
    x.reqs = [] ∧ mayBegin s x = true ∧ readDesc s x = ⟨d, false, none, u⟩

/-- The run of the descriptor that a stream begins. -/
def begunRun (s : State) (n : Nat) (x : Stream) (d : List Byte) : StreamRun :=
  ⟨x.nextRun, streamPc s n, d, s.slotOf (1000 + n), 0, 0, false, false, none⟩

/-- A stream's descriptor has ended: the stream is at rest again with its PC at `pc`, and no byte of a memory has changed. -/
def streamMoves (s t : State) (n : Nat) (x : Stream) (pc : Nat) : Prop :=
  t.stream n = some { x with nextRun := x.nextRun + 1 } ∧ streamPc t n = pc % 65536 ∧ MemKept s t

/-- A stream's completion ring lies in the host memory behind port p, which issues requests, and has a place at the bus address `a` (R243,
R405). -/
def ringAt (s : State) (n p a : Nat) : Prop :=
  s.fld (Fd.SDE_CTX_CR_CFG_SPACE (n / 4) (n % 4)) = 1 + p ∧ crWaits s n = false ∧
    a = s.fld (Fd.SDE_CTX_CR_BASE_ADDR (n / 4) (n % 4)) + 32 * s.fld (Fd.SDE_CTX_CR_HEAD_INDEX (n / 4) (n % 4))

/-- The one request in flight of a stream reads host memory of port p at `a` into device memory at `b`, and is the last of its copy. -/
def copyInFlight (s : State) (n : Nat) (x : Stream) (r : StreamRun) (q : SdeReq) (p a b m : Nat) : Prop :=
  s.phase = .running ∧ s.stream n = some x ∧ x.reqs = [q] ∧ x.runs = [r] ∧ x.cur = some r.id ∧ x.stop = none ∧ x.abort = false ∧ x.final = false ∧
    x.records = [] ∧ dOp r.desc = 1 ∧ dRec r.desc = false ∧ r.missed = false ∧ r.skip = false ∧ dTotal r.desc ≤ r.issued ∧ q.run = r.id ∧
    q.src = [.host p a m] ∧ q.dst = [.phys b m] ∧ q.got = [] ∧ p < 2

/-- No job pauses, no command waits for a stream. -/
def noneWaits (s : State) : Prop := (∀ j, s.owner = some j → j.pausing = false) ∧ ∀ c ∈ s.cmds, c.opcode ≠ 0x20 ∧ c.opcode ≠ 0x21

/-- A unit may store at an address: a powered bank, allowed by the firewall, no clear of the SRAMs (R222, R310, R443). -/
def mayStore (s : State) (origin a : Nat) : Prop :=
  bankOn s a = true ∧ fwAllows s origin a true = true ∧ s.flag Fd.BOOT_ZERO_SRAM_BUSY = false

/-- Attention engine n goes on when it is asked to (R147). -/
def aeReady (s : State) (n : Nat) : Prop :=
  s.phase = .running ∧ computeRunning s = true ∧ s.flag (Fd.AE_STATUS_RUN n) = true ∧ s.flag (Fd.AE_STATUS_FAULT n) = false ∧ waits s (aeAgent n) = false

/-- Gather unit n goes on when it is asked to (R245). -/
def eguReady (s : State) (n : Nat) : Prop :=
  s.phase = .running ∧ computeRunning s = true ∧ s.flag (Fd.EGU_STATUS_RUN n) = true ∧ waits s (eguAgent n) = false

/-! ### A device that does not run -/

/-- What the boot shows (Tables 17.2 and 17.3): halted for want of the boot flash or of a birth record, or awaiting firmware. -/
def bootShows (t : State) (r : BirthRecord) (f : BootFacts) : Prop :=
  (f.norResponds = false → t.fld Fd.BOOT_STATE_STATE = 5 ∧ t.fld Fd.BOOT_STATE_HALT_CAUSE = 2) ∧
  (f.norResponds = true → birthOk r = false → t.fld Fd.BOOT_STATE_STATE = 5 ∧ t.fld Fd.BOOT_STATE_HALT_CAUSE = 1) ∧
  (f.norResponds = true → birthOk r = true → t.fld Fd.BOOT_STATE_STATE = 1 ∧ t.flag Fd.CAP_STATUS_VALID = true ∧
    t.reg Reg.BOOT_SERIAL = birthSerial r)

/-- Nothing of what a device does is left in it: no job, command, reply, stream, wait, slot, path or key, and every memory inside reads
zero. -/
def State.clean (s : State) : Bool :=
  s.jobs.isEmpty && s.cmds.isEmpty && s.held.isEmpty && s.streams.isEmpty && s.waiters.isEmpty && s.cars.isEmpty && s.paths.isEmpty &&
    s.windows.isEmpty && s.keys.isEmpty && s.mem.isEmpty && s.oab.isEmpty && s.banks.isEmpty && s.arr.isEmpty && s.kvPages.isEmpty &&
    s.mainLog.isEmpty && s.decisions.isEmpty && s.identity.isNone && s.pba.isEmpty && s.msixOn.isEmpty &&
    s.poison.isEmpty && s.upsets.isEmpty && s.ctlMem.isEmpty && s.fbSoft.isEmpty && s.crHeld.isEmpty && s.tickPend.isEmpty && s.winOut.isEmpty &&
    s.dlSlots.isEmpty && s.reductions.isEmpty && s.redIn.isEmpty && s.redOut.isEmpty

/-- A device in reset or without supplies holds nothing of what it did (R453, R456, Table 18.5). -/
def State.resetClean (s : State) : Prop := s.phase = .held ∨ s.phase = .off → s.clean = true

/-- Commands that end the state in which a stopped REFCLK leaves the device (R470): the resets as wide as a cold one, and the supplies. -/
def endsClockLoss : Instr → Bool
  | .powerOnReset _ => true
  | .coldReset _ => true
  | .supplyReset _ _ => true
  | .supplyRemoval => true
  | _ => false

/-- Commands of the TAP (R482, R483): they work with their own clock. -/
def isTap : Instr → Bool
  | .extest => true
  | .samplePreload _ _ => true
  | .idcode => true
  | .clamp => true
  | .highz => true
  | .extestPulse => true
  | .extestTrain => true
  | .bypass _ => true
  | .tapReset => true
  | _ => false

/-- Commands that act on a device that does not run: resets and supplies, the release of a PERST# line, the SMBus (R479), the TAP. -/
def actsStopped : Instr → Bool
  | .powerOnReset _ => true
  | .coldResetRelease _ => true
  | .supplyRemoval => true
  | .smbusRead _ => true
  | .perstRelease _ _ => true
  | c => isTap c

/-- Commands that change what the whole device is doing. -/
def changesPhase : Instr → Bool
  | .coldResetRelease _ => true
  | .refclkStop => true
  | .portReset _ .perst _ => true
  | c => endsClockLoss c

/-- Commands with their effect on a device that runs and on no other. -/
def ordinary (c : Instr) : Bool := !(actsStopped c) && !(changesPhase c)

end Sys2Proof.Machine
end

