-- ==== Sys2Proof/Certificates/Slice0/Obligations.lean ====
section
/-! DEFINITION. What is stated about the device for the provers: one definition for each statement, in the terms of Safety. -/

open Sys2Proof Sys2Proof.Machine

/-- A step runs the command at the front of the queue, or an edge of REFCLK (95_what_each_step_holds.md). When command c is at the front
of the queue, a step answers exactly what exec answers for c on the state with the queue's rest; on an empty queue it answers the state
after one edge of REFCLK (the model's choice, log entry 7). -/
def Obligations.StepRunsFrontCommand : Prop :=
  ∀ (s : State) (c : Instr) (rest : List Instr),
    (s.pending = c :: rest → step s = exec c { s with pending := rest }) ∧
    (s.pending = [] → step s = .next (idle s))

/-- The queue is first in, first out: a step takes its front command and no command changes the rest (95_what_each_step_holds.md).
Whenever a step answers a next state, the commands that wait in it are those that waited before without the first. No command of the table
puts a command into the queue, takes a second one or reorders it. -/
def Obligations.StepTakesOneCommand : Prop :=
  ∀ s t : State, step s = .next t → t.pending = s.pending.tail

/-- No command is refused, and none faults while REFCLK runs (00_scope.md; R470). For every command of the table and every state of a
device whose REFCLK has not stopped, exec answers a next state. Commands with bad operands are answered by the device's own replies,
ignored writes and records. -/
def Obligations.EveryCommandCompletes : Prop :=
  ∀ (c : Instr) (s : State), s.phase ≠ .clockLost → ∃ t, exec c s = .next t

/-- A device without REFCLK is undefined until a cold or wider reset; one in reset or without supplies ignores ordinary commands (R470;
R453; R456; R457; R479; R482). REFCLK_STOP on a running device loses every clock and nothing else. From then on every command faults, but
for POWER_ON_RESET, COLD_RESET, SUPPLY_RESET of a supply below its reset level and SUPPLY_REMOVAL, after each of which the clock-lost
state is over, and the TAP's own commands. That the model faults where the device is undefined is the model's reading of R470. While the
device is held in reset or is off, a command other than the resets, the supplies, the release of a PERST# line, the SMBus and the TAP
leaves the whole state as it is (the model's choice for what is sent to a device that does not run, log entry 8); an off device answers
neither the SMBus nor the TAP, and on a held one PERST_RELEASE releases its line. -/
def Obligations.StoppedDevice : Prop :=
  ((∀ s : State, s.phase = .running → exec .refclkStop s = .next { s with phase := .clockLost }) ∧
    ∀ (c : Instr) (s : State), s.phase = .clockLost →
      (endsClockLoss c = true → (∀ sram mv, c = .supplyReset sram mv → belowReset s sram mv.toNat = true) →
        ∃ t, exec c s = .next t ∧ t.phase ≠ .clockLost) ∧
      (isTap c = true → ∃ t, exec c s = .next t ∧ t.phase = .clockLost) ∧
      (endsClockLoss c = false → isTap c = false → exec c s = .fault .clockLost)) ∧
    (∀ (c : Instr) (s : State),
    (s.phase = .held → actsStopped c = false → exec c s = .next s) ∧
    (s.phase = .off → actsStopped c = false → exec c s = .next s) ∧
    (s.phase = .off → isTap c = true → exec c s = .next s) ∧
    (∀ p l, s.phase = .held → exec (.perstRelease p l) s = .next { s with perst := s.perst.filter (fun q => q != p.val) }) ∧
    (∀ op, s.phase = .off → exec (.smbusRead op) s = .next s))

/-- Only resets, supplies and a stopped REFCLK change whether the device runs (R417; R453; R456; R457; R470). A command after which the
device runs, is held, is off or is without a clock where it was not before is one of POWER_ON_RESET, COLD_RESET, COLD_RESET_RELEASE,
SUPPLY_RESET, SUPPLY_REMOVAL, REFCLK_STOP, or a PORT_RESET by PERST#; that one only while the other port's PERST# is asserted. -/
def Obligations.OnlyResetsChangePhase : Prop :=
  ∀ (c : Instr) (s t : State), exec c s = .next t → t.phase ≠ s.phase →
    changesPhase c = true ∧
    (∀ p l, c = .portReset p .perst l → s.perst.contains (1 - p.val) = true ∧ t.phase = .held)

/-- Invariant of every step: a device in reset or off holds nothing of what it did (R453; R456; R457). For every state, if a device that
is held in reset or off holds no job, command, reply, stream, wait, slot, path, window, key or identity and its memories are empty, then
the same holds after every step, whatever command is at the front of the queue. So nothing that ran before a cold reset or a loss of
supplies reaches the boot after it. -/
def Obligations.ResetLeavesNothing : Prop :=
  ∀ s t : State, s.resetClean → step s = .next t → t.resetClean

/-- The state after reset meets the invariant ResetLeavesNothing and holds nothing in flight (R453; R457). State.reset meets the
invariant, its queue is empty, and nothing of what a device does is in it. -/
def Obligations.ResetStateIsClean : Prop :=
  State.reset.resetClean ∧ State.reset.clean = true ∧ State.reset.pending = [] ∧ Memory.wf State.reset.mem

/-- COLD_RESET, and PERST# on both ports, keep what Table 18.5 keeps and reset the rest (R346; R417; R453; R455; R477). On a running
device COLD_RESET, and PORT_RESET by PERST# of a port while the other port's PERST# is asserted, hold it in reset: nothing of what it did
is left, PMU.RESET_CAUSE is 1 for SYS_RST_N and 2 for both PERST#, the elapsed time, the sequence number of LOG and the sticky log stay,
device time goes on, host memory is untouched, LOG.OLDEST_SEQ equals NEXT_SEQ, and every other register reads its reset value. Before the
reset by both PERST# lines a record goes to the sticky log, if it has room; the lines are still asserted after it. The kind of that record
is the model's choice (log entry 96). -/
def Obligations.ColdResetKeeps : Prop :=
  ∀ (s : State) (perst : Bool) (p : Fin 2) (l : LinkFound), s.phase = .running →
    (∀ b : State, b = (if perst then s.log 0x0C 0 0x160000 0 2 else s) →
      ∃ t, exec (.coldReset perst) s = .next t ∧ t.phase = .held ∧ t.clean = true ∧ t.regN Reg.PMU_RESET_CAUSE = (if perst then 2 else 1) ∧
      t.reg Reg.LOG_OLDEST_SEQ = b.reg Reg.LOG_NEXT_SEQ ∧ b.regN Reg.TSU_ELAPSED = s.regN Reg.TSU_ELAPSED ∧
      (∀ o, o ≠ Reg.PMU_RESET_CAUSE → o ≠ Reg.LOG_OLDEST_SEQ → t.reg o = if coldKeeps o then b.reg o else regReset o) ∧
      t.stickyLog = b.stickyLog ∧ (perst = false → t.perst = s.perst) ∧ (perst = true → t.perst = [0, 1] ∧
        (s.stickyLog.length < 512 → ∃ r : LogRec, t.stickyLog = s.stickyLog ++ [r] ∧ r.kind = 0x0C ∧ r.data = 2)) ∧ t.devTime = s.devTime ∧ t.thermLow = s.thermLow ∧ t.host0 = s.host0 ∧ t.host1 = s.host1 ∧
      t.pending = s.pending) ∧
    (s.perst.contains (1 - p.val) = true → exec (.portReset p .perst l) s = exec (.coldReset true) s)

/-- SUPPLY_RESET is a cold reset with cause 3; SUPPLY_REMOVAL leaves nothing at all (R311; R453; R456; R457). SUPPLY_RESET on a running
device by a supply below its reset level, 9 % under its target, counts in SUP.SUPPLY_RESETS and holds the device in a cold reset with
PMU.RESET_CAUSE 3, the elapsed time kept; a reading that is not below it is shown and has no other effect. SUPPLY_REMOVAL from any state
switches the device off: every register is at its reset value, the memories, both logs and the device time are gone; only what lies
outside the device stays. -/
def Obligations.SupplyLossAndReset : Prop :=
  ∀ (s : State) (sram : Bool) (mv : BitVec 10),
    (s.phase = .running → belowReset s sram mv.toNat = false → ∃ t, exec (.supplyReset sram mv) s = .next t ∧
      OnlyRegs [if sram then Reg.SUP_VSRAM else Reg.SUP_VCORE] s t) ∧
    (s.phase = .running → belowReset s sram mv.toNat = true → ∃ t, exec (.supplyReset sram mv) s = .next t ∧ t.phase = .held ∧ t.clean = true ∧
      t.regN Reg.PMU_RESET_CAUSE = 3 ∧ t.regN Reg.SUP_SUPPLY_RESETS = min (s.regN Reg.SUP_SUPPLY_RESETS + 1) 0xFFFFFFFF ∧
      t.reg Reg.TSU_ELAPSED = s.reg Reg.TSU_ELAPSED ∧ t.devTime = s.devTime ∧ t.host0 = s.host0 ∧ t.host1 = s.host1) ∧
    ∃ t, exec .supplyRemoval s = .next t ∧ t.phase = .off ∧ t.clean = true ∧ (∀ o, t.reg o = regReset o) ∧ t.stickyLog = [] ∧
      t.devTime = 0 ∧ t.host0 = s.host0 ∧ t.host1 = s.host1 ∧ t.pending = s.pending

/-- POWER_ON_RESET and COLD_RESET_RELEASE boot the ROM to "awaiting firmware", or halt it (R429; R430; R431; R433; R457; R463). After
POWER_ON_RESET from any state, and after COLD_RESET_RELEASE of a held device, the device runs. If the boot flash does not respond
BOOT.STATE is 5 with HALT_CAUSE 2; if the birth record fails it is 5 with HALT_CAUSE 1; else it is 1, the capability record is valid and
BOOT.SERIAL is the record's. The record read is the one an earlier boot met, if any, and every later boot reads it again. A cold reset
keeps the elapsed time through the boot; while the PERST# lines of both ports are asserted it does not end. -/
def Obligations.BootOutcome : Prop :=
  ∀ (s : State) (f : BootFacts),
    (∃ t, exec (.powerOnReset f) s = .next t ∧ t.phase = .running ∧ t.jobs = [] ∧ t.cmds = [] ∧ bootShows t (birthOf s f) f ∧
      (f.norResponds = true → t.birth = some (birthOf s f))) ∧
    (∀ r, s.birth = some r → birthOf s f = r) ∧
    (s.phase = .held → s.perst.contains 0 = true → s.perst.contains 1 = true → exec (.coldResetRelease f) s = .next s) ∧
    (s.phase = .held → (s.perst.contains 0 && s.perst.contains 1) = false → ∃ t, exec (.coldResetRelease f) s = .next t ∧
      t.phase = .running ∧ bootShows t (birthOf s f) f ∧ (f.norResponds = true → t.birth = some (birthOf s f)) ∧
      t.reg Reg.TSU_ELAPSED = s.reg Reg.TSU_ELAPSED ∧ t.pending = s.pending)

/-- The TAP shares no state with the device, and no other command reaches it (R482; R483). A TAP command, in every state of the device,
changes the TAP's instruction register, its boundary cells and the value shifted out, and nothing else; IDCODE shifts out 0x1962_4B6F;
BYPASS, CLAMP and HIGHZ select the bypass register, which captures 0; EXTEST, EXTEST_PULSE and EXTEST_TRAIN act as BYPASS unless SYS_RST_N
is held low; TAP_RESET selects IDCODE. On a device that runs, a command that is not the TAP's leaves the TAP as it is, but for
POWER_ON_RESET and SUPPLY_REMOVAL. -/
def Obligations.TapSharesNoState : Prop :=
  ∀ (s t : State) (c : Instr),
    (isTap c = true → s.phase ≠ .off → ∃ u, exec c s = .next u ∧ u = { s with tapIr := u.tapIr, boundary := u.boundary, resp := u.resp } ∧
      (c = .idcode → u.tapIr = 0x02 ∧ u.resp = .value 0x19624B6F) ∧
      (∀ a b, c = .samplePreload a b → u.tapIr = 0x01 ∧ u.resp = .cells a ∧ u.boundary = b) ∧
      (c = .tapReset → u.tapIr = 0x02) ∧
      (c = .clamp → u.tapIr = 0x03 ∧ u.resp = .value 0) ∧ (c = .highz → u.tapIr = 0x04 ∧ u.resp = .value 0) ∧
      (c = .extest → u.tapIr = 0x00 ∧ (sysRstLow s = false → u.resp = .value 0)) ∧
      (c = .extestPulse → u.tapIr = 0x05 ∧ (sysRstLow s = false → u.resp = .value 0)) ∧
      (c = .extestTrain → u.tapIr = 0x06 ∧ (sysRstLow s = false → u.resp = .value 0)) ∧
      (∀ k : BitVec 8, c = .bypass k → 7 ≤ k.toNat → u.tapIr = k ∧ u.resp = .value 0)) ∧
    (isTap c = false → (∀ f, c ≠ .powerOnReset f) → c ≠ .supplyRemoval → exec c s = .next t → t.tapIr = s.tapIr ∧ t.boundary = s.boundary)

/-- SMBUS_READ never changes the device: a read returns a copy, anything else NACK (R479). While the device runs and during every reset,
SMBUS_READ changes nothing but the value on the bus. Codes 0x10 to 0x13 read TEMP, VDD_CORE, VDD_SRAM and the AVS target; a write is
answered NACK, as is a code outside Table 20.4. Without supplies it is not answered. -/
def Obligations.SmbusReadsOnly : Prop :=
  ∀ (s : State) (op : SmbOp) (c : BitVec 8),
    (s.phase = .running ∨ s.phase = .held → exec (.smbusRead op) s = .next { s with resp := smbAnswer s op }) ∧
    (s.phase = .off → exec (.smbusRead op) s = .next s) ∧
    (smbAnswer s (.write c) = .nack) ∧
    (smbAnswer s (.readWord c) ≠ .nack ↔
      c.toNat ∈ [0x01, 0x02, 0x10, 0x11, 0x12, 0x13, 0x20, 0x30, 0x31, 0x32, 0x33]) ∧
    smbAnswer s (.readWord 0x10) = .value (BitVec.ofNat 64 (s.fld Fd.SUP_TEMP_DEGC)) ∧
    smbAnswer s (.readWord 0x13) = .value (BitVec.ofNat 64 (s.fld Fd.PMU_AVS_TARGET_MV))

/-- A control-space access that the firewall refuses is counted and recorded, and changes nothing else (R9; R310; R462). For every command
that writes one register of the control space (doorbells, queue, slot, stream and time registers, semaphores, interrupt registers,
firewall and power registers, any other register): when its origin may not write there, the write is discarded, FW.REFUSED counts, FW.LAST
and LOG hold the origin and the address, no other register and no other part of the state changes. For a claim of a semaphore and every
other register read the same holds, and the read returns 0, or Unsupported Request to a host port, which PORT[p].UR_SENT counts. -/
def Obligations.FirewallRefusalHasNoOtherEffect : Prop :=
  ∀ (s : State) (c : Instr) (origin off : Nat), s.phase = .running → hostInReset s origin = false → retainReach s off = true →
    (writeOf c = some (origin, off) → fwAllows s origin (ctlBase + off) true = false →
      ∃ t, exec c s = .next t ∧ t.resp = s.resp ∧ refusedAt [] s t origin (ctlBase + off) true) ∧
    (readOf c = some (origin, off) → fwAllows s origin (ctlBase + off) false = false →
      ∃ t, exec c s = .next t ∧ t.resp = (if origin = 5 ∨ origin = 6 then .unsupported else .value 0) ∧
        refusedAt (if origin = 5 ∨ origin = 6 then [Reg.PORT_UR_SENT (origin - 5)] else []) s t origin (ctlBase + off) false)

/-- REGISTER_WRITE of a register without a rule of its own takes its RW bits and leaves its reserved and read-only bits; a bad size is
discarded (R8; R9; R10; R407). A write of 4 bytes of a 32-bit register, or of 8 bytes of a 64-bit one, of the SAF, FFD, KAT, DET, PMU,
SUP, DMMU and DSC blocks whose writes have no rule of their own, that the firewall lets pass: RW bits take the value, W1C bits written 1
clear, W1S bits written 1 set, every other bit of the register and every other register stays, and nothing else of the state changes. A
write of another length or alignment changes nothing but LOG, where it is recorded, and UR_SENT of a host port. -/
def Obligations.PlainRegisterWrite : Prop :=
  ∀ (s : State) (o : Fin 64) (off : BitVec 26) (v : Word), s.phase = .running →
    (∀ (f : RegFam) (len : BitVec 13) (x : Nat), (f.wide = false ∧ len = 4 ∧ off.toNat % 4 = 0 ∧ x = v.toNat % 2 ^ 32) ∨
        (f.wide = true ∧ len = 8 ∧ off.toNat % 8 = 0 ∧ x = v.toNat) →
      regLookup off.toNat = some f → accMask off.toNat .rwl = 0 → plainOff off.toNat = true → writePasses s o.val off.toNat = true →
      ∃ t, exec (.registerWrite o off len v) s = .next t ∧ OnlyRegs [off.toNat] s t ∧
        ∀ i, i < 64 → t.regBit off.toNat i =
          (if bitOf (accMask off.toNat .rw).toNat i then bitOf x i
           else (s.regBit off.toNat i && !(bitOf x i && bitOf (accMask off.toNat .w1c).toNat i)) ||
             (bitOf x i && bitOf (accMask off.toNat .w1s).toNat i))) ∧
    (∀ len : BitVec 13, hostInReset s o.val = false → sizeOk off.toNat len.toNat = false → ∃ t, exec (.registerWrite o off len v) s = .next t ∧
      logged t 0x02 o.val (ctlBase + off.toNat) v.toNat true ∧ t = { s with regs := t.regs, mainLog := t.mainLog } ∧
      (o.val = 5 ∨ o.val = 6 → t.regN (Reg.PORT_UR_SENT (o.val - 5)) = min (s.regN (Reg.PORT_UR_SENT (o.val - 5)) + 1) 0xFFFFFFFF ∧
        RegsKept (Reg.PORT_UR_SENT (o.val - 5) :: logRegs) s t) ∧
      (o.val ≠ 5 → o.val ≠ 6 → RegsKept logRegs s t))

/-- An access to an unassigned offset returns 0, has no effect and is recorded with its origin (R11). A 4-byte read or write at an offset
outside the capability block at which no register lies: nothing changes but LOG, whose newest record is of kind 0x01 with the initiator's
origin and the device physical address; the read returns 0. An 8-byte access to two such words does the same for each. -/
def Obligations.UnassignedOffset : Prop :=
  ∀ (s : State) (o : Fin 64) (off : BitVec 26) (v : Word), s.phase = .running → off.toNat % 4 = 0 → inCap off.toNat = false →
    ¬(Reg.SEM_CLAIM 0 ≤ off.toNat ∧ off.toNat < Reg.SEM_CLAIM 64) → regAt off.toNat = none →
    (readPasses s o.val off.toNat = true → ∃ t, exec (.rcRead o off 4) s = .next t ∧ exec (.latchingRead o off 4) s = .next t ∧
      t.resp = .value 0 ∧ logged t 0x01 o.val (ctlBase + off.toNat) 0 false ∧
      t = { s with regs := t.regs, mainLog := t.mainLog, resp := t.resp } ∧ RegsKept logRegs s t) ∧
    (writePasses s o.val off.toNat = true → ∃ t, exec (.registerWrite o off 4 v) s = .next t ∧
      logged t 0x01 o.val (ctlBase + off.toNat) 0 true ∧ t = { s with regs := t.regs, mainLog := t.mainLog } ∧ RegsKept logRegs s t) ∧
    (off.toNat % 8 = 0 → inCap (off.toNat + 4) = false → regLookup (off.toNat + 4) = none →
      (readPasses s o.val off.toNat = true → ∃ t, exec (.rcRead o off 8) s = .next t ∧ exec (.latchingRead o off 8) s = .next t ∧
        t.resp = .value 0 ∧ logged t 0x01 o.val (ctlBase + off.toNat + 4) 0 false ∧
        t = { s with regs := t.regs, mainLog := t.mainLog, resp := t.resp } ∧ RegsKept logRegs s t) ∧
      (writePasses s o.val off.toNat = true → ∃ t, exec (.registerWrite o off 8 v) s = .next t ∧
        logged t 0x01 o.val (ctlBase + off.toNat + 4) 0 true ∧ t = { s with regs := t.regs, mainLog := t.mainLog } ∧ RegsKept logRegs s t))

/-- RC_READ returns a counter and clears it; LATCHING_READ holds the ledger's other registers (R9; R169; R276; R294). A 4-byte read of a
32-bit register outside the semaphores that the firewall lets pass returns its value, write-only bits as 0, and clears its RC bits,
changing no other register; of a register that a ledger has latched it returns the latched value. A read of SYN.INIT_TOTAL, the first
register of the object ledger, returns its value and latches the four others as they are at that instant. -/
def Obligations.ReadingAndClearing : Prop :=
  ∀ (s : State) (o : Fin 64) (off : BitVec 26) (f : RegFam), s.phase = .running →
    (off.toNat % 4 = 0 → inCap off.toNat = false → ¬(Reg.SEM_CLAIM 0 ≤ off.toNat ∧ off.toNat < Reg.SEM_CLAIM 64) →
      regLookup off.toNat = some f → f.wide = false → latches off.toNat = [] → readPasses s o.val off.toNat = true →
      ∃ t, exec (.rcRead o off 4) s = .next t ∧ exec (.latchingRead o off 4) s = .next t ∧
        t.resp = .value (seenReg s off.toNat &&& 0xFFFFFFFF) ∧ t = { s with regs := t.regs, resp := t.resp } ∧ RegsKept [off.toNat] s t ∧
        t.reg off.toNat = (s.reg off.toNat &&& ~~~(accMask off.toNat .rc &&& 0xFFFFFFFF))) ∧
    (readPasses s o.val Reg.SYN_INIT_TOTAL = true →
      ∃ t, exec (.latchingRead o (BitVec.ofNat 26 Reg.SYN_INIT_TOTAL) 8) s = .next t ∧
        t.resp = .value (seenReg s Reg.SYN_INIT_TOTAL) ∧ t = { s with latched := t.latched, resp := t.resp } ∧
        (∀ r ∈ [Reg.SYN_SIG_TOTAL, Reg.SYN_TAKE_TOTAL, Reg.SYN_RETIRED_TOTAL, Reg.SYN_COUNT_SUM], seenReg t r = shownReg s r))

/-- SEM_CLAIM grants a free semaphore, wants one that the other port holds; a tie goes where the TIE bit points, the next one the other
way (R412; R415; R426; R414). A read of SEM[i].CLAIM by a host port: a free semaphore is granted, counted, and the port's WANT bit clears;
one it holds is granted again without another effect; one that the other port holds sets the reader's WANT bit and is not granted, and its
holder stays. The value returned has GRANTED, TIE_LOST 0 and HOLDER. No other register, no other semaphore and nothing else changes. A
read by another origin shows HOLDER and claims nothing. When both ports read CLAIM of a free semaphore in one SEM cycle, the port that TIE
bit i names (0 HP0, 1 HP1) holds it afterwards, the bit has inverted, SEM.TIES has counted, the loser's WANT bit is set, and the read of
the port asked about returns GRANTED to the winner and TIE_LOST to the loser, with HOLDER. On a held semaphore the two reads are answered
one by one under R412. -/
def Obligations.SemaphoreClaim : Prop :=
  (∀ (s : State) (o i : Fin 64) (p : Nat), s.phase = .running → readPasses s o.val (Reg.SEM_CLAIM i.val) = true →
    (p < 2 → o.val = 5 + p → ∃ t, exec (.semClaim o i false) s = .next t ∧ t = { s with regs := t.regs, resp := t.resp } ∧
      RegsKept [heldReg p, wantReg p, Reg.SEM_CLAIMS] s t ∧
      (∀ j, j < 64 → j ≠ i.val → t.regBit (heldReg p) j = s.regBit (heldReg p) j ∧ t.regBit (wantReg p) j = s.regBit (wantReg p) j) ∧
      (semHolder s i.val = 0 → holdsSem t p i.val = true ∧ t.regBit (wantReg p) i.val = false ∧
        t.regN Reg.SEM_CLAIMS = min (s.regN Reg.SEM_CLAIMS + 1) 0xFFFFFFFF ∧ t.resp = .value (BitVec.ofNat 64 (2 ^ 31 + p + 1))) ∧
      (semHolder s i.val = p + 1 → t.regs = s.regs ∧ t.resp = .value (BitVec.ofNat 64 (2 ^ 31 + p + 1))) ∧
      (semHolder s i.val = 2 - p → t.reg (heldReg p) = s.reg (heldReg p) ∧ t.regBit (wantReg p) i.val = true ∧
        t.resp = .value (BitVec.ofNat 64 (2 - p)))) ∧
    (o.val ≠ 5 → o.val ≠ 6 → exec (.semClaim o i false) s = .next { s with resp := .value (BitVec.ofNat 64 (semHolder s i.val)) })) ∧
    (∀ (s : State) (o i : Fin 64) (p : Nat), s.phase = .running → p < 2 → o.val = 5 + p →
    readPasses s o.val (Reg.SEM_CLAIM i.val) = true →
    (semHolder s i.val = 0 → ∀ w, w = b2n (s.regBit Reg.SEM_TIE i.val) → ∃ t, exec (.semClaim o i true) s = .next t ∧
      holdsSem t w i.val = true ∧ holdsSem t (1 - w) i.val = false ∧ s.regBit Reg.SEM_TIE i.val = !(t.regBit Reg.SEM_TIE i.val) ∧
      t.regN Reg.SEM_TIES = min (s.regN Reg.SEM_TIES + 1) 0xFFFFFFFF ∧ t.regBit (wantReg (1 - w)) i.val = true ∧
      t.resp = .value (BitVec.ofNat 64 ((if p = w then 2 ^ 31 else 2 ^ 30) + w + 1)) ∧
      t = { s with regs := t.regs, resp := t.resp } ∧
      RegsKept [Reg.SEM_HELD_HP0, Reg.SEM_HELD_HP1, Reg.SEM_WANT_HP0, Reg.SEM_WANT_HP1, Reg.SEM_TIE, Reg.SEM_CLAIMS, Reg.SEM_TIES] s t) ∧
    (semHolder s i.val ≠ 0 → ∀ q : Fin 64, q.val = 6 - p → readPasses s q.val (Reg.SEM_CLAIM i.val) = true →
      ∃ u t, exec (.semClaim q i false) s = .next u ∧ exec (.semClaim o i false) u = .next t ∧ exec (.semClaim o i true) s = .next t))

/-- SEM_RELEASE by the holder frees the semaphore and wakes the port that wants it; any other write is ignored and recorded (R413; R415).
A write of any value to SEM[i].CLAIM by the port that holds semaphore i frees it. If the other port's WANT bit is set it clears and
SEM_FREE, private source 32 of that port, is pending afterwards; else nothing but HELD changes. A write by another origin changes nothing
but LOG, whose newest record is of kind 0x02 with the register's address and the value. The commands in flight are untouched. -/
def Obligations.SemaphoreRelease : Prop :=
  ∀ (s : State) (o i : Fin 64) (v : Word32), s.phase = .running → writePasses s o.val (Reg.SEM_CLAIM i.val) = true →
    (∀ p, p < 2 → o.val = 5 + p → holdsSem s p i.val = true → ∃ t, exec (.semRelease o i v) s = .next t ∧
      holdsSem t p i.val = false ∧ t.cmds = s.cmds ∧ t.mem = s.mem ∧
      (∀ j, j < 64 → j ≠ i.val → t.regBit (heldReg p) j = s.regBit (heldReg p) j) ∧
      (s.regBit (wantReg (1 - p)) i.val = true →
        t.regBit (wantReg (1 - p)) i.val = false ∧ t.regBit (Reg.TGT_PRIV_PEND (1 - p)) 32 = true ∧
        RegsKept [heldReg p, wantReg (1 - p), Reg.TGT_PRIV_PEND (1 - p), Reg.TGT_MERGED (1 - p)] s t) ∧
      (s.regBit (wantReg (1 - p)) i.val = false → OnlyRegs [heldReg p] s t)) ∧
    (¬((o.val = 5 ∨ o.val = 6) ∧ holdsSem s (o.val - 5) i.val = true) →
      ∃ t, exec (.semRelease o i v) s = .next t ∧ logged t 0x02 o.val (ctlBase + Reg.SEM_CLAIM i.val) v.toNat true ∧
        t = { s with regs := t.regs, mainLog := t.mainLog } ∧ RegsKept logRegs s t)

/-- INTERRUPT_DELIVERY pushes the highest ready level above the top of the stack, and nothing when frozen or disabled (R422; R423). A
target that is enabled and not frozen, outside Retain: when a ready level above the top is unmasked, the highest such level is pushed at
the stack's depth, becomes TOP, DEPTH and DELIVERED rise by one and its coalescer is cleared; a host's PBA bit of it clears. Ready levels
of a host target whose vector is masked set their PBA bits. A target that is disabled or frozen delivers nothing: the state stays as it
is. COALESCE_TIMEOUT of a level whose timer has run for TIME microseconds of elapsed time makes it ready, and changes nothing else; before
that it changes nothing. -/
def Obligations.InterruptDelivery : Prop :=
  ∀ (s : State) (t : Fin 7), s.phase = .running →
    (s.flag (Fd.TGT_CTRL_EN t.val) = false ∨ s.flag (Fd.TGT_STATUS_FROZEN t.val) = true → exec (.interruptDelivery t) s = .next s) ∧
    (s.flag (Fd.TGT_CTRL_EN t.val) = true → s.flag (Fd.TGT_STATUS_FROZEN t.val) = false → s.fld Fd.PMU_STATE_STATE ≠ 2 →
      stackDepth s t.val < 16 → ∃ u, exec (.interruptDelivery t) s = .next u ∧
      u = { s with regs := u.regs, coal := u.coal, pba := u.pba, msixSent := u.msixSent } ∧
      RegsKept [Reg.TGT_STACK t.val, Reg.TGT_STATUS t.val, Reg.TGT_DELIVERED t.val] s u ∧
      (∀ v, (readyLevels s t.val).find? (fun v => levelOpen s t.val v) = some v →
        (∀ x, x ∈ readyLevels s t.val → levelOpen s t.val x = true → x ≤ v) ∧
        stackDepth u t.val = stackDepth s t.val + 1 ∧ stackAt u t.val (stackDepth s t.val) = v ∧ u.fld (Fd.TGT_STATUS_TOP t.val) = v ∧
        u.coalOf t.val v = ⟨0, false, 0, false⟩ ∧ u.regN (Reg.TGT_DELIVERED t.val) = min (s.regN (Reg.TGT_DELIVERED t.val) + 1) 0xFFFFFFFF ∧
        (t.val < 2 → (16 * t.val + v) ∉ u.pba)) ∧
      ((readyLevels s t.val).find? (fun v => levelOpen s t.val v) = none → u.regs = s.regs ∧ u.coal = s.coal) ∧
      (∀ v, v ∈ readyLevels s t.val → levelOpen s t.val v = false → (16 * t.val + v) ∈ u.pba)) ∧
    (∀ v : Fin 16, coalDue s t.val v.val = false → exec (.coalesceTimeout t v) s = .next s) ∧
    (∀ v : Fin 16, (s.coalOf t.val v.val).timer = true →
      625 * s.fld (Fd.TGT_COAL_TIME t.val v.val) ≤ 4 * (s.elapsed - (s.coalOf t.val v.val).start) → ∃ u, exec (.coalesceTimeout t v) s = .next u ∧
      u.coalOf t.val v.val = { s.coalOf t.val v.val with ready := true } ∧ u = { s with coal := u.coal } ∧
      ∀ a b, b < 16 → ¬(a = t.val ∧ b = v.val) → u.coalOf a b = s.coalOf a b)

/-- EOI of the top level pops it; any other EOI freezes the stack; STACK_CLR thaws and empties it (R424; R425; R427). EOI by the target's
own origin or SC with the level on top of a stack that is not frozen pops it: DEPTH falls by one and TOP is the level beneath, or 0. If an
enabled pending bit of the level is left the level is ready at once. With another level, or on an empty stack: FROZEN sets, DEPTH and the
stack stay, STACK_ORDER counts, private source 48 + t of SC is pending, LOG records the EOI as kind 0x02 with the register's address and
the value. STACK_CLR with bit 1 set empties the stack, clears FROZEN and sets EN from bit 0. From any other origin both are ignored and
recorded. -/
def Obligations.EndOfService : Prop :=
  ∀ (s : State) (t : Fin 7) (o : Fin 64) (v : Word32), s.phase = .running →
    (writePasses s o.val (Reg.TGT_EOI t.val) = true → ownsTarget o.val t.val = true →
      (stackDepth s t.val ≠ 0 → s.fld (Fd.TGT_STATUS_TOP t.val) = v.toNat % 16 → s.flag (Fd.TGT_STATUS_FROZEN t.val) = false →
        stackDepth s t.val ≤ 16 → ∃ u, exec (.eoi t o v) s = .next u ∧ stackDepth u t.val = stackDepth s t.val - 1 ∧
        u.fld (Fd.TGT_STATUS_TOP t.val) = (if stackDepth s t.val = 1 then 0 else stackAt s t.val (stackDepth s t.val - 2)) ∧
        u = { s with regs := u.regs, coal := u.coal } ∧ RegsKept [Reg.TGT_STACK t.val, Reg.TGT_STATUS t.val] s u ∧
        (levelPending u t.val (v.toNat % 16) = true → (u.coalOf t.val (v.toNat % 16)).ready = true)) ∧
      (stackDepth s t.val = 0 ∨ s.fld (Fd.TGT_STATUS_TOP t.val) ≠ v.toNat % 16 → ∃ u, exec (.eoi t o v) s = .next u ∧
        u.flag (Fd.TGT_STATUS_FROZEN t.val) = true ∧ stackDepth u t.val = stackDepth s t.val ∧
        u.reg (Reg.TGT_STACK t.val) = s.reg (Reg.TGT_STACK t.val) ∧
        u.regN (Reg.TGT_STACK_ORDER t.val) = min (s.regN (Reg.TGT_STACK_ORDER t.val) + 1) 0xFFFFFFFF ∧
        u.regBit (Reg.TGT_PRIV_PEND 2) (48 + t.val) = true ∧ logged u 0x02 o.val (ctlBase + Reg.TGT_EOI t.val) v.toNat true)) ∧
    (writePasses s o.val (Reg.TGT_CTRL t.val) = true → ownsTarget o.val t.val = true → bitOf v.toNat 1 = true →
      ∃ u, exec (.stackClr t o v) s = .next u ∧ stackDepth u t.val = 0 ∧ u.regN (Reg.TGT_STACK t.val) = 0 ∧
        u.flag (Fd.TGT_STATUS_FROZEN t.val) = false ∧ u.fld (Fd.TGT_CTRL_EN t.val) = v.toNat % 2 ∧
        OnlyRegs [Reg.TGT_CTRL t.val, Reg.TGT_STACK t.val, Reg.TGT_STATUS t.val] s u) ∧
    (writePasses s o.val (Reg.TGT_CTRL t.val) = true → ownsTarget o.val t.val = false →
      ∃ u, exec (.stackClr t o v) s = .next u ∧ logged u 0x02 o.val (ctlBase + Reg.TGT_CTRL t.val) v.toNat true ∧
        u = { s with regs := u.regs, mainLog := u.mainLog } ∧ RegsKept logRegs s u)

/-- SWSET, PENDING_CLEAR, INTERRUPT_ENABLE and ROUTE_WRITE: what each sets and clears (R419; R420; R421; R427). SWSET of a software source
leaves its pending bit set; a lower number is ignored and recorded. PENDING_CLEAR of a private word by its target clears exactly the bits
written 1; from another origin it clears none. INTERRUPT_ENABLE of a private word sets the enables to the value and keeps every pending
bit. ROUTE_WRITE of a target that exists by an origin below 5, or by a port that holds SEM0, sets TARGET and LEVEL; of target 7, or by a
port without SEM0, it changes nothing but LOG. -/
def Obligations.PendingAndRoutes : Prop :=
  ∀ (s : State) (o : Fin 64) (v : Word32) (w : Word) (t : Fin 7) (x : Fin 2048), s.phase = .running →
    (writePasses s o.val Reg.ICN_SWSET = true →
      (1024 ≤ v.toNat % 2048 → ∃ u, exec (.swset o v) s = .next u ∧
        u.regBit (Reg.ICN_SH_PEND (v.toNat % 2048 / 32)) (v.toNat % 2048 % 32) = true ∧ u = { s with regs := u.regs, coal := u.coal }) ∧
      (v.toNat % 2048 < 1024 → ∃ u, exec (.swset o v) s = .next u ∧ logged u 0x02 o.val (ctlBase + Reg.ICN_SWSET) v.toNat true ∧
        u = { s with regs := u.regs, mainLog := u.mainLog } ∧ RegsKept logRegs s u)) ∧
    (writePasses s o.val (Reg.TGT_PRIV_PEND t.val) = true →
      (o.val = targetOrigin t.val → ∃ u, exec (.pendingClear (.priv t) o w) s = .next u ∧ OnlyRegs [Reg.TGT_PRIV_PEND t.val] s u ∧
        u.reg (Reg.TGT_PRIV_PEND t.val) = (s.reg (Reg.TGT_PRIV_PEND t.val) &&& ~~~w)) ∧
      (o.val ≠ targetOrigin t.val → ∃ u, exec (.pendingClear (.priv t) o w) s = .next u ∧
        logged u 0x02 o.val (ctlBase + Reg.TGT_PRIV_PEND t.val) w.toNat true ∧
        u = { s with regs := u.regs, mainLog := u.mainLog } ∧ RegsKept logRegs s u)) ∧
    (writePasses s o.val (Reg.TGT_PRIV_EN t.val) = true → ownsTarget o.val t.val = true →
      ∃ u, exec (.interruptEnable (.priv t) o w) s = .next u ∧ u.reg (Reg.TGT_PRIV_EN t.val) = w ∧
        u = { s with regs := u.regs, coal := u.coal } ∧ RegsKept [Reg.TGT_PRIV_EN t.val] s u) ∧
    (writePasses s o.val (Reg.ICN_ROUTE x.val) = true →
      (o.val < 5 ∨ (o.val ≤ 6 ∧ holdsSem s (o.val - 5) 0 = true) → bitsOf v.toNat 6 4 ≠ 7 →
        ∃ u, exec (.routeWrite x o v) s = .next u ∧ u.fld (Fd.ICN_ROUTE_TARGET x.val) = bitsOf v.toNat 6 4 ∧
          u.fld (Fd.ICN_ROUTE_LEVEL x.val) = v.toNat % 16 ∧ u = { s with regs := u.regs, coal := u.coal } ∧ RegsKept [Reg.ICN_ROUTE x.val] s u) ∧
      (bitsOf v.toNat 6 4 = 7 → ∃ u, exec (.routeWrite x o v) s = .next u ∧
        logged u 0x02 o.val (ctlBase + Reg.ICN_ROUTE x.val) v.toNat true ∧
        u = { s with regs := u.regs, mainLog := u.mainLog } ∧ RegsKept logRegs s u))

/-- Doorbells, queue configuration and RQ_HEAD: taken from the queue's own port, judged against the ring (R252; R253; R254).
SQ_TAIL_DOORBELL from the queue's port with an index inside the ring sets SQ_TAIL alone; beyond the ring it sets BAD_DB, leaves SQ_TAIL
and is recorded. QUEUE_CFG_WRITE that sets ENABLE from 0 takes its LOG2N of 4 to 12 and restarts both rings with phase 1; while ENABLE is
1 it leaves LOG2N. RQ_HEAD_WRITE from the port, with no record held, sets RQ_HEAD alone. From another origin each is ignored and recorded.
-/
def Obligations.DoorbellsAndRings : Prop :=
  ∀ (s : State) (p : Fin 2) (q : Fin 32) (o : Fin 64) (v : Word32), s.phase = .running →
    (writePasses s o.val (Reg.Q_SQ_TAIL p.val q.val) = true →
      (o.val = 5 + p.val → v.toNat % 2 ^ 12 < ringSize s p.val q.val → ∃ t, exec (.sqTailDoorbell p q o v) s = .next t ∧
        t.fld (Fd.Q_SQ_TAIL_INDEX p.val q.val) = v.toNat % 2 ^ 12 ∧ OnlyRegs [Reg.Q_SQ_TAIL p.val q.val] s t) ∧
      (o.val = 5 + p.val → ringSize s p.val q.val ≤ v.toNat % 2 ^ 12 → ∃ t, exec (.sqTailDoorbell p q o v) s = .next t ∧
        t.flag (Fd.Q_STATUS_BAD_DB p.val q.val) = true ∧ logged t 0x02 o.val (ctlBase + Reg.Q_SQ_TAIL p.val q.val) v.toNat true ∧
        t = { s with regs := t.regs, mainLog := t.mainLog } ∧ RegsKept (Reg.Q_STATUS p.val q.val :: logRegs) s t) ∧
      (o.val ≠ 5 + p.val → ∃ t, exec (.sqTailDoorbell p q o v) s = .next t ∧
        logged t 0x02 o.val (ctlBase + Reg.Q_SQ_TAIL p.val q.val) v.toNat true ∧
        t = { s with regs := t.regs, mainLog := t.mainLog } ∧ RegsKept logRegs s t)) ∧
    (writePasses s o.val (Reg.Q_CFG p.val q.val) = true → o.val = 5 + p.val →
      (s.fld (Fd.Q_CFG_ENABLE p.val q.val) = 0 → bitsOf v.toNat 31 31 = 1 → 4 ≤ v.toNat % 16 → v.toNat % 16 ≤ 12 →
        noneHeld s → ∃ t, exec (.queueCfgWrite p q o v) s = .next t ∧ ringSize t p.val q.val = 2 ^ (v.toNat % 16) ∧
        t.fld (Fd.Q_CFG_ENABLE p.val q.val) = 1 ∧ t.regN (Reg.Q_SQ_HEAD p.val q.val) = 0 ∧ t.regN (Reg.Q_SQ_TAIL p.val q.val) = 0 ∧
        t.regN (Reg.Q_RQ_HEAD p.val q.val) = 0 ∧ t.fld (Fd.Q_RQ_TAIL_INDEX p.val q.val) = 0 ∧ t.fld (Fd.Q_RQ_TAIL_PHASE p.val q.val) = 1 ∧
        t.reg (Reg.Q_IN_FLIGHT p.val q.val) = s.reg (Reg.Q_IN_FLIGHT p.val q.val) ∧
        t.reg (Reg.Q_FETCHED p.val q.val) = s.reg (Reg.Q_FETCHED p.val q.val) ∧ t.reg (Reg.Q_REPLIED p.val q.val) = s.reg (Reg.Q_REPLIED p.val q.val)) ∧
      (s.fld (Fd.Q_CFG_ENABLE p.val q.val) = 1 → ∃ t, exec (.queueCfgWrite p q o v) s = .next t ∧
        ringSize t p.val q.val = ringSize s p.val q.val ∧ t.fld (Fd.Q_CFG_ENABLE p.val q.val) = bitsOf v.toNat 31 31)) ∧
    (writePasses s o.val (Reg.Q_RQ_HEAD p.val q.val) = true → o.val = 5 + p.val → noneHeld s → ∃ t, exec (.rqHeadWrite p q o v) s = .next t ∧
      t.fld (Fd.Q_RQ_HEAD_INDEX p.val q.val) = v.toNat % 2 ^ 12 ∧ OnlyRegs [Reg.Q_RQ_HEAD p.val q.val] s t)

/-- PORT_RESET frees the port's semaphores, stops its queues, empties its interrupt stack, masks its vectors and leaves the rest (R272;
R405; R416; R417; R422). A reset of port p that is not the second PERST#: no semaphore is held by p and its WANT bits are 0 afterwards,
the ENABLE bit of every queue of p is clear and their records wait, the stack of its target is empty and not frozen, no MSI-X vector of it
is unmasked or pending, its configuration space is at its reset values, PORT_RESETS has counted, RESET_CAUSE names the cause, PEER_RESET
is pending at the other port, no command of the port is left that had not begun without its reply held, and a POWER_STATE on its way into
Retain is marked as one that had; jobs, slots, device memories and the other port's queues continue. While PERST# of p is asserted a
further reset of it changes nothing. PERST_RELEASE ends the reset and shows the link as it has come up, and lets the stream records go
that waited for the port. -/
def Obligations.PortResetTakesTheTable : Prop :=
  ∀ (s : State) (p : Fin 2) (k : PortCause) (l : LinkFound), s.phase = .running →
    (s.perst.contains p.val = true → ¬(k = .perst ∧ s.perst.contains (1 - p.val) = true) → exec (.portReset p k l) s = .next s) ∧
    (s.perst.contains p.val = false → ¬(k = .perst ∧ s.perst.contains (1 - p.val) = true) → ∃ t, exec (.portReset p k l) s = .next t ∧
      t.regN (heldReg p.val) = 0 ∧ t.regN (wantReg p.val) = 0 ∧ (∀ q, q < 32 → t.fld (Fd.Q_CFG_ENABLE p.val q) = 0) ∧
      stackDepth t p.val = 0 ∧ t.flag (Fd.TGT_STATUS_FROZEN p.val) = false ∧ (∀ v, v < 16 → (16 * p.val + v) ∉ t.msixOn ∧ (16 * p.val + v) ∉ t.pba) ∧
      t.regN (Reg.PORT_PORT_RESETS p.val) = min (s.regN (Reg.PORT_PORT_RESETS p.val) + 1) 0xFFFFFFFF ∧
      t.fld (Fd.PORT_RESET_CAUSE_CAUSE p.val) = portCauseNum k ∧ t.regBit (Reg.TGT_PRIV_PEND (1 - p.val)) 33 = true ∧
      t.d3.contains p.val = false ∧ barLogOf t p.val = 7 ∧ t.perst.contains p.val = (k == .perst) ∧
      Tbl.get (fun _ => 0) t.aer p.val = 0 ∧
      (∀ c ∈ t.cmds, c.pkt.port.val = p.val → c.phase = .fetched → c.opcode = 0x7F ∧ c.portReset = true ∧ s.flag Fd.PMU_STATE_BUSY = true) ∧
      t.jobs.map (fun j => j.handle) = s.jobs.map (fun j => j.handle) ∧ t.phase = s.phase ∧ (∀ q, q < 32 → t.reg (Reg.Q_CFG (1 - p.val) q) = s.reg (Reg.Q_CFG (1 - p.val) q))) ∧
    (exec (.perstRelease p l) s = .next (s.after (flushRings (setLink { s with perst := s.perst.filter (fun q => q != p.val) } p.val l)))) ∧
    (s.streams = [] → s.crHeld = [] → ∃ t, exec (.perstRelease p l) s = .next t ∧ t.perst.contains p.val = false ∧
      t.fld (Fd.PORT_LINK_UP p.val) = (if l.width = 0 then 0 else 1) ∧ t = { s with regs := t.regs, perst := t.perst } ∧
      RegsKept [Reg.PORT_LINK p.val] s t)

/-- BAR2_ACCESS reads and writes device physical memory at B2_BASE under the port's origin; refused or outside: Unsupported Request, or
discarded (R222; R226; R310; R408; R409). Through BAR2 of a port that is not in reset. Outside Retain: a read inside the window that the
firewall allows for origin 5 or 6, from powered memory that is neither poisoned, in error nor being cleared, returns the bytes at B2_BASE
plus the offset and changes nothing; a write stores its bytes there and changes no register that is not a count of poison or zeroing. A
refused read returns Unsupported Request and a refused write is discarded, and the firewall counts and records either. A read beyond the
window, and any read in Retain, returns Unsupported Request, which UR_SENT counts; a write beyond it or in Retain does nothing; a poisoned
write is discarded, RX_POISONED counts it and AER shows it. -/
def Obligations.Bar2Window : Prop :=
  ∀ (s : State) (p : Fin 2) (off : BitVec 37) (len : BitVec 13) (bs : List Byte) (a : Nat), s.phase = .running → s.perst.contains p.val = false →
    a = s.fld (Fd.PORT_B2_BASE_BASE p.val) * 2 ^ 30 + off.toNat →
    (s.fld Fd.PMU_STATE_STATE = 2 → exec (.bar2Access p (.write off bs false)) s = .next s) ∧
    (s.fld Fd.PMU_STATE_STATE = 2 ∨ 2 ^ (30 + barLogOf s p.val) < off.toNat + len.toNat → ∃ t, exec (.bar2Access p (.read off len)) s = .next t ∧
      t.resp = .unsupported ∧ t.regN (Reg.PORT_UR_SENT p.val) = min (s.regN (Reg.PORT_UR_SENT p.val) + 1) 0xFFFFFFFF ∧
      t = { s with regs := t.regs, resp := t.resp } ∧ RegsKept [Reg.PORT_UR_SENT p.val] s t) ∧
    (s.fld Fd.PMU_STATE_STATE ≠ 2 → off.toNat + bs.length ≤ 2 ^ (30 + barLogOf s p.val) → fwAllows s (5 + p.val) a true = false →
      ∃ t, exec (.bar2Access p (.write off bs false)) s = .next t ∧
        t.regN Reg.FW_REFUSED = min (s.regN Reg.FW_REFUSED + 1) 0xFFFFFFFF ∧ t.fld Fd.FW_LAST_ORIGIN = 5 + p.val ∧ t.fld Fd.FW_LAST_WRITE = 1 ∧
        (∃ r, t.mainLog.getLast? = some r ∧ r.kind = 3 ∧ r.origin = 5 + p.val ∧ r.write = true) ∧
        t = { s with regs := t.regs, mainLog := t.mainLog } ∧ RegsKept ([Reg.FW_REFUSED, Reg.FW_LAST, Reg.FW_LAST_ADDR] ++ logRegs) s t) ∧
    (s.fld Fd.PMU_STATE_STATE ≠ 2 → off.toNat + len.toNat ≤ 2 ^ (30 + barLogOf s p.val) → fwAllows s (5 + p.val) a false = true → bankOn s a = true →
      s.flag Fd.BOOT_ZERO_SRAM_BUSY = false → poisoned s a len.toNat = false → (∀ u ∈ s.upsets, spanMeets a len.toNat u.1 = false) →
      exec (.bar2Access p (.read off len)) s = .next { s with resp := .data (s.bytes a len.toNat) false }) ∧
    (s.fld Fd.PMU_STATE_STATE ≠ 2 → off.toNat + bs.length ≤ 2 ^ (30 + barLogOf s p.val) → fwAllows s (5 + p.val) a true = true → bankOn s a = true →
      s.flag Fd.BOOT_ZERO_SRAM_BUSY = false → ∃ t, exec (.bar2Access p (.write off bs false)) s = .next t ∧
        (granulePending s a = false → memRead t.mem a bs.length = bs ∧
          ∀ b, b < a ∨ a + bs.length ≤ b → Tbl.get zeroByte t.mem b = Tbl.get zeroByte s.mem b) ∧
        t = { s with regs := t.regs, mem := t.mem, poison := t.poison, upsets := t.upsets, zeroing := t.zeroing }) ∧
    (s.fld Fd.PMU_STATE_STATE ≠ 2 → off.toNat + len.toNat ≤ 2 ^ (30 + barLogOf s p.val) → fwAllows s (5 + p.val) a false = false →
      ∃ t, exec (.bar2Access p (.read off len)) s = .next t ∧ t.resp = .unsupported ∧
        t.regN Reg.FW_REFUSED = min (s.regN Reg.FW_REFUSED + 1) 0xFFFFFFFF ∧ MemKept s t) ∧
    (2 ^ (30 + barLogOf s p.val) < off.toNat + bs.length → exec (.bar2Access p (.write off bs false)) s = .next s) ∧
    (∃ t, exec (.bar2Access p (.write off bs true)) s = .next t ∧
      t.regN (Reg.PORT_RX_POISONED p.val) = min (s.regN (Reg.PORT_RX_POISONED p.val) + 1) 0xFFFFFFFF ∧ bitOf (Tbl.get (fun _ => 0) t.aer p.val) 12 = true ∧
      t = { s with regs := t.regs, aer := t.aer } ∧ RegsKept [Reg.PORT_RX_POISONED p.val] s t ∧
      Tbl.get (fun _ => 0) t.aer (1 - p.val) = Tbl.get (fun _ => 0) s.aer (1 - p.val))

/-- PCIE_CONFIG_WRITE and MSIX_TABLE_WRITE change what they name of their port and nothing else (R405; R406; R408; R422). On a port that
is not in reset: entering D3hot, the completion timeout range, the payload and read-request sizes and the function mask, set or cleared,
are that port's alone; AER bits written 1 clear, and no other bit; a new BAR2 size clears a base that is no longer aligned to it and
leaves one that is; leaving D3hot lets the records go that waited for the port, and where none waits changes nothing else. A write of an
MSI-X entry's address or data words sets that word alone; of its vector control it masks or unmasks that vector alone. -/
def Obligations.ConfigurationSpace : Prop :=
  ∀ (s : State) (p : Fin 2) (v : Fin 16) (n : Fin 8) (r : BitVec 4) (x : Word32) (on : Bool) (pay : Fin 3) (req : Fin 6),
    s.phase = .running → s.perst.contains p.val = false →
    (∃ t, exec (.pcieConfigWrite p (.dState true)) s = .next t ∧ t.d3.contains p.val = true ∧ t = { s with d3 := t.d3 } ∧
      t.d3.contains (1 - p.val) = s.d3.contains (1 - p.val)) ∧
    (exec (.pcieConfigWrite p (.dState false)) s = .next (s.after (flushPort { s with d3 := s.d3.filter (fun q => q != p.val) } p.val))) ∧
    (noneHeld s → s.streams = [] → s.crHeld = [] → ∃ t, exec (.pcieConfigWrite p (.dState false)) s = .next t ∧ t.d3.contains p.val = false ∧ t = { s with d3 := t.d3 } ∧
      t.d3.contains (1 - p.val) = s.d3.contains (1 - p.val)) ∧
    (∃ t, exec (.pcieConfigWrite p (.cplRange r)) s = .next t ∧ Tbl.get (fun _ => 0) t.cplRange p.val = r.toNat ∧
      t = { s with cplRange := t.cplRange } ∧ Tbl.get (fun _ => 0) t.cplRange (1 - p.val) = Tbl.get (fun _ => 0) s.cplRange (1 - p.val)) ∧
    (∃ t, exec (.pcieConfigWrite p (.functionMask on)) s = .next t ∧ t.fnMasked.contains p.val = on ∧ t = { s with fnMasked := t.fnMasked } ∧
      t.fnMasked.contains (1 - p.val) = s.fnMasked.contains (1 - p.val)) ∧
    (∃ t, exec (.pcieConfigWrite p (.deviceControl pay req)) s = .next t ∧ Tbl.get (fun _ => (0, 2)) t.devCtl p.val = (pay.val, req.val) ∧
      t = { s with devCtl := t.devCtl } ∧ Tbl.get (fun _ => (0, 2)) t.devCtl (1 - p.val) = Tbl.get (fun _ => (0, 2)) s.devCtl (1 - p.val)) ∧
    (∃ t, exec (.pcieConfigWrite p (.aerClear x)) s = .next t ∧ t = { s with aer := t.aer } ∧
      Tbl.get (fun _ => 0) t.aer (1 - p.val) = Tbl.get (fun _ => 0) s.aer (1 - p.val) ∧
      ∀ i, i < 32 → bitOf (Tbl.get (fun _ => 0) t.aer p.val) i = (bitOf (Tbl.get (fun _ => 0) s.aer p.val) i && !(bitOf x.toNat i))) ∧
    (∃ t, exec (.pcieConfigWrite p (.bar2Size n)) s = .next t ∧ barLogOf t p.val = n.val ∧
      t.fld (Fd.PORT_B2_BASE_BASE p.val) =
        (if s.fld (Fd.PORT_B2_BASE_BASE p.val) % 2 ^ n.val = 0 then s.fld (Fd.PORT_B2_BASE_BASE p.val) else 0) ∧
      t = { s with regs := t.regs, barLog := t.barLog } ∧ RegsKept [Reg.PORT_B2_BASE p.val] s t) ∧
    (∀ d : Fin 4, d.val < 3 → ∃ t, exec (.msixTableWrite p v d x) s = .next t ∧
      Tbl.get (fun _ => 0) t.msix (4 * (16 * p.val + v.val) + d.val) = x.toNat ∧ t = { s with msix := t.msix } ∧
      ∀ k, k ≠ 4 * (16 * p.val + v.val) + d.val → Tbl.get (fun _ => 0) t.msix k = Tbl.get (fun _ => 0) s.msix k) ∧
    (∃ t, exec (.msixTableWrite p v 3 x) s = .next t ∧ ((16 * p.val + v.val) ∈ t.msixOn ↔ bitOf x.toNat 0 = false) ∧
      t = { s with msixOn := t.msixOn } ∧ ∀ k, k ≠ 16 * p.val + v.val → (k ∈ t.msixOn ↔ k ∈ s.msixOn))

/-- STICKY_CLR, FB_OFF_ARM and WAKE act from a port that holds SEM0 alone; FW_LOCK locks from SC alone (R309; R316; R324; R346; R452;
R459). STICKY_CLR of 1 from a port that holds SEM0 empties the sticky log and its count; FB_OFF_ARM from such a port sets the bits
written; from any other origin either is ignored and recorded as kind 0x02. WAKE of 1 from such a port in Retain brings the device to Idle
with LAST_EXIT the time of the exit; in another state it changes nothing; from another origin in Retain it is kept for LOG, in another
state it is recorded. FW_LOCK of 1 from SC sets LOCKED, after which a write of a firewall default mask is ignored and recorded; from any
other origin the firewall refuses it, and LOCKED stays. -/
def Obligations.GuardedControlWrites : Prop :=
  ∀ (s : State) (o : Fin 64) (v : Word32) (us : BitVec 16) (w : Word), s.phase = .running →
    (writePasses s o.val Reg.LOG_CTRL = true → bitOf v.toNat 0 = true →
      ((o.val = 5 ∨ o.val = 6) ∧ holdsSem s (o.val - 5) 0 = true → ∃ t, exec (.stickyClr o v) s = .next t ∧ t.stickyLog = [] ∧
        t.regN Reg.LOG_STICKY_COUNT = 0 ∧ t = { s with regs := t.regs, stickyLog := [] } ∧ RegsKept [Reg.LOG_STICKY_COUNT] s t) ∧
      (¬((o.val = 5 ∨ o.val = 6) ∧ holdsSem s (o.val - 5) 0 = true) → ∃ t, exec (.stickyClr o v) s = .next t ∧
        logged t 0x02 o.val (ctlBase + Reg.LOG_CTRL) v.toNat true ∧ t = { s with regs := t.regs, mainLog := t.mainLog })) ∧
    (writePasses s o.val Reg.SAF_FB_OFF_ARM = true →
      ((o.val = 5 ∨ o.val = 6) ∧ holdsSem s (o.val - 5) 0 = true → ∃ t, exec (.fbOffArm o v) s = .next t ∧
        t.regN Reg.SAF_FB_OFF_ARM = (s.regN Reg.SAF_FB_OFF_ARM ||| v.toNat % 256) % 2 ^ 64 ∧ OnlyRegs [Reg.SAF_FB_OFF_ARM] s t) ∧
      (¬((o.val = 5 ∨ o.val = 6) ∧ holdsSem s (o.val - 5) 0 = true) → ∃ t, exec (.fbOffArm o v) s = .next t ∧
        logged t 0x02 o.val (ctlBase + Reg.SAF_FB_OFF_ARM) v.toNat true ∧ t = { s with regs := t.regs, mainLog := t.mainLog })) ∧
    (writePasses s o.val Reg.PMU_CTRL = true → bitOf v.toNat 0 = true →
      ((o.val = 5 ∨ o.val = 6) ∧ holdsSem s (o.val - 5) 0 = true →
        (s.fld Fd.PMU_STATE_STATE = 2 → s.wakeLog = [] → ∃ t, exec (.wake o v us) s = .next t ∧ t.fld Fd.PMU_STATE_STATE = 1 ∧
          t.regN Reg.PMU_LAST_EXIT = us.toNat ∧ t.jobs = s.jobs ∧ t.paths = []) ∧
        (s.fld Fd.PMU_STATE_STATE ≠ 2 → exec (.wake o v us) s = .next s)) ∧
      (¬((o.val = 5 ∨ o.val = 6) ∧ holdsSem s (o.val - 5) 0 = true) →
        (s.fld Fd.PMU_STATE_STATE = 2 → exec (.wake o v us) s = .next { s with wakeLog := s.wakeLog ++ [(o.val, v.toNat)] }) ∧
        (s.fld Fd.PMU_STATE_STATE ≠ 2 → ∃ t, exec (.wake o v us) s = .next t ∧
          logged t 0x02 o.val (ctlBase + Reg.PMU_CTRL) v.toNat true ∧ t = { s with regs := t.regs, mainLog := t.mainLog }))) ∧
    (o.val ≠ 0 → hostInReset s o.val = false → retainReach s Reg.FW_LOCK = true → ∃ t, exec (.fwLock o v) s = .next t ∧
      refusedAt [] s t o.val (ctlBase + Reg.FW_LOCK) true ∧ t.flag Fd.FW_LOCK_LOCKED = s.flag Fd.FW_LOCK_LOCKED) ∧
    (writePasses s o.val Reg.FW_LOCK = true → bitOf v.toNat 0 = true → ∃ t, exec (.fwLock o v) s = .next t ∧
      t.flag Fd.FW_LOCK_LOCKED = true ∧ OnlyRegs [Reg.FW_LOCK] s t) ∧
    (writePasses s o.val Reg.FW_DEFAULT_RMASK = true → s.flag Fd.FW_LOCK_LOCKED = true →
      ∃ t, exec (.registerWrite o (BitVec.ofNat 26 Reg.FW_DEFAULT_RMASK) 8 w) s = .next t ∧
        t.reg Reg.FW_DEFAULT_RMASK = s.reg Reg.FW_DEFAULT_RMASK ∧
        logged t 0x02 o.val (ctlBase + Reg.FW_DEFAULT_RMASK) w.toNat true ∧ t = { s with regs := t.regs, mainLog := t.mainLog })

/-- Brownout holds, overvoltage, the VDD_CORE target and the temperature outputs (R311; R457; R458; R460; R469; R477; R478). BROWNOUT_HOLD
of a supply below its warning and not below its reset level: outside a hold it freezes every array, sets HOLD and the supply's warning and
begins a hold now; during one it restarts the count of its end. Of any other reading it only shows it. HOLD_END, once both supplies have
stood above their release levels for 20 µs, ends the hold, clears the warnings, counts the dip, keeps the longest, and lets the four
groups of arrays resume 1 µs apart. before that it only shows the readings. HOLD_ESCALATION of a hold 5 ms old that has not escalated is a
compute reset, once; else it changes nothing. OVERVOLTAGE of a supply more than 8 % above its target counts and shows the reading; of
another it shows it. AVS_TARGET_STEP moves the target by 5 mV inside 670 to 820 mV, not in a hold nor within 10 ms of the last.
THERMAL_ALARM and TEMP_ALERT show the reading: THERM_N is low from 115 °C on and stays; SMB_ALERT_N is low from 100 °C until below 95 °C.
-/
def Obligations.SuppliesAndTemperature : Prop :=
  ∀ (s : State) (sram : Bool) (mv : BitVec 10) (core : BitVec 10) (temp : BitVec 16), s.phase = .running →
    (belowWarning s sram mv.toNat = true → belowReset s sram mv.toNat = false → s.hold = none →
      ∃ t, exec (.brownoutHold sram mv) s = .next t ∧ t.hold = some ⟨s.elapsed, sram, false, s.elapsed⟩ ∧
      t.flag Fd.SUP_STATUS_HOLD = true ∧ (∀ n, n < 96 → t.flag (Fd.MA_STATUS_FROZEN n) = true) ∧ t.jobs = s.jobs) ∧
    (∀ h, belowWarning s sram mv.toNat = true → belowReset s sram mv.toNat = false → s.hold = some h →
      ∃ t, exec (.brownoutHold sram mv) s = .next t ∧ t = { s with regs := t.regs, hold := some { h with clear := s.elapsed } } ∧
      RegsKept [Reg.SUP_STATUS, if sram then Reg.SUP_VSRAM else Reg.SUP_VCORE] s t) ∧
    (belowWarning s sram mv.toNat = false ∨ belowReset s sram mv.toNat = true → ∃ t, exec (.brownoutHold sram mv) s = .next t ∧
      OnlyRegs [if sram then Reg.SUP_VSRAM else Reg.SUP_VCORE] s t) ∧
    (∀ h, s.hold = some h → s.elapsed < h.clear + 3125 ∨ released s false core.toNat = false ∨ released s true mv.toNat = false →
      ∃ t, exec (.holdEnd core mv) s = .next t ∧ OnlyRegs [Reg.SUP_VCORE, Reg.SUP_VSRAM] s t) ∧
    (∀ h, s.hold = some h → h.clear + 3125 ≤ s.elapsed → released s false core.toNat = true → released s true mv.toNat = true → ∃ t, exec (.holdEnd core mv) s = .next t ∧ t.hold = none ∧ t.regN Reg.SUP_STATUS = 0 ∧
      t.regN Reg.SUP_DIP_COUNT = min (s.regN Reg.SUP_DIP_COUNT + 1) 0xFFFFFFFF ∧
      t.regN Reg.SUP_HOLD_MAX = (max (s.regN Reg.SUP_HOLD_MAX) (min (cyclesNs (s.elapsed - h.start)) 0xFFFFFFFF))) ∧
    (s.hold = none → exec .holdEscalation s = .next s ∧ exec (.holdEnd core mv) s = .next s) ∧
    (∀ h, s.hold = some h → h.escalated = true ∨ s.elapsed < h.start + 781250 → exec .holdEscalation s = .next s) ∧
    (∀ h, s.hold = some h → h.escalated = false → h.start + 781250 ≤ s.elapsed →
      exec .holdEscalation s = .next (s.after (computeReset { s with hold := some { h with escalated := true } } 8))) ∧
    (100 * mv.toNat ≤ 108 * supplyTarget s sram → ∃ t, exec (.overvoltage sram mv) s = .next t ∧
      OnlyRegs [if sram then Reg.SUP_VSRAM else Reg.SUP_VCORE] s t) ∧
    (108 * supplyTarget s sram < 100 * mv.toNat → ∃ t, exec (.overvoltage sram mv) s = .next t ∧ t.regN Reg.SUP_OV_COUNT = min (s.regN Reg.SUP_OV_COUNT + 1) 0xFFFFFFFF ∧
      t.regN (if sram then Reg.SUP_VSRAM else Reg.SUP_VCORE) = mv.toNat ∧
      OnlyRegs [Reg.SUP_OV_COUNT, if sram then Reg.SUP_VSRAM else Reg.SUP_VCORE] s t) ∧
    (s.hold = none → s.avsAt = none → 670 ≤ s.fld Fd.PMU_AVS_TARGET_MV → s.fld Fd.PMU_AVS_TARGET_MV ≤ 820 → ∃ t,
      exec (.avsTargetStep sram) s = .next t ∧ t = { s with regs := t.regs, avsAt := t.avsAt, avsOld := t.avsOld } ∧ RegsKept [Reg.PMU_AVS_TARGET] s t ∧
      t.fld Fd.PMU_AVS_TARGET_MV = (if sram then (if s.fld Fd.PMU_AVS_TARGET_MV ≤ 815 then s.fld Fd.PMU_AVS_TARGET_MV + 5 else s.fld Fd.PMU_AVS_TARGET_MV)
        else (if 675 ≤ s.fld Fd.PMU_AVS_TARGET_MV then s.fld Fd.PMU_AVS_TARGET_MV - 5 else s.fld Fd.PMU_AVS_TARGET_MV))) ∧
    (s.hold ≠ none → exec (.avsTargetStep sram) s = .next s) ∧
    (∃ t, exec (.thermalAlarm temp) s = .next t ∧ exec (.tempAlert temp) s = .next t ∧ t.regN Reg.SUP_TEMP = temp.toNat ∧
      (t.thermLow = true ↔ s.thermLow = true ∨ 920 ≤ tempUnits temp.toNat) ∧
      (t.alertLow = true ↔ 800 ≤ tempUnits temp.toNat ∨ (s.alertLow = true ∧ 760 ≤ tempUnits temp.toNat)) ∧
      t = { s with regs := t.regs, thermLow := t.thermLow, alertLow := t.alertLow } ∧ RegsKept [Reg.SUP_TEMP, Reg.SUP_TEMP_MAX] s t)

/-- A host command that may not begin is refused at its header with the status the rules give, or waits; it has no other effect (R255;
R256; R257; R258; R260; R266; R432; R450). For every command that a host issues (NOP to POWER_STATE): when its packet is taken and a TAG
of its queue is in use it is refused with BAD_PARAM, DETAIL 8; when 8 D commands, 16 JOB_* commands of its job or 512 edits that it would
wait behind wait already it is refused with QUEUE_FULL; when its turn in its queue, its FENCE or its order is not open it is in flight and
waits; when its turn and order are open and its header is refused, the reply has the status of the first of: BUSY while the ROM serves no
such opcode, BAD_PARAM DETAIL 8 for reserved bits, NOT_OWNER for a D command of a port without SEM0. A port with no free command slot, or
that does not fetch, takes no packet and nothing changes. -/
def Obligations.EveryPacketIsAccountedFor : Prop :=
  ∀ (c : Instr) (op : Nat) (p : Pkt) (s : State), opOf c = some (op, p) → s.phase = .running → inFlight s op p = none →
    ((s.fld (Fd.PORT_CMD_FREE p.port.val) = 0 ∨ fetching s p.port.val = false) → exec c s = .next s) ∧
    (taken s op p = true →
      (dupTag (intake s op p) (fetchedCmd op p) = true →
        exec c s = .next (s.after (finishCmd (intake s op p) (fetchedCmd op p) St.badParam 8 0 0))) ∧
      (dupTag (intake s op p) (fetchedCmd op p) = false → waitFull (intake s op p) (fetchedCmd op p) = true →
        exec c s = .next (s.after (finishCmd (intake s op p) (fetchedCmd op p) St.queueFull 0 0 0))) ∧
      (dupTag (intake s op p) (fetchedCmd op p) = false → waitFull (intake s op p) (fetchedCmd op p) = false →
        queueTurn (intake s op p) (fetchedCmd op p) = false ∨ fenceOpen (intake s op p) (fetchedCmd op p) = false ∨
          orderOpen (intake s op p) (fetchedCmd op p) = false →
        exec c s = .next (s.after (intake s op p))) ∧
      (dupTag (intake s op p) (fetchedCmd op p) = false → waitFull (intake s op p) (fetchedCmd op p) = false → queueTurn (intake s op p) (fetchedCmd op p) = true →
        fenceOpen (intake s op p) (fetchedCmd op p) = true → orderOpen (intake s op p) (fetchedCmd op p) = true →
        (s.fld Fd.BOOT_STATE_STATE ≠ 4 → op ∉ [0x01, 0x02, 0x53, 0x70] →
          exec c s = .next (s.after (finishCmd (intake s op p) (fetchedCmd op p) St.busy 0 0 0))) ∧
        (s.fld Fd.BOOT_STATE_STATE = 4 → p.rsv ≠ 0 →
          exec c s = .next (s.after (finishCmd (intake s op p) (fetchedCmd op p) St.badParam 8 0 0))) ∧
        (s.fld Fd.BOOT_STATE_STATE = 4 → p.rsv = 0 → p.job = 0 → isD op = true → holdsSem s p.port.val 0 = false →
          exec c s = .next (s.after (finishCmd (intake s op p) (fetchedCmd op p) St.notOwner 0 0 0)))))

/-- NOP is answered OK with one 32-byte record at RQ_TAIL, and leaves no command in flight (R253; R254; R255; R256; R276). A NOP that
begins at once, with its parameters 0, on a queue whose reply ring has a place: the 32 bytes at RQ_TAIL of its ring are opcode 1, status
OK, its TAG, its ring index, its queue with KIND 0 and the ring's phase, DETAIL 0, two results 0 and the device time; every other byte of
host memory and all of device memory stays; RQ_TAIL advances, inverting the phase on a wrap; FETCHED and REPLIED count one each, IN_FLIGHT
and the port's slots return to what they were, the commands in flight are those of before; with IRQ the queue's source is pending. -/
def Obligations.NopIsAnsweredInPlace : Prop :=
  ∀ (s : State) (p : Pkt), hostReady s 0x01 p = true → unusedFrom p 0 = none → ringOpen s p = true →
    s.fld (Fd.PORT_CMD_IN_FLIGHT p.port.val) < 1024 → s.regN (Reg.Q_IN_FLIGHT p.port.val p.queue.val) < 1024 →
    ∃ t, exec (.nop p) s = .next t ∧
      t.hostBytes p.port.val (replyAddr s p) 32 =
        [1, 0] ++ leBytes 2 p.tag.toNat ++ leBytes 2 p.index.val ++
          leBytes 1 (p.queue.val + 128 * s.fld (Fd.Q_RQ_TAIL_PHASE p.port.val p.queue.val)) ++ [0] ++ zeros 16 ++ leBytes 8 s.time64.toNat ∧
      (∀ q a, q < 2 → q ≠ p.port.val ∨ a < replyAddr s p ∨ replyAddr s p + 32 ≤ a → t.hostBytes q a 1 = s.hostBytes q a 1) ∧
      MemKept s t ∧ t.cmds = s.cmds ∧ t.held = s.held ∧
      t.fld (Fd.Q_RQ_TAIL_INDEX p.port.val p.queue.val) =
        (if s.fld (Fd.Q_RQ_TAIL_INDEX p.port.val p.queue.val) + 1 = ringSize s p.port.val p.queue.val then 0
         else (s.fld (Fd.Q_RQ_TAIL_INDEX p.port.val p.queue.val) + 1) % 4096) ∧
      t.regN (Reg.Q_FETCHED p.port.val p.queue.val) = (s.regN (Reg.Q_FETCHED p.port.val p.queue.val) + 1) % 2 ^ 32 ∧
      t.regN (Reg.Q_REPLIED p.port.val p.queue.val) = (s.regN (Reg.Q_REPLIED p.port.val p.queue.val) + 1) % 2 ^ 32 ∧
      t.regN (Reg.Q_IN_FLIGHT p.port.val p.queue.val) = s.regN (Reg.Q_IN_FLIGHT p.port.val p.queue.val) ∧
      t.fld (Fd.PORT_CMD_IN_FLIGHT p.port.val) = s.fld (Fd.PORT_CMD_IN_FLIGHT p.port.val) ∧
      t.fld (Fd.PORT_CMD_IN_FLIGHT p.port.val) + t.fld (Fd.PORT_CMD_FREE p.port.val) = 1024 ∧
      (p.irq = true → t.regBit (Reg.TGT_PRIV_PEND p.port.val) p.queue.val = true)

/-- A reply for a full ring is held, keeps its command in flight, and is written when RQ_HEAD makes a place (R254; R255). A NOP that
begins at once on a queue whose ring is full and that holds nothing: no byte of host memory changes, the record is held, STATUS.HELD sets,
source 34 of the port is pending, the command stays in flight as replied. RQ_HEAD_WRITE by the port that makes a place, while that record
is the only one held, writes the record at RQ_TAIL, clears HELD and takes the command that it answers out of flight. -/
def Obligations.FullRingHoldsReplies : Prop :=
  (∀ (s : State) (p : Pkt), hostReady s 0x01 p = true → unusedFrom p 0 = none → ringFull s p.port.val p.queue.val = true →
      hasHeld s p.port.val p.queue.val = false → ∃ t, exec (.nop p) s = .next t ∧ t.host0 = s.host0 ∧ t.host1 = s.host1 ∧
        t.held = s.held ++ [replyOf (cmdOf 0x01 p) 0 0 0 0] ∧ t.flag (Fd.Q_STATUS_HELD p.port.val p.queue.val) = true ∧
        (s.flag (Fd.Q_STATUS_HELD p.port.val p.queue.val) = false → t.regBit (Reg.TGT_PRIV_PEND p.port.val) 34 = true) ∧
        (⟨0x01, p, .replied, false, 0⟩ : Cmd) ∈ t.cmds) ∧
    (∀ (s : State) (p : Fin 2) (q : Fin 32) (o : Fin 64) (v : Word32) (r : Reply), s.phase = .running →
      writePasses s o.val (Reg.Q_RQ_HEAD p.val q.val) = true → o.val = 5 + p.val → s.held = [r] → r.port = p.val → r.queue = q.val → r.kind = 0 →
      (∀ c, (s.car c).held = []) → (s.fld (Fd.Q_RQ_TAIL_INDEX p.val q.val) + 1) % ringSize s p.val q.val ≠ v.toNat % 2 ^ 12 →
      s.holdQueues.contains (32 * p.val + q.val) = false → portQuiet s p.val = false → ∃ t, exec (.rqHeadWrite p q o v) s = .next t ∧
        t.held = [] ∧ t.flag (Fd.Q_STATUS_HELD p.val q.val) = false ∧
        t.cmds = s.cmds.eraseP (fun c => c.phase == .replied && c.answers r) ∧
        t.hostBytes p.val (s.fld (Fd.Q_RQ_BASE_ADDR p.val q.val) * 64 + 32 * s.fld (Fd.Q_RQ_TAIL_INDEX p.val q.val)) 32 =
          replyBytes r (s.fld (Fd.Q_RQ_TAIL_PHASE p.val q.val)) s.time64)

/-- COMMAND_FETCH reads the packet at SQ_HEAD of the queue whose turn it is, advances SQ_HEAD and starts it (R253; R255; R256; R260). On a
running device with no command waiting to begin: where the port whose turn it is has a queue with a packet, the 64 bytes at SQ_HEAD of the
next such queue in turn are the command, SQ_HEAD advances modulo the ring, the other port is next, and the command is in flight and starts
under its opcode; where neither port has one, nothing changes. A waiting command that can begin begins before anything is fetched. No
packet is fetched from a queue that is disabled or empty. -/
def Obligations.FetchTakesTheNextPacket : Prop :=
  ∀ s : State, s.phase = .running →
    (∀ c, s.cmds.find? (fun c => canStart s c) = some c → exec .commandFetch s = .next (s.after (startCmd s c))) ∧
    (s.cmds.find? (fun c => canStart s c) = none →
      (nextQueue s 0 = none → nextQueue s 1 = none → exec .commandFetch s = .next s) ∧
      (∀ (p : Fin 2) (q : Fin 32), s.fetchPort = p.val → nextQueue s p.val = some q →
        s.fld (Fd.Q_CFG_LOG2N p.val q.val) ≤ 12 →
        s.flag (Fd.Q_CFG_ENABLE p.val q.val) = true ∧ s.fld (Fd.Q_SQ_HEAD_INDEX p.val q.val) ≠ s.fld (Fd.Q_SQ_TAIL_INDEX p.val q.val) ∧
        ∃ t u, exec .commandFetch s = .next (s.after t) ∧ u.fetchPort = 1 - p.val ∧
          u = { s with regs := u.regs, fetchPort := u.fetchPort, fetchQueue := u.fetchQueue } ∧ RegsKept [Reg.Q_SQ_HEAD p.val q.val] s u ∧
          u.fld (Fd.Q_SQ_HEAD_INDEX p.val q.val) = (s.fld (Fd.Q_SQ_HEAD_INDEX p.val q.val) + 1) % ringSize s p.val q.val ∧
          ∃ bs, bs = s.hostBytes p.val (s.fld (Fd.Q_SQ_BASE_ADDR p.val q.val) * 64 + 64 * s.fld (Fd.Q_SQ_HEAD_INDEX p.val q.val)) 64 ∧
            ∃ k, k = pktOf p q (s.fld (Fd.Q_SQ_HEAD_INDEX p.val q.val)) bs ∧ k.tag.toNat = leNat ((bs.drop 2).take 2) ∧
            t = startCmd (intake u (leNat (bs.take 1)) k) (fetchedCmd (leNat (bs.take 1)) k)))

/-- SYNC_INIT sets type, owner, value and deadline of its object, or frees it, and leaves every other object alone (R258; R273). SYNC_INIT
that begins at once with a type 1 to 3, values in range and a host owner (0x3FE), on an object that is free or owned for hosts: afterwards
the object has that type, owner, deadline and value (a barrier: size N, no arrival, generation 0), no unit waits on it, a previous count
is retired and a new one is in INIT_TOTAL, the reply is OK. With type 0 it is free. No other object's words change, and nothing else but
the counts of SYN. SYNC_QUERY returns the four words of its object, two to a result, and changes nothing. -/
def Obligations.ObjectsSetAndFreed : Prop :=
  ∀ (s : State) (p : Pkt) (o : Nat), o = p.p0.toNat % 16384 →
    (hostReady s 0x40 p = true → p.p0.toNat < 2 ^ 26 → p.p1.toNat < 2 ^ 24 → p.p2.toNat < 2 ^ 27 → unusedFrom p 3 = none →
      objInitOk (bitsOf p.p0.toNat 15 14) p.p1.toNat p.p2.toNat = true → bitsOf p.p0.toNat 25 16 = 0x3FE →
      objType s o = 0 ∨ objOwner s o = 0x3FE →
      ∃ u, exec (.syncInit p) s = .next (s.after (answered u 0x40 p St.ok 0 0 0)) ∧
        objType u o = bitsOf p.p0.toNat 15 14 ∧ waitersOf u o = [] ∧ u = { begun s 0x40 p with regs := u.regs, waiters := u.waiters, slotSigs := u.slotSigs } ∧
        (objType u o ≠ 0 → objOwner u o = 0x3FE ∧ objDeadline u o = p.p2.toNat) ∧
        (objType u o = 1 ∨ objType u o = 2 → objValue u o = p.p1.toNat) ∧
        (objType u o = 3 → objValue u o = 0 ∧ objSize u o = p.p1.toNat ∧ objGen u o = 0) ∧
        RegsKept (flightRegs p ++ [Reg.SYN_OBJ_W0 o, Reg.SYN_OBJ_W1 o, Reg.SYN_OBJ_W2 o, Reg.SYN_OBJ_W3 o, Reg.SYN_INIT_TOTAL,
          Reg.SYN_RETIRED_TOTAL, Reg.SYN_COUNT_SUM]) s u) ∧
    (hostReady s 0x43 p = true → p.p0.toNat < 16384 → unusedFrom p 1 = none → objForeign s p.port.val o = false →
      exec (.syncQuery p) s = .next (s.after (answered (begun s 0x43 p) 0x43 p St.ok 0
        (BitVec.ofNat 64 (s.regN (Reg.SYN_OBJ_W0 o) + s.regN (Reg.SYN_OBJ_W1 o) * 2 ^ 32))
        (BitVec.ofNat 64 (s.regN (Reg.SYN_OBJ_W2 o) + s.regN (Reg.SYN_OBJ_W3 o) * 2 ^ 32)))))

/-- SYNC_SIGNAL, SYNC_WAIT and the timeout follow the table of object operations; a missed deadline is reported once (R205; R274; R275;
R289). SYNC_SIGNAL of a semaphore without waiters raises its count by n; one that would pass 2^24 - 1 changes no object, counts in
SIG_REFUSED and is answered BAD_PARAM; with CLEAR it clears an event. SYNC_WAIT on a semaphore with a count and no earlier waiter takes
one and returns what is left; on an event that is set it returns at once; a timeout of 0 that is not satisfied is answered DEADLINE_MISSED
with the object as it was; else the wait joins the object's waiters and no reply is posted. SYNC_WAIT_TIMEOUT withdraws the host's wait on
a semaphore or event and answers its command DEADLINE_MISSED, nothing consumed. SYNC_DEADLINE of a unit that does not wait on the object
changes nothing. When a unit waits on an object with a deadline that has come and has not been reported: SYN.DL_MISS counts, LOG records
the object and the waiter as kind 0x10, in deterministic mode DET.TDC counts, and the wait stays in its place, marked as reported, so that
a second SYNC_DEADLINE of it changes nothing. -/
def Obligations.SignalsWaitsAndDeadlines : Prop :=
  (∀ (s : State) (p : Pkt) (o n : Nat), o = p.p0.toNat → o < 16384 → n = p.p1.toNat % 2 ^ 24 →
    (hostReady s 0x41 p = true → unusedFrom p 2 = none → objForeign s p.port.val o = false → extraBits p.p1 0x8000000000FFFFFF = false →
      (objType s o = 1 → objValue s o + n < 2 ^ 24 → waitersOf s o = [] → isRetention s o = false →
        ∃ u, exec (.syncSignal p) s = .next (s.after (answered u 0x41 p St.ok 0 0 0)) ∧ objValue u o = objValue s o + n ∧
          u = { begun s 0x41 p with regs := u.regs } ∧
          RegsKept (flightRegs p ++ [Reg.SYN_OBJ_W1 o, Reg.SYN_SIG_TOTAL, Reg.SYN_COUNT_SUM]) s u) ∧
      (objType s o = 1 → 2 ^ 24 ≤ objValue s o + n →
        ∃ u, exec (.syncSignal p) s = .next (s.after (answered u 0x41 p St.badParam 2 0 0)) ∧
          u.regN Reg.SYN_SIG_REFUSED = min (s.regN Reg.SYN_SIG_REFUSED + 1) 0xFFFFFFFF ∧
          u = { begun s 0x41 p with regs := u.regs } ∧ RegsKept (flightRegs p ++ [Reg.SYN_SIG_REFUSED]) s u) ∧
      (objType s o = 2 → bitOf p.p1.toNat 63 = true →
        ∃ u, exec (.syncSignal p) s = .next (s.after (answered u 0x41 p St.ok 0 0 0)) ∧ objValue u o = 0 ∧
          u = { begun s 0x41 p with regs := u.regs } ∧ RegsKept (flightRegs p ++ [Reg.SYN_OBJ_W1 o]) s u)) ∧
    (hostReady s 0x42 p = true → unusedFrom p 2 = none → objForeign s p.port.val o = false → p.p1.toNat ≤ 1000000 →
      (objType s o = 1 → 0 < objValue s o → waitersOf s o = [] →
        ∃ u, exec (.syncWait p) s = .next (s.after (answered u 0x42 p St.ok 0 (BitVec.ofNat 64 (objValue s o - 1)) 0)) ∧
          objValue u o = objValue s o - 1 ∧ u = { begun s 0x42 p with regs := u.regs } ∧
          RegsKept (flightRegs p ++ [Reg.SYN_OBJ_W1 o, Reg.SYN_TAKE_TOTAL, Reg.SYN_COUNT_SUM]) s u) ∧
      (objType s o = 2 → objValue s o = 1 →
        exec (.syncWait p) s = .next (s.after (answered (begun s 0x42 p) 0x42 p St.ok 0 1 0))) ∧
      (objType s o ≠ 0 → waitSatisfied s o = false → p.p1 = 0 →
        exec (.syncWait p) s = .next (s.after (answered (begun s 0x42 p) 0x42 p St.deadlineMissed 0 0 0))) ∧
      (objType s o = 1 ∨ objType s o = 2 → waitSatisfied s o = false → p.p1 ≠ 0 → hostWaits s p.port.val < 256 →
        ∃ t w, exec (.syncWait p) s = .next t ∧ t.waiters = s.waiters ++ [w] ∧ w.obj = o ∧ w.agent = hostAgent (cmdOf 0x42 p) ∧
          cmdOf 0x42 p ∈ t.cmds ∧ t = { begun s 0x42 p with waiters := t.waiters })) ∧
    (∀ (q : Fin 2) (k : Fin 32) (g : BitVec 16) (w : Waiter) (c : Cmd), s.phase = .running →
      s.waiters.find? (fun x => x.agent == .host q.val k.val g.toNat) = some w → objType s w.obj ≠ 3 →
      s.executing 0x42 (fun x => hostAgent x == .host q.val k.val g.toNat) = some c →
      exec (.syncWaitTimeout q k g) s = .next (s.after (finishCmd (dropWaiter s w) c St.deadlineMissed 0 0 0))) ∧
    (∀ (a : Agent) (x : Fin 16384), s.phase = .running → (∀ w ∈ s.waiters, ¬(w.agent = a ∧ w.obj = x.val)) →
      exec (.syncDeadline a x) s = .next s)) ∧
    (∀ (s : State) (a : Agent) (x : Fin 16384) (w : Waiter), s.phase = .running →
    s.waiters.find? (fun w => w.agent == a && w.obj == x.val && w.deadline && !w.missed) = some w → waitDue s w = true →
    s.waiters.filter (fun v => v.agent == a && v.obj == x.val) = [w] →
    ∃ t, exec (.syncDeadline a x) s = .next t ∧ t.regN Reg.SYN_DL_MISS = min (s.regN Reg.SYN_DL_MISS + 1) 0xFFFFFFFF ∧
      logged t 0x10 (agentOrigin a) x.val (agentOrigin a) false ∧ t.waiters.map (fun v => (v.obj, v.agent)) = s.waiters.map (fun v => (v.obj, v.agent)) ∧
      (s.det = true → t.regN Reg.DET_TDC = min (s.regN Reg.DET_TDC + 1) 0xFFFFFFFF) ∧ exec (.syncDeadline a x) t = .next t ∧
      t = { s with regs := t.regs, mainLog := t.mainLog, waiters := t.waiters })

/-- QUERY_CAPS returns its bytes in data records of 24 before the reply; LOG_READ writes the records asked for and says how many (R256;
R347; R463; R464). QUERY_CAPS that begins at once, of 8 to 4,080 bytes inside the block at a multiple of 8: the bytes asked for, taken at
one instant, go out in ⌈n ÷ 24⌉ data records numbered from 0 before the reply OK, and the command changes nothing but its reply ring's
state; an offset or length outside is refused in its word. LOG_READ of 1 to 64 records to an address outside the job space that can be
written, in no port's space that issues no requests (R405): RESULT0 is the number of records written, at most the number asked for, oldest
first from the sequence number given. -/
def Obligations.CapabilitiesAndLogAreRead : Prop :=
  ∀ (s : State) (p : Pkt),
    (hostReady s 0x02 p = true → p.p0.toNat % 8 = 0 → 8 ≤ p.p1.toNat → p.p1.toNat ≤ 4080 → p.p0.toNat + p.p1.toNat ≤ 0x1008 →
      unusedFrom p 2 = none → ∃ bs, bs.length = p.p1.toNat ∧ bs = capBytes s p.p0.toNat p.p1.toNat ∧
        exec (.queryCaps p) s = .next (s.after (answered ((List.range ((p.p1.toNat + 23) / 24)).foldl
          (fun t i => postReply t (dataRecord (cmdOf 0x02 p) i (padTo 24 (bs.drop (24 * i))))) (begun s 0x02 p)) 0x02 p St.ok 0 0 0))) ∧
    (hostReady s 0x02 p = true → p.p0.toNat % 8 ≠ 0 ∨ 0x1008 ≤ p.p0.toNat →
      exec (.queryCaps p) s = .next (s.after (answered (begun s 0x02 p) 0x02 p St.badParam 1 0 0))) ∧
    (hostReady s 0x53 p = true → extraBits p.p0 0x80000000FFFFFFFF = false → 1 ≤ p.p1.toNat → p.p1.toNat ≤ 64 → p.p2.toNat < 2 ^ 52 →
      unusedFrom p 3 = none → addrSpace p.p2 ≠ 0 → spaceQuiet (begun s 0x53 p) (addrSpace p.p2) = false →
      ∀ rs a, rs = logFrom (if bitOf p.p0.toNat 63 then s.stickyLog else s.mainLog) p.p0.toNat p.p1.toNat →
        a = spaceWrite (begun s 0x53 p) 38 (addrSpace p.p2) (addrBits p.p2) (rs.flatMap logBytes) → a.fault = none →
        rs.length ≤ p.p1.toNat ∧
        exec (.logRead p) s = .next (s.after (answered a.state 0x53 p St.ok 0 (BitVec.ofNat 64 rs.length) 0)))

/-- JOB_LOAD installs the image as a job of the port, LOADED and owner of the compute, or refuses it with no other effect (R14; R260;
R261; R267; R283; R442; R443). JOB_LOAD that begins: bad parameters BAD_PARAM with their DETAIL; BUSY while a job owns the compute; it
waits while SRAM is being zeroed; AUTH_FAILED, counted, where the signature does not hold; BAD_PARAM DETAIL 1 for an image that claims
what the device does not have; else the next free handle, every logical unit on a unit that was free, reserves as far as asked, the job
LOADED for its port, its carriers bound, and the reply with handle and reserves. The image is an operand of the command (log entry 5). -/
def Obligations.JobLoadInstallsOrRefuses : Prop :=
  ∀ (s b : State) (p : Pkt) (g : JobImage), b = begun s 0x10 p → hostReady s 0x10 p = true →
    (∀ d, loadParamBad p = some d → exec (.jobLoad p g) s = .next (s.after (answered b 0x10 p St.badParam d 0 0))) ∧
    (loadParamBad p = none → b.fld Fd.COMPUTE_OWNER ≠ 0 → exec (.jobLoad p g) s = .next (s.after (answered b 0x10 p St.busy 0 0 0))) ∧
    (loadParamBad p = none → b.fld Fd.COMPUTE_OWNER = 0 →
      (b.flag Fd.BOOT_ZERO_SRAM_BUSY = true → exec (.jobLoad p g) s = .next (s.after (intake s 0x10 p))) ∧
      (b.flag Fd.BOOT_ZERO_SRAM_BUSY = false →
        (signatureOk b (bitsOf p.p3.toNat 15 8) g = false →
          exec (.jobLoad p g) s = .next (s.after (answered (b.bump Reg.BOOT_JOB_AUTH_FAIL) 0x10 p St.authFailed 0 0 0))) ∧
        (signatureOk b (bitsOf p.p3.toNat 15 8) g = true → imageOk b g = false →
          exec (.jobLoad p g) s = .next (s.after (answered b 0x10 p St.badParam 1 0 0))) ∧
        (signatureOk b (bitsOf p.p3.toNat 15 8) g = true → imageOk b g = true → s.jobs.length ≤ 8 →
          ∃ u j, exec (.jobLoad p g) s =
              .next (s.after (answered u 0x10 p St.ok 0 (BitVec.ofNat 64 j.handle) (BitVec.ofNat 64 j.reserve.length))) ∧
            j.image = g ∧ 1 ≤ j.handle ∧ j.handle ≤ 255 ∧ s.job j.handle = none ∧ j.placed = true ∧
            j.la.map (fun x => x.1) = List.range g.seqProgs.length ∧ j.lv.map (fun x => x.1) = List.range g.veProgs.length ∧
            (∀ x ∈ j.la, x.2 ∈ freeArrays b) ∧ (∀ x ∈ j.lv, x.2 ∈ freeEngines b) ∧ j.reserve.length ≤ p.p3.toNat % 16 ∧
            (∀ n ∈ j.reserve, n ∈ freeArrays b) ∧ u.jobs = s.jobs ++ [j] ∧ u.lastHandle = j.handle ∧
            u.fld Fd.COMPUTE_OWNER = j.handle ∧ u.jobState j = 1 ∧ u.jobPort j = p.port.val ∧ u.flag Fd.DET_STATUS_REF_V = false ∧
            ∀ x ∈ g.slotTable, (u.car x.carrier.val).job = j.handle ∧ (u.car x.carrier.val).port = p.port.val)))

/-- JOB_START and JOB_RESUME run every unit of the job: at once in throughput mode, at the reference beat in deterministic mode (R209;
R267; R270; R283; R293). JOB_START of a job that is not LOADED, JOB_RESUME of one that is not PAUSED: BAD_PARAM, DETAIL 8. Else JOB_START
begins the initial season and the units' starting state and powers down what the image marks unused; in throughput mode the job runs and
the reply is posted, in deterministic mode the command waits and holds the beat of its acceptance. JOB_RESUME likewise, without a new
start. At a beat after that, REFERENCE_BEAT answers the waiting command of a job without carriers and the job runs; for a start REF_BEAT
latches the first beat after acceptance, the one after that which the command holds, and REF_V sets; of a job with carriers it does
nothing, for the tick beat of its lowest carrier releases that. A job that runs: its line says RUNNING, each array and engine runs or has
ended, its rings run. -/
def Obligations.JobStartsAndResumes : Prop :=
  ∀ (s : State) (j : Job), j.placed = true →
    (∀ p : Pkt, hostReady s 0x11 p = true → unusedFrom p 0 = none → s.job p.job.toNat = some j →
      (s.jobState j ≠ 1 → exec (.jobStart p) s = .next (s.after (answered (begun s 0x11 p) 0x11 p St.badParam 8 0 0))) ∧
      (s.jobState j = 1 → tickSourceBad s j = false → s.yearWait = [] →
        ∃ u, u = powerDownUnused (primeUnits (initialSeason (begun s 0x11 p) j) j) j ∧
          (u.det = true → exec (.jobStart p) s = .next (s.after (setCmdAux u (cmdOf 0x11 p) (u.regN Reg.DET_BEAT)))) ∧
          (u.det = false → ∃ t, exec (.jobStart p) s = .next (s.after (answered (runCores t j) 0x11 p St.ok 0 0 0)) ∧ jobRuns t j ∧
            t = { u with regs := t.regs, slotFresh := [] }))) ∧
    (∀ p : Pkt, hostReady s 0x13 p = true → unusedFrom p 0 = none → s.job p.job.toNat = some j →
      (s.jobState j ≠ 3 → exec (.jobResume p) s = .next (s.after (answered (begun s 0x13 p) 0x13 p St.badParam 8 0 0))) ∧
      (s.jobState j = 3 →
        (s.det = true → exec (.jobResume p) s =
          .next (s.after (setCmdAux (begun s 0x13 p) (cmdOf 0x13 p) ((begun s 0x13 p).regN Reg.DET_BEAT)))) ∧
        (s.det = false → ∃ t, exec (.jobResume p) s = .next (s.after (answered t 0x13 p St.ok 0 0 0)) ∧ jobRuns t j ∧
          t = { begun s 0x13 p with regs := t.regs, slotFresh := [] }))) ∧
    (s.phase = .running → s.owner = some j →
      (s.det = false ∨ j.carriers ≠ [] ∨ startPending s j = none → exec .referenceBeat s = .next s) ∧
      (∀ c : Cmd, startPending s j = some c → s.det = true → j.carriers = [] →
        (s.regN Reg.DET_BEAT ≤ c.aux → exec .referenceBeat s = .next s) ∧
        (c.aux < s.regN Reg.DET_BEAT →
          ∃ t, exec .referenceBeat s = .next (s.after (okCmd (if c.opcode = 0x11 then runCores t j else t) c)) ∧ jobRuns t j ∧
            t = { s with regs := t.regs, slotFresh := [] } ∧
            (c.opcode = 0x11 → t.reg Reg.DET_REF_BEAT = BitVec.ofNat 64 (c.aux + 1) ∧ t.flag Fd.DET_STATUS_REF_V = true))))

/-- JOB_PAUSE is answered when every unit has stopped, with the time; a pause that its deadline overtakes is cancelled (R268). JOB_PAUSE
of a PAUSED job has no effect and returns the time at which it stopped. Of a RUNNING one whose units have not all stopped it asks them to
stop and waits; where they have stopped the job is PAUSED and the commands that pause it are answered OK with the device time in RESULT0.
PAUSE_DEADLINE of a job that is pausing lets every unit run on and answers DEADLINE_MISSED; without a pause under way it changes nothing.
-/
def Obligations.JobPauses : Prop :=
  ∀ (s : State) (j : Job), j.placed = true →
    (∀ p : Pkt, hostReady s 0x12 p = true → unusedFrom p 0 = none → s.job p.job.toNat = some j →
      (s.jobState j = 3 → exec (.jobPause p) s = .next (s.after (answered (begun s 0x12 p) 0x12 p St.ok 0 j.stopTime 0))) ∧
      (s.jobState j = 2 → allStopped s j = false →
        exec (.jobPause p) s = .next (s.after ((begun s 0x12 p).setJob { j with pausing := true }))) ∧
      (s.jobState j = 2 → allStopped s j = true →
        ∃ t, exec (.jobPause p) s = .next (s.after (finishWhere t 0x12 (fun c => c.pkt.job.toNat == j.handle) St.ok 0 s.time64 0)) ∧
          t.jobState j = 3 ∧ t.job j.handle = some { j with pausing := false, stopTime := s.time64 } ∧ underway t 0x12 p ∧
          RegsKept (flightRegs p ++ [Reg.JOB j.entry]) s t)) ∧
    (s.phase = .running → s.owner = some j →
      (j.pausing = true → ∃ t,
        exec .pauseDeadline s =
          .next (s.after (finishWhere t 0x12 (fun c => c.pkt.job.toNat == j.handle) St.deadlineMissed 0 0 0)) ∧
        jobRuns t j ∧ t.job j.handle = some { j with pausing := false } ∧ t.cmds = s.cmds) ∧
      (j.pausing = false → exec .pauseDeadline s = .next s)) ∧
    (s.phase = .running → s.owner = none → exec .pauseDeadline s = .next s)

/-- JOB_SAVE, JOB_KILL and JOB_RESTORE give up or take the compute; SRAM is cleared, and the reply waits for the end of the clear (R112;
R267; R269; R443; R445; R487). JOB_SAVE of a PAUSED job: the job keeps what it saved and gives up its units, it is SAVED, the compute is
free, the SRAM clear begins and the command waits. JOB_KILL of a job in any state: the job is gone, its line is 0 and its handle counts as
lost; of one that owned the compute likewise with the clear, of another the reply is posted at once. JOB_RESTORE of a SAVED job with the
compute free: mapped afresh, PAUSED, owner of the compute; answered with its reserves. SRAM_ZERO_COMPLETE ends the clear and answers the
command that awaited it, JOB_SAVE with the bytes written; GRANULE_ZERO clears the first pending granule of LPDDR5X. -/
def Obligations.JobsLeaveTheCompute : Prop :=
  ∀ (s : State) (j : Job), j.placed = true →
    (∀ p : Pkt, hostReady s 0x15 p = true → unusedFrom p 0 = none → s.job p.job.toNat = some j → s.jobState j = 3 →
      (s.jobs.filter (fun k => k.saved.isSome)).length < 8 →
      ∃ t, exec (.jobSave p) s = .next (s.after t) ∧ clearing t ∧ t.fld Fd.COMPUTE_OWNER = 0 ∧ t.jobState j = 4 ∧
        t.job j.handle = some { j with saved := some (saveJob (begun s 0x15 p) j), la := [], lv := [], reserve := [] }) ∧
    (∀ p : Pkt, hostReady s 0x14 p = true → unusedFrom p 0 = none → s.job p.job.toNat = some j → s.jobState j ∈ [1, 2, 3, 4] →
      ∃ t, t.job j.handle = none ∧ t.regN (Reg.JOB j.entry) = 0 ∧ j.handle ∈ t.lostHandles ∧
        (s.fld Fd.COMPUTE_OWNER = j.handle → exec (.jobKill p) s = .next (s.after t) ∧ clearing t ∧ t.fld Fd.COMPUTE_OWNER = 0) ∧
        (s.fld Fd.COMPUTE_OWNER ≠ j.handle → exec (.jobKill p) s = .next (s.after (answered t 0x14 p St.ok 0 0 0)))) ∧
    (∀ (p : Pkt) (v : SavedJob), hostReady s 0x16 p = true → unusedFrom p 0 = none → s.job p.job.toNat = some j → s.jobState j = 4 →
      s.fld Fd.COMPUTE_OWNER = 0 → s.flag Fd.BOOT_ZERO_SRAM_BUSY = false → j.saved = some v →
      j.image.seqProgs.length ≤ (freeArrays s).length → j.image.veProgs.length ≤ (freeEngines s).length →
      ∃ u k, exec (.jobRestore p) s = .next (s.after (answered u 0x16 p St.ok 0 0 (BitVec.ofNat 64 k.reserve.length))) ∧
        k.image = j.image ∧ k.handle = j.handle ∧ k.entry = j.entry ∧ k.saved = none ∧ k.placed = true ∧ u.job j.handle = some k ∧
        k.la.map (fun x => x.1) = List.range j.image.seqProgs.length ∧ (∀ x ∈ k.la, x.2 ∈ freeArrays s) ∧
        u.fld Fd.COMPUTE_OWNER = j.handle % 256 ∧ u.jobState k = 3) ∧
    (s.phase = .running →
      (s.flag Fd.BOOT_ZERO_SRAM_BUSY = false → exec .sramZeroComplete s = .next s) ∧
      (∀ c, s.flag Fd.BOOT_ZERO_SRAM_BUSY = true →
        s.cmds.filter (fun c => (c.opcode == 0x14 || c.opcode == 0x15) && c.phase == .executing && c.aux % 2 == 1) = [c] →
        ∃ t, exec .sramZeroComplete s = .next (s.after (finishCmd t c St.ok 0 (if c.opcode = 0x15 then BitVec.ofNat 64 (c.aux / 2) else 0) 0)) ∧
          t.flag Fd.BOOT_ZERO_SRAM_BUSY = false ∧ t.flag Fd.COMPUTE_ZEROING = false ∧ OnlyRegs [Reg.BOOT_ZERO, Reg.COMPUTE] s t) ∧
      (∀ a b rest, s.zeroing = (a, b) :: rest → a < b → s.fld Fd.PMU_STATE_STATE ≠ 2 →
        ∃ t, exec .granuleZero s = .next (s.after t) ∧ granulePending t (a * 65536) = false ∧
          (∀ k < 65536, t.bytes (a * 65536 + k) 1 = [0]) ∧ t.fld Fd.BOOT_ZERO_PENDING = pendingCount t.zeroing % 2 ^ 21 ∧
          ∀ x, x / 65536 ≠ a → t.bytes x 1 = s.bytes x 1))

/-- MAP_PAGES and UNMAP_PAGES write one entry of the table, drop its buffered translation, and nothing else of memory (R164; R165; R234;
R235; R236). On the job that owns the compute. MAP_PAGES with a bad parameter: BAD_PARAM with its DETAIL. One 4 KiB page whose table
exists in powered memory: its entry afterwards is the one the rule gives, every other byte stays, no unpinned translation of the page
remains, the reply is OK. UNMAP_PAGES of one mapped 4 KiB page outside the key-value range: its entry is 0, the epoch rises, one frame
retires, the command waits. FRAME_RETIRE answers the one edit whose epoch has passed with its number of frames; retired frames that stay
in the pool are free; with nothing to retire only EPOCH_MIN is brought up to date. -/
def Obligations.PagesMapAndUnmap : Prop :=
  ∀ (s : State) (p : Pkt) (j : Job),
    (∀ b, b = begun s 0x28 p → hostReady s 0x28 p = true → editJob b (cmdOf 0x28 p) = .ok j →
      (∀ d, mapRefusal b p = some d → exec (.mapPages p) s = .next (s.after (answered b 0x28 p St.badParam d 0 0))) ∧
      (∀ a, mapRefusal b p = none → editSize p = 0 → editPages p = 1 → leafSlot b p.p0.toNat 0 = some a → bankOn b a = true →
        b.flag Fd.BOOT_ZERO_SRAM_BUSY = false →
        ∃ u, exec (.mapPages p) s = .next (s.after (answered u 0x28 p St.ok 0 0 0)) ∧ u.leMem a 8 = mapEntry p 0 ∧
          (∀ x, x < a ∨ a + 8 ≤ x → u.bytes x 1 = s.bytes x 1) ∧
          (∀ t ∈ u.tb, t.pinned = false → p.p0.toNat + 4096 ≤ t.page * 2 ^ t.bits ∨ (t.page + 1) * 2 ^ t.bits ≤ p.p0.toNat) ∧
          u = { b with regs := u.regs, mem := u.mem, zeroing := u.zeroing, poison := u.poison, upsets := u.upsets, tb := u.tb })) ∧
    (∀ b, b = begun s 0x29 p → hostReady s 0x29 p = true → editJob b (cmdOf 0x29 p) = .ok j →
      (∀ d, unmapRefusal p = some d → exec (.unmapPages p) s = .next (s.after (answered b 0x29 p St.badParam d 0 0))) ∧
      (∀ a, unmapRefusal p = none → editSize p = 0 → editPages p = 1 → inKvRange b p.p0.toNat 4096 = false →
        leafSlot b p.p0.toNat 0 = some a → bitOf (b.leMem a 8) 0 = true → bankOn b a = true → b.flag Fd.BOOT_ZERO_SRAM_BUSY = false →
        s.regN Reg.DMMU_RETIRING < 2 ^ 32 →
        ∃ u, exec (.unmapPages p) s = .next (s.after u) ∧ underway u 0x29 p ∧ u.leMem a 8 = 0 ∧
          (∀ x, x < a ∨ a + 8 ≤ x → u.bytes x 1 = s.bytes x 1) ∧
          (∀ t ∈ u.tb, t.pinned = false → p.p0.toNat + 4096 ≤ t.page * 2 ^ t.bits ∨ (t.page + 1) * 2 ^ t.bits ≤ p.p0.toNat) ∧
          u.regN Reg.DMMU_EPOCH = (s.regN Reg.DMMU_EPOCH + 1) % 2 ^ 32 ∧ u.regN Reg.DMMU_RETIRING = s.regN Reg.DMMU_RETIRING + 1)) ∧
    (s.phase = .running →
      (∀ c, s.cmds.filter (fun c => (c.opcode == 0x29 || c.opcode == 0x2A) && c.phase == .executing && c.aux != 0 &&
          decide (c.aux / 2 ^ 32 < epochMin s)) = [c] →
        ∃ t, exec .frameRetire s = .next (s.after (finishCmd t c St.ok 0 (BitVec.ofNat 64 (c.aux % 2 ^ 32)) 0)) ∧ MemKept s t ∧
          (∀ r ∈ s.kvRetiring, r.epoch < epochMin s → r.remove = false → ∀ f ∈ r.frames, f ∈ t.kvFree) ∧
          (∀ r ∈ t.kvRetiring, epochMin s ≤ r.epoch) ∧ t.kvPages = s.kvPages) ∧
      ((∀ c ∈ s.cmds, c.aux = 0) → s.kvRetiring = [] →
        exec .frameRetire s = .next (s.after (s.setRegN Reg.DMMU_EPOCH_MIN (epochMin s)))))

/-- SEQ_PAGE_EDIT writes the descriptor, unmaps blocks and moves a block to a free frame; the frames retire (R141; R142; R160; R161; R164;
R165). On the job that owns the compute, with no step running on the sequence. CONFIG writes the 256 bytes of the descriptor where its
page lies. RESET and TRIM of mapped blocks: no block of the sequence (of the head below P1) is mapped any more, each frame of theirs
retires, the command waits. MOVE: the block is on the frame that was taken from the pool, the old frame retires, the command waits. -/
def Obligations.SequencesAreEdited : Prop :=
  ∀ (s : State) (p k : Pkt) (b : State) (j : Job), b = begun s 0x2A k → hostReady s 0x2A k = true → editJob b (cmdOf 0x2A k) = .ok j →
    seqEditRefusal k = none → b.regN Reg.AE0_KV_SEQ_BASE ≠ 0 → editBlocked b (cmdOf 0x2A k) (heldEdits b) = false →
    (k = withOp p 1 → configRefusal b k = none →
      ∃ u, exec (.seqPageEditConfig p) s = .next (s.after (answered u 0x2A k St.ok 0 0 0)) ∧ u.kvPages = s.kvPages ∧ u.kvFree = s.kvFree ∧
        ∀ a, b.regN Reg.AE0_KV_SEQ_BASE % 4096 = 0 → (translate b (seqDescVa b (editSeq k)) true).1 = .phys a → a % 256 = 0 →
          bankOn b a = true → fwAllows b editOrigin a true = true → b.flag Fd.BOOT_ZERO_SRAM_BUSY = false →
          u.bytes a 256 = configBytes (k.p1.toNat % 2 ^ 32) (k.p1.toNat / 2 ^ 32) k.p2.toNat ∧
          ∀ x, x < a ∨ a + 256 ≤ x → u.bytes x 1 = s.bytes x 1) ∧
    (k = withOp p 0 → (∃ x ∈ s.kvPages, x.seq = editSeq k) →
      ∃ t, exec (.seqPageEditReset p) s = .next (s.after t) ∧ underway t 0x2A k ∧ t.kvFree = s.kvFree ∧
        (∀ x ∈ t.kvPages, x.seq ≠ editSeq k) ∧ (∀ x ∈ s.kvPages, x.seq ≠ editSeq k → x ∈ t.kvPages) ∧
        ∀ x ∈ s.kvPages, x.seq = editSeq k → ∃ r ∈ t.kvRetiring, r.epoch = s.regN Reg.DMMU_EPOCH ∧ r.remove = false ∧ x.frame ∈ r.frames) ∧
    (k = withOp p 2 → seqHeadOk b k = true → k.p1.toNat < 2 ^ 32 →
      (∃ x ∈ s.kvPages, x.seq = editSeq k ∧ x.head = editHead k ∧ x.block < k.p1.toNat) →
      ∃ t, exec (.seqPageEditTrim p) s = .next (s.after t) ∧ underway t 0x2A k ∧ t.kvFree = s.kvFree ∧
        (∀ x ∈ t.kvPages, ¬(x.seq = editSeq k ∧ x.head = editHead k ∧ x.block < k.p1.toNat)) ∧
        ∀ x ∈ s.kvPages, if x.seq = editSeq k ∧ x.head = editHead k ∧ x.block < k.p1.toNat then
          ∃ r ∈ t.kvRetiring, r.epoch = s.regN Reg.DMMU_EPOCH ∧ r.remove = false ∧ x.frame ∈ r.frames else x ∈ t.kvPages) ∧
    (∀ g f s1, k = withOp p 3 → seqHeadOk b k = true → k.p2.toNat < 2 →
      kvLookup b (editSeq k) (editHead k) k.p1.toNat = some g → takeFrame b (bitOf k.p2.toNat 0) = some (f, s1) →
      ∃ t, exec (.seqPageEditMove p) s = .next (s.after t) ∧ underway t 0x2A k ∧ f.remote = bitOf k.p2.toNat 0 ∧
        t.kvFree = s.kvFree.erase f ∧ kvLookup t (editSeq k) (editHead k) k.p1.toNat = some { g with frame := f } ∧
        ∃ r ∈ t.kvRetiring, r.epoch = s.regN Reg.DMMU_EPOCH ∧ r.frames = [g.frame])

/-- POOL_ADD and POOL_REMOVE change the free frames; an edit of a sequence with a running step is held and applied after it (R160; R162;
R163; R167). POOL_ADD of frames that exist and are not in the pool: they are free, AE0_KV_FREE counts them, the reply has their number.
POOL_REMOVE of frames that are free or not in the pool: no such frame is free afterwards, mapped ones stay, the reply has how many left.
An edit that must wait for a step, while fewer than 512 wait before it: nothing of memory or of the pool changes, the engines that it
waits for show EDIT_HELD, the command stays in flight. HELD_EDIT_APPLY: with no edit ready nothing changes; else the oldest ready one is
held no longer and has the effect it would have had; an engine shows EDIT_HELD while an edit that arrived during its step is held. -/
def Obligations.PoolAndHeldEdits : Prop :=
  (∀ (s : State) (p k : Pkt) (b : State) (j : Job), b = begun s 0x2A k → hostReady s 0x2A k = true → editJob b (cmdOf 0x2A k) = .ok j →
    seqEditRefusal k = none →
    (k = withOp p 4 → poolParamBad k = none → poolAddRefusal b k = none → (∀ f ∈ poolFrames k, inPool s f = false) →
      s.fld Fd.AE0_KV_POOL_TOTAL_COUNT + (poolFrames k).length < 2 ^ 24 →
      ∃ u, exec (.poolAdd p) s = .next (s.after (answered u 0x2A k St.ok 0 (BitVec.ofNat 64 (poolFrames k).length) 0)) ∧
        u.kvFree = s.kvFree ++ poolFrames k ∧ u = { b with regs := u.regs, kvFree := u.kvFree } ∧
        u.reg Reg.AE0_KV_FREE = BitVec.ofNat 64 u.kvFree.length ∧
        RegsKept (flightRegs k ++ [Reg.AE0_KV_FREE, Reg.AE0_KV_MAPPED, Reg.AE0_KV_RETIRING, Reg.AE0_KV_POOL_TOTAL, Reg.AE0_KV_REMOTE]) s u) ∧
    (k = withOp p 5 → poolParamBad k = none → (∀ x ∈ s.kvPages, x.frame ∉ poolFrames k) →
      (∀ r ∈ s.kvRetiring, ∀ f ∈ r.frames, f ∉ poolFrames k) →
      ∃ u, exec (.poolRemove p) s =
          .next (s.after (answered u 0x2A k St.ok 0 (BitVec.ofNat 64 (s.kvFree.filter (fun f => (poolFrames k).contains f)).length) 0)) ∧
        u.kvFree = s.kvFree.filter (fun f => !((poolFrames k).contains f)) ∧ u.kvPages = s.kvPages ∧ MemKept s u) ∧
    (k = withOp p 2 → b.regN Reg.AE0_KV_SEQ_BASE ≠ 0 → editBlocked b (cmdOf 0x2A k) (heldEdits b) = true →
      waitingBefore b (cmdOf 0x2A k) (fun x => isEdit x.opcode) < 512 →
      ∃ t, exec (.seqPageEditTrim p) s = .next (s.after t) ∧ underway t 0x2A k ∧ MemKept s t ∧ t.kvPages = s.kvPages ∧ t.kvFree = s.kvFree ∧
        t.kvRetiring = s.kvRetiring ∧ ∀ n ∈ stepsOn b [editSeq k], t.flag (Fd.AE_STATUS_EDIT_HELD n) = true)) ∧
    (∀ s : State, s.phase = .running →
      (readyEdit s = none → exec .heldEditApply s = .next s) ∧
      (∀ c, readyEdit s = some c →
        ∃ u, u = { setCmdAux s c 0 with editHeld := s.editHeld.filter (fun h => !(samePkt c h.1)) } ∧
          exec .heldEditApply s = .next (s.after (showHeldEdits (applyEdit { c with aux := 0 } u)))))

/-- SEASON_STAGE and ADAPT_STEP refuse in the order of Table 8.4, or stage the next season in the other bank (R201; R204; R205; R206;
R200). SEASON_STAGE of the candidate, on the job that owns the compute: none ready BUSY where the bank, a commit or the window is busy,
else BAD_PARAM; a number that is not the next STALE_GENERATION; the other bank, a commit or the window busy BUSY; too few retained slots
or a bad entry BAD_PARAM, each counted in STAGE_REFUSED. A good record without weights: STAGED_V, STAGED the next number, the season in
force and every byte of its bank as before; without shadow slots SHADOW_OK at once, else that many are to run. ADAPT_STEP of a device in
no group: refused in order where expelled, with a wrong step number, busy, or without its retained slots; else the step is counted and the
next season staged. CANDIDATE_BUILD of a closed window keeps the candidate and begins a new window. The gradients are an operand of the
command. -/
def Obligations.SeasonsAreStaged : Prop :=
  ∀ (s b : State) (p : Pkt) (j : Job),
    (b = begun s 0x30 p → hostReady s 0x30 p = true → editJob b (cmdOf 0x30 p) = .ok j → p.p0 = 0 → unusedFrom p 1 = none →
      (b.flag Fd.CAL_STATUS_CAND_READY = false → exec (.seasonStage p) s = .next (s.after
        (answered (b.bump Reg.CAL_STAGE_REFUSED) 0x30 p (if stageBusy b then St.busy else St.badParam) (if stageBusy b then 0 else 1) 0 0))) ∧
      ∀ r, r = seasonRec s.candidate → b.flag Fd.CAL_STATUS_CAND_READY = true →
        (r.number ≠ (b.regN Reg.CAL_SEASON + 1) % 2 ^ 32 →
          exec (.seasonStage p) s = .next (s.after (answered (b.bump Reg.CAL_STAGE_REFUSED) 0x30 p St.staleGeneration 1 0 0))) ∧
        (r.number = (b.regN Reg.CAL_SEASON + 1) % 2 ^ 32 → stageBusy b = true →
          exec (.seasonStage p) s = .next (s.after (answered (b.bump Reg.CAL_STAGE_REFUSED) 0x30 p St.busy 0 0 0))) ∧
        (r.number = (b.regN Reg.CAL_SEASON + 1) % 2 ^ 32 → stageBusy b = false →
          retainedHeld b j < b.fld Fd.CAL_SHADOW_MIN_COUNT ∨ recordOk b j r = false →
          exec (.seasonStage p) s = .next (s.after (answered (b.bump Reg.CAL_STAGE_REFUSED) 0x30 p St.badParam 1 0 0))) ∧
        (r.number = (b.regN Reg.CAL_SEASON + 1) % 2 ^ 32 → stageBusy b = false → b.fld Fd.CAL_SHADOW_MIN_COUNT ≤ retainedHeld b j →
          recordOk b j r = true → r.weights = [] → (windowsOf b j).all (fun w => decide (w.2 ≤ 2 ^ 18)) = true →
          ∃ u, exec (.seasonStage p) s = .next (s.after (answered u 0x30 p St.ok 0 (BitVec.ofNat 64 r.number) 0)) ∧
            u.flag Fd.CAL_STATUS_STAGED_V = true ∧ u.regN Reg.CAL_STAGED = r.number ∧ u.reg Reg.CAL_SEASON = s.reg Reg.CAL_SEASON ∧
            u.shadowLeft = s.fld Fd.CAL_SHADOW_MIN_COUNT ∧
            (s.fld Fd.CAL_SHADOW_MIN_COUNT = 0 → u.flag Fd.CAL_STATUS_SHADOW_OK = true) ∧
            ∀ n k, k < 2 ^ 18 → u.bankBytes n (s.regN Reg.CAL_SEASON % 2) k 1 = s.bankBytes n (s.regN Reg.CAL_SEASON % 2) k 1)) ∧
    (∀ g, b = begun s 0x32 p → hostReady s 0x32 p = true → editJob b (cmdOf 0x32 p) = .ok j → p.p0.toNat < 2 ^ 32 →
      unusedFrom p 3 = none →
      (b.flag Fd.CAL_STATUS_EXPELLED = true → exec (.adaptStep p g) s = .next (s.after (answered b 0x32 p St.badParam 0 0 0))) ∧
      (b.flag Fd.CAL_STATUS_EXPELLED = false →
        (p.p0.toNat ≠ (b.regN Reg.CAL_ADAPT_STEP_NO + 1) % 2 ^ 32 →
          exec (.adaptStep p g) s = .next (s.after (answered b 0x32 p St.staleGeneration 1 0 0))) ∧
        (p.p0.toNat = (b.regN Reg.CAL_ADAPT_STEP_NO + 1) % 2 ^ 32 →
          (stageBusy b = true ∨ (adaptSlot b).any (fun h => b.reductions.any (fun r => r.slot == h)) = true →
            exec (.adaptStep p g) s = .next (s.after (answered b 0x32 p St.busy 0 0 0))) ∧
          (stageBusy b = false → (adaptSlot b).any (fun h => b.reductions.any (fun r => r.slot == h)) = false →
            (retentionHeld b j (bitsOf p.p2.toNat 31 0) (bitsOf p.p2.toNat 63 32) = false →
              exec (.adaptStep p g) s = .next (s.after (answered b 0x32 p St.badParam 3 0 0))) ∧
            (retentionHeld b j (bitsOf p.p2.toNat 31 0) (bitsOf p.p2.toNat 63 32) = true → adaptSlot b = none →
              ∃ u, exec (.adaptStep p g) s =
                  .next (s.after (answered u 0x32 p St.ok 0 (BitVec.ofNat 64 ((s.regN Reg.CAL_SEASON + 1) % 2 ^ 32)) 0)) ∧
                u.flag Fd.CAL_STATUS_STAGED_V = true ∧ u.regN Reg.CAL_STAGED = (s.regN Reg.CAL_SEASON + 1) % 2 ^ 32 ∧
                u.regN Reg.CAL_ADAPT_STEP_NO = p.p0.toNat ∧ u.reg Reg.CAL_SEASON = s.reg Reg.CAL_SEASON))))) ∧
    (s.phase = .running → s.owner = some j →
      (windowClosed s = true → ∃ t, exec .candidateBuild s = .next (s.after t) ∧ t.candidate = candidateBytes s j ∧
        t.flag Fd.CAL_STATUS_CAND_READY = true ∧ t.calSlots = 0 ∧ t.calRecs = [] ∧ t.calRadio = [] ∧ RegsKept [Reg.CAL_STATUS] s t) ∧
      (windowClosed s = false → exec .candidateBuild s = .next s))

/-- SEASON_COMMIT refuses in the order of Table 8.5, waits for its instant, or changes the season at once; a withdrawn commit changes
nothing (R206; R207; R209). SEASON_COMMIT on the job that owns the compute: nothing staged BAD_PARAM; a commit pending or shadow slots to
run BUSY; shadow slots that failed or a digest in the minority CHECK_MISMATCH; another number STALE_GENERATION. Accepted, with carriers or
a verdict to wait for, the commit is pending; else the season rises by one, STAGED_V and COMMIT_PENDING clear, LAST_CHANGE is the device
time, a new window begins, and the commit is answered with number and time. SHADOW_CHECK ends the shadow slots with SHADOW_OK, or
SHADOW_FAIL where a tensor grew beyond the limit. COMMIT_WITHDRAWAL clears a pending commit and answers it DEADLINE_MISSED. -/
def Obligations.SeasonsComeIntoForce : Prop :=
  ∀ (s b : State) (p : Pkt) (j : Job),
    (b = begun s 0x31 p → hostReady s 0x31 p = true → editJob b (cmdOf 0x31 p) = .ok j → unusedFrom p 1 = none →
      (b.flag Fd.CAL_STATUS_STAGED_V = false → exec (.seasonCommit p) s = .next (s.after (answered b 0x31 p St.badParam 1 0 0))) ∧
      (b.flag Fd.CAL_STATUS_STAGED_V = true →
        (b.flag Fd.CAL_STATUS_COMMIT_PENDING = true ∨ 0 < b.shadowLeft →
          exec (.seasonCommit p) s = .next (s.after (answered b 0x31 p St.busy 0 0 0))) ∧
        (b.flag Fd.CAL_STATUS_COMMIT_PENDING = false → b.shadowLeft = 0 →
          (b.flag Fd.CAL_STATUS_SHADOW_FAIL = true ∨ b.oddStage = true →
            exec (.seasonCommit p) s = .next (s.after (answered b 0x31 p St.checkMismatch 0 0 0))) ∧
          (b.flag Fd.CAL_STATUS_SHADOW_FAIL = false → b.oddStage = false →
            (p.p0.toNat ≠ b.regN Reg.CAL_STAGED →
              exec (.seasonCommit p) s = .next (s.after (answered b 0x31 p St.staleGeneration 1 0 0))) ∧
            (p.p0.toNat = b.regN Reg.CAL_STAGED →
              (j.image.slotTable ≠ [] ∨ awaitsVerdict b = true →
                exec (.seasonCommit p) s = .next (s.after (b.setFld Fd.CAL_STATUS_COMMIT_PENDING 1))) ∧
              (j.image.slotTable = [] → awaitsVerdict b = false →
                ∃ t, exec (.seasonCommit p) s = .next (s.after (finishWhere t 0x31 (fun _ => true) St.ok 0
                    (BitVec.ofNat 64 ((s.regN Reg.CAL_SEASON + 1) % 2 ^ 32)) s.time64)) ∧ t.cmds = b.cmds ∧
                  t.regN Reg.CAL_SEASON = (s.regN Reg.CAL_SEASON + 1) % 2 ^ 32 ∧ t.flag Fd.CAL_STATUS_STAGED_V = false ∧
                  t.flag Fd.CAL_STATUS_COMMIT_PENDING = false ∧ t.reg Reg.CAL_LAST_CHANGE = s.time64 ∧ t.calSlots = 0 ∧ t.rangePass = [] ∧
                  t.banks = s.banks)))))) ∧
    (s.phase = .running → s.owner = some j →
      (s.flag Fd.CAL_STATUS_STAGED_V = true → 0 < s.shadowLeft →
        ∃ t, exec .shadowCheck s = .next (s.after t) ∧ t.shadowLeft = 0 ∧ t = { s with regs := t.regs, shadowLeft := 0 } ∧
          RegsKept [Reg.CAL_STATUS, Reg.CAL_SHADOW_SLOTS] s t ∧
          (if j.image.cal.any (fun x => tensorGrew s (s.regN Reg.CAL_STAGED % 2) x (bankG s j (s.regN Reg.CAL_STAGED % 2) x) (tensorRecs (shadowTotals s) j x)) then
            t.flag Fd.CAL_STATUS_SHADOW_FAIL = true else t.flag Fd.CAL_STATUS_SHADOW_OK = true)) ∧
      (s.flag Fd.CAL_STATUS_STAGED_V = false ∨ s.shadowLeft = 0 → exec .shadowCheck s = .next s)) ∧
    (s.phase = .running →
      (s.flag Fd.CAL_STATUS_COMMIT_PENDING = true → exec .commitWithdrawal s =
        .next (s.after (finishWhere (s.setFld Fd.CAL_STATUS_COMMIT_PENDING 0) 0x31 (fun _ => true) St.deadlineMissed 0 0 0))) ∧
      (s.flag Fd.CAL_STATUS_COMMIT_PENDING = false → exec .commitWithdrawal s = .next s))

/-- DIGEST_REPORT returns digest, season and verdict; a verdict agrees with this device, or expels it; a step whose sum does not come is
abandoned (R215; R216; R217; R218). DIGEST_REPORT posts 37 bytes of data records: digest, its season, verdict. DIGEST_VERDICT of the root
of the adaptation group with a digest outstanding: where more than half of the members hold its own digest it agrees, else it is expelled;
DIGEST_VERDICT_RECEIVE of another member: a verdict equal to its own digest agrees where that digest had reached the root, another one or
none expels. Expelled: CAL_STATUS.EXPELLED sets, no commit is pending, the verdict is 2. Without an outstanding digest nothing changes.
GROUP_SUM_TIMEOUT drops the reduction of the group; an executing ADAPT_STEP is answered DEADLINE_MISSED. The digests that came and the
verdict are operands of the commands. -/
def Obligations.DigestsAndVerdicts : Prop :=
  (∀ (s : State) (p : Pkt), hostReady s 0x33 p = true → unusedFrom p 0 = none →
      ∃ bs, bs.length = 37 ∧ bs.take 32 = ownDigest s ∧ leAt bs 32 4 = s.digestSeason % 2 ^ 32 ∧ leAt bs 36 1 = s.verdict % 256 ∧
        exec (.digestReport p) s = .next (s.after (answered (postData (begun s 0x33 p) (cmdOf 0x33 p) bs) 0x33 p St.ok 0 0 0))) ∧
    ∀ (s : State) (g : Nat), s.phase = .running → adaptSlot s = some g →
      (∀ ds, verdictDue s = true → groupRoot s g = deviceId s → ∃ t, exec (.digestVerdict ds) s = .next (s.after t) ∧
        (if majority (groupMembers s g).length (ownDigest s :: (groupMembers s g).filterMap (fun m => if m = deviceId s then none
            else (ds.find? (fun d => d.1.toNat == m)).map (fun d => d.2))) = some (ownDigest s) then t.verdict = 1 ∧ t.agreed = ownDigest s
          else t.verdict = 2 ∧ t.flag Fd.CAL_STATUS_EXPELLED = true ∧ t.flag Fd.CAL_STATUS_COMMIT_PENDING = false)) ∧
      (∀ v, verdictDue s = true → groupRoot s g ≠ deviceId s → ∃ t, exec (.digestVerdictReceive v) s = .next (s.after t) ∧
        (if v = some (some (ownDigest s), true) then t.verdict = 1 ∧ t.agreed = ownDigest s
          else t.verdict = 2 ∧ t.flag Fd.CAL_STATUS_EXPELLED = true ∧ t.flag Fd.CAL_STATUS_COMMIT_PENDING = false)) ∧
      (∀ ds v, verdictDue s = false → exec (.digestVerdict ds) s = .next s ∧ exec (.digestVerdictReceive v) s = .next s) ∧
      (∃ t, exec .groupSumTimeout s = .next (s.after t) ∧ (∀ r ∈ t.reductions, r.slot ≠ g) ∧ (∀ r ∈ t.redIn, r.slot ≠ g) ∧
        ((∃ r ∈ s.reductions, r.slot = g) → ∃ u, t = finishWhere u 0x32 (fun _ => true) St.deadlineMissed 0 0 0 ∧ u.cmds = s.cmds) ∧
        ((∀ r ∈ s.reductions, r.slot ≠ g) → t.cmds = s.cmds))

/-- A packet acts once and in order: a bad FCS, an old epoch and a wrong PSN change nothing but counts, paths and acknowledgements (R368;
R371; R373). For every packet other than CTRL OPEN. On a link that is down nothing arrives. A bad FCS is counted in FCS_ERR, a packet of
no path or of another epoch in STALE_EPOCH, and nothing else changes. One whose PSN is not the next of its channel changes the links' own
bookkeeping only: no memory, window, import, group, command or job. An accepted NOP likewise, and its channel has accepted one more. (A
REDUCE from this device itself is no packet: its own participants present their sums.) -/
def Obligations.PacketsAreTakenInOrder : Prop :=
  ∀ (c : Instr) (h : IlpHdr) (s : State), packetHdr c = some h → s.phase = .running → (∀ r, c = .iferikReduce h r → h.src.toNat ≠ deviceId s) →
    (ilpUp s h.port.val = false → exec c s = .next s) ∧
    (ilpUp s h.port.val = true → h.fcs = false → exec c s = .next (s.after (s.bump (Reg.ILP_FCS_ERR h.port.val)))) ∧
    (ilpUp s h.port.val = true → h.fcs = true → (∀ x, s.path h.port.val h.src.toNat = some x → x.epoch ≠ h.epoch.toNat) →
      exec c s = .next (s.after (s.bump (Reg.ILP_STALE_EPOCH h.port.val)))) ∧
    (∀ x, arrivesOn s h x → ¬ accepted s h x → ∃ t, exec c s = .next (s.after t) ∧ LinkOnly s t) ∧
    (∀ x, accepted s h x → c = .iferikNop h → ∃ t, exec c s = .next (s.after t) ∧ LinkOnly s t ∧
      (h.vc.val < x.vcs.length → ∃ y, t.path h.port.val h.src.toNat = some y ∧
        (y.vc h.vc.val).accepted = (x.vc h.vc.val).accepted + 1))

/-- Paths open and close by CTRL packets and fail by timeouts, a link that goes down and a new epoch; PFC pauses a channel (R364; R367;
R368; R373; R374; R375; R451). CTRL OPEN from a peer without a path opens one with its epoch, answered with this end's grants, unless the
port has 256; with a newer epoch the old path fails first; with an old one it is discarded and counted in STALE_EPOCH; with the epoch of
this end's OPEN the path is open. An accepted CTRL CLOSE on a path with nothing queued ends it. RTO_EXPIRY sends again and counts a retry
until the last, then the path fails: PATH_FAIL counts, imports over it close, open windows over it are gone (and with no stream in
progress memory stays). ACK_TIMER sends acknowledgements only. ILP_LINK_DOWN fails every path of the port; ILP_LINK_UP, outside Retain,
shows the link and reopens nothing. PFC_PAUSE_FRAME sets the pause of each PCP that it enables, and no other. -/
def Obligations.PathsOpenCloseAndFail : Prop :=
  ∀ (s : State) (h : IlpHdr) (gs : List (BitVec 14)) (n peer : Nat), n = h.port.val → peer = h.src.toNat → s.phase = .running →
    (ilpUp s n = false → exec (.ctrlOpen h gs) s = .next s) ∧
    (ilpUp s n = true → h.fcs = false → exec (.ctrlOpen h gs) s = .next (s.after (s.bump (Reg.ILP_FCS_ERR n)))) ∧
    (ilpUp s n = true → h.fcs = true →
      (s.path n peer = none →
        (h.epoch.toNat ≠ 0 → Tbl.get (fun _ => 0) s.pathEpochs (4096 * n + peer) = h.epoch.toNat →
          exec (.ctrlOpen h gs) s = .next (s.after (s.bump (Reg.ILP_STALE_EPOCH n)))) ∧
        (h.epoch.toNat = 0 ∨ Tbl.get (fun _ => 0) s.pathEpochs (4096 * n + peer) ≠ h.epoch.toNat → 256 ≤ portPaths s n →
          exec (.ctrlOpen h gs) s = .next s) ∧
        (h.epoch.toNat = 0 ∨ Tbl.get (fun _ => 0) s.pathEpochs (4096 * n + peer) ≠ h.epoch.toNat → portPaths s n < 256 → ∃ t y, exec (.ctrlOpen h gs) s = .next (s.after t) ∧ LinkOnly { s with pathEpochs := t.pathEpochs } t ∧
          t.path n peer = some y ∧ y.epoch = h.epoch.toNat ∧ y.opening = false ∧ queuedTo t n peer (.ctrl (.openPath (firstGrants s n))))) ∧
      (∀ x, s.path n peer = some x →
        (newerEpoch h.epoch.toNat x.epoch = true →
          exec (.ctrlOpen h gs) s = .next (s.after (openedBy (pathFail s n peer) h (gs.map BitVec.toNat)))) ∧
        (newerEpoch h.epoch.toNat x.epoch = false → x.epoch ≠ h.epoch.toNat →
          exec (.ctrlOpen h gs) s = .next (s.after (s.bump (Reg.ILP_STALE_EPOCH n)))) ∧
        (x.epoch = h.epoch.toNat → x.opening = false → exec (.ctrlOpen h gs) s = .next s) ∧
        (x.epoch = h.epoch.toNat → x.opening = true → ∃ t y, exec (.ctrlOpen h gs) s = .next (s.after t) ∧ LinkOnly s t ∧
          t.path n peer = some y ∧ y.opening = false))) ∧
    (∀ x, accepted s h x → x.queue = [] → ∃ t, exec (.ctrlClose h) s = .next (s.after t) ∧ t.path n peer = none ∧ LinkOnly s t) ∧
    (s.path n peer = none → exec (.rtoExpiry h.port h.src) s = .next s ∧ exec (.ackTimer h.port h.src) s = .next s) ∧
    (∀ x, s.path n peer = some x →
      (x.unacked.all (fun p => p.body == .nop) = true → exec (.rtoExpiry h.port h.src) s = .next s) ∧
      (x.unacked.all (fun p => p.body == .nop) = false → x.retries + 1 < s.fld (Fd.ILP_RTO_RETRIES n) →
        ∃ t y, exec (.rtoExpiry h.port h.src) s = .next (s.after t) ∧ LinkOnly s t ∧ t.path n peer = some y ∧ y.retries = x.retries + 1 ∧
          y.unacked = x.unacked) ∧
      (x.unacked.all (fun p => p.body == .nop) = false → s.fld (Fd.ILP_RTO_RETRIES n) ≤ x.retries + 1 →
        ∃ t, exec (.rtoExpiry h.port h.src) s = .next (s.after t) ∧
          (s.streams = [] → t.regN (Reg.ILP_PATH_FAIL n) = min (s.regN (Reg.ILP_PATH_FAIL n) + 1) 0xFFFFFFFF ∧ MemKept s t) ∧
          (∀ i ∈ t.imports, i.port = n → i.owner = peer → i.isOpen = false) ∧
          (∀ w ∈ t.windows, w.port = n → w.peer = peer → w.state = .opening))) ∧
    (∃ t, exec (.ackTimer h.port h.src) s = .next (s.after t) ∧ LinkOnly s t) ∧
    (ilpUp s n = false → exec (.ilpLinkDown h.port) s = .next s) ∧
    (ilpUp s n = true → ∃ t, exec (.ilpLinkDown h.port) s = .next (s.after t) ∧ ilpUp t n = false ∧ (s.streams = [] → MemKept s t) ∧
      ∀ x ∈ s.paths, x.port = n → ∀ i ∈ t.imports, i.port = n → i.owner = x.peer → i.isOpen = false) ∧
    (ilpUp s n = true ∨ s.fld Fd.PMU_STATE_STATE = 2 → exec (.ilpLinkUp h.port) s = .next s) ∧
    (ilpUp s n = false → s.fld Fd.PMU_STATE_STATE ≠ 2 → ∃ t, exec (.ilpLinkUp h.port) s = .next (s.after t) ∧ ilpUp t n = true ∧
      t.paths = s.paths ∧ MemKept s t) ∧
    (∀ (en : BitVec 8) (qs : List (BitVec 16)), ilpUp s n = true → ∃ t, exec (.pfcPauseFrame h.port en qs) s = .next (s.after t) ∧
      t.regN (Reg.ILP_PFC_RX n) = min (s.regN (Reg.ILP_PFC_RX n) + 1) 0xFFFFFFFF ∧ LinkOnly { s with ilpPause := t.ilpPause } t ∧
      ∀ k, Tbl.get (fun _ => 0) t.ilpPause k = (if k / 8 = n ∧ bitOf en.toNat (k % 8) = true then
          (if (qs.map BitVec.toNat).getD (k % 8) 0 = 0 then 0 else nowT s + (12 * (qs.map BitVec.toNat).getD (k % 8) 0 + 4) / 5)
        else Tbl.get (fun _ => 0) s.ilpPause k))

/-- A window is announced, opens with the importer's consent, and closes by revoke and acknowledgement; an import closes at once (R373;
R375; R376; R377; R378). WINDOW_OPEN: BAD_PARAM for a range outside the exportable memories or a peer without a route, BUSY for a number
in use; else the window is opening, ANNOUNCE goes to the peer, the command waits. An accepted ANNOUNCE is recorded as an open import and
consented to, unless one of that number is open. The consent opens the window, its refusal drops it, and either answers the command.
WINDOW_CLOSE of an open window: it is closing, REVOKE goes to the peer, the command waits; of others the status the rule gives. REVOKE
closes the import and is acknowledged; the acknowledgement ends the window and answers the command. CTRL_TIMEOUT of an announcement closes
the window, at once without a path to its peer, of a close that is awaited the path fails. -/
def Obligations.WindowsOpenAndClose : Prop :=
  ∀ (s : State) (p : Pkt),
    (hostReady s 0x38 p = true → p.p0.toNat < 2 ^ 26 → unusedFrom p 3 = none →
      (windowRange p.p1.toNat p.p2.toNat = false → exec (.windowOpen p) s = .next (s.after (answered (begun s 0x38 p) 0x38 p St.badParam 2 0 0))) ∧
      (windowRange p.p1.toNat p.p2.toNat = true → p.job = 0 →
        (ilpRoute s (bitsOf p.p0.toNat 23 12) = none →
          exec (.windowOpen p) s = .next (s.after (answered (begun s 0x38 p) 0x38 p St.badParam 1 0 0))) ∧
        (∀ n, ilpRoute s (bitsOf p.p0.toNat 23 12) = some n →
          ((s.window (p.p0.toNat % 4096)).isSome = true →
            exec (.windowOpen p) s = .next (s.after (answered (begun s 0x38 p) 0x38 p St.busy 0 0 0))) ∧
          (s.window (p.p0.toNat % 4096) = none → (s.path n (bitsOf p.p0.toNat 23 12)).isSome = true ∨ portPaths s n < 256 →
            ∃ t, exec (.windowOpen p) s = .next (s.after t) ∧ underway t 0x38 p ∧ MemKept s t ∧
              t.windows = s.windows ++ [⟨p.p0.toNat % 4096, bitsOf p.p0.toNat 23 12, n, p.p1.toNat, p.p2.toNat, bitOf p.p0.toNat 24,
                bitOf p.p0.toNat 25, 0, .opening⟩] ∧
              queuedTo t n (bitsOf p.p0.toNat 23 12)
                (.ctrl (.announce (p.p0.toNat % 4096) p.p2.toNat (bitOf p.p0.toNat 24) (bitOf p.p0.toNat 25))))))) ∧
    (∀ w, hostReady s 0x39 p = true → w = p.p0.toNat → w < 4096 → unusedFrom p 1 = none →
      (s.window w = none → exec (.windowClose p) s = .next (s.after (answered (begun s 0x39 p) 0x39 p
        (if s.imports.any (fun i => i.num == w && i.isOpen) then St.badParam else St.windowClosed) 1 0 0))) ∧
      (∀ x, s.window w = some x →
        (x.state = .closing → exec (.windowClose p) s = .next (s.after (answered (begun s 0x39 p) 0x39 p St.busy 0 0 0))) ∧
        (x.state = .opening → exec (.windowClose p) s = .next (s.after (answered (begun s 0x39 p) 0x39 p St.windowClosed 1 0 0))) ∧
        (x.state = .isOpen → (s.path x.port x.peer).isSome = true →
          ∃ t, exec (.windowClose p) s = .next (s.after t) ∧ underway t 0x39 p ∧ MemKept s t ∧ t.imports = s.imports ∧
            t.window w = some { x with state := .closing } ∧ queuedTo t x.port x.peer (.ctrl (.revoke w))))) ∧
    (∀ (h : IlpHdr) (y : Path) (w : BitVec 12), accepted s h y →
      (∀ len r wr, ∃ t, exec (.ctrlAnnounce h w len r wr) s = .next (s.after t) ∧ MemKept s t ∧ t.windows = s.windows ∧
        queuedTo t h.port.val h.src.toNat (.ctrl (.accept w.toNat (!(s.imports.any (fun i => i.num == w.toNat && i.isOpen))))) ∧
        t.imports = (if s.imports.any (fun i => i.num == w.toNat && i.isOpen) then s.imports
          else s.imports.filter (fun i => i.num != w.toNat) ++ [⟨w.toNat, h.src.toNat, h.port.val, len.toNat, r, wr, true⟩])) ∧
      (∃ t, exec (.ctrlRevoke h w) s = .next (s.after t) ∧ MemKept s t ∧ t.windows = s.windows ∧
        queuedTo t h.port.val h.src.toNat (.ctrl (.revokeAck w.toNat)) ∧
        ∀ i ∈ t.imports, i.num = w.toNat → i.owner = h.src.toNat → i.isOpen = false) ∧
      (∀ x, s.window w.toNat = some x → x.peer = h.src.toNat →
        (x.state = .opening → ∃ t, exec (.announceAccept h w true) s = .next (s.after t) ∧ t.window w.toNat = some { x with state := .isOpen } ∧
          ∀ c ∈ t.cmds, c.opcode = 0x38 → c.phase = .executing → c.pkt.p0.toNat % 4096 ≠ w.toNat) ∧
        (x.state = .opening → ∃ t, exec (.announceAccept h w false) s = .next (s.after t) ∧ t.window w.toNat = none ∧
          ∀ c ∈ t.cmds, c.opcode = 0x38 → c.phase = .executing → c.pkt.p0.toNat % 4096 ≠ w.toNat) ∧
        (x.state = .closing → ∃ t, exec (.revokeAcknowledge h w) s = .next (s.after t) ∧ t.window w.toNat = none ∧
          ∀ c ∈ t.cmds, c.opcode = 0x39 → c.phase = .executing → c.pkt.p0.toNat % 4096 ≠ w.toNat))) ∧
    (∀ (w : BitVec 12) (x : Window), s.phase = .running → s.window w.toNat = some x →
      (x.state = .opening → ∃ t, exec (.ctrlTimeout (.announce w)) s = .next (s.after t) ∧
        t.window w.toNat = (if (s.path x.port x.peer).isSome = true then some { x with state := .closing } else none) ∧
        ∀ c ∈ t.cmds, c.opcode = 0x38 → c.phase = .executing → c.pkt.p0.toNat % 4096 ≠ w.toNat) ∧
      (x.state ≠ .opening → exec (.ctrlTimeout (.announce w)) s = .next s)) ∧
    (∀ (n : Fin 4) (d : BitVec 12) (x : Path), s.phase = .running → s.path n.val d.toNat = some x →
      exec (.ctrlTimeout (.closePath n d)) s = .next (s.after (if x.closeSent then pathFail s n.val d.toNat else s)))

/-- An IFERIK_WRITE commits whole in an open window or writes nothing; a READ_REQ returns the window's bytes; responses return tags (R369;
R372; R377; R382). Accepted packets. WRITE and READ_REQ to an open window of their peer, within its range and rights and past the
firewall, in memory that is powered and not being cleared: the payload is at the window's base plus offset, no other byte changed,
answered OK; the bytes read are answered, in packets that the port's MAXPAY allows, and nothing is written. To a window that is closed: no
byte changes, WIN_CLOSED_DROP counts, answered WINDOW_CLOSED; beyond range, rights or firewall: no byte changes, WIN_BAD counts,
BAD_PARAM. A response without a matching tag changes the links' bookkeeping only; one to a request's read with tags or packets still out
keeps its bytes for the request; one to its write counts down, and the last, or one that is not OK, ends the request. A REDUCE of a group
that this device is not in, not from a member, or of lanes the group does not take, is dropped; one that no reduction here awaits yet is
kept; in a reduction group of two with one participant each it is added, lane by lane, to this device's own sum (an operand, log entry
95). A sum of this device itself, where it is the right operand, goes to the member that holds the left one. -/
def Obligations.WindowsServeTheirPeer : Prop :=
  ∀ (s : State) (h : IlpHdr) (x : Path) (n peer : Nat), accepted s h x → n = h.port.val → peer = h.src.toNat →
    (∀ (w : BitVec 12) (off : BitVec 40) (tag : BitVec 12) (bs : List Byte),
      (∀ a, windowCheck s n peer w.toNat off.toNat bs.length true = .go a → bankOn s a = true → s.flag Fd.BOOT_ZERO_SRAM_BUSY = false →
        s.zeroing = [] → ∃ t, exec (.iferikWrite h w off tag bs) s = .next (s.after t) ∧ t.bytes a bs.length = bs ∧
          (∀ y, y < a ∨ a + bs.length ≤ y → t.bytes y 1 = s.bytes y 1) ∧ t.windows = s.windows ∧
          queuedTo t n peer (.writeRsp tag.toNat St.ok)) ∧
      (windowCheck s n peer w.toNat off.toNat bs.length true = .closed → ∃ t, exec (.iferikWrite h w off tag bs) s = .next (s.after t) ∧
        LinkOnly s t ∧ t.regN (Reg.ILP_WIN_CLOSED_DROP n) = min (s.regN (Reg.ILP_WIN_CLOSED_DROP n) + 1) 0xFFFFFFFF ∧
        queuedTo t n peer (.writeRsp tag.toNat St.windowClosed)) ∧
      (windowCheck s n peer w.toNat off.toNat bs.length true = .bad → ∃ t, exec (.iferikWrite h w off tag bs) s = .next (s.after t) ∧
        LinkOnly s t ∧ t.regN (Reg.ILP_WIN_BAD n) = min (s.regN (Reg.ILP_WIN_BAD n) + 1) 0xFFFFFFFF ∧
        queuedTo t n peer (.writeRsp tag.toNat St.badParam)) ∧
      (∀ a, windowCheck s n peer w.toNat off.toNat bs.length true = .refusedAt a →
        ∃ t, exec (.iferikWrite h w off tag bs) s = .next (s.after t) ∧ MemKept s t ∧
          t.regN (Reg.ILP_WIN_BAD n) = min (s.regN (Reg.ILP_WIN_BAD n) + 1) 0xFFFFFFFF ∧ queuedTo t n peer (.writeRsp tag.toNat St.badParam))) ∧
    (∀ (w : BitVec 12) (off : BitVec 40) (tag : BitVec 12) (len : BitVec 13),
      (∀ a, windowCheck s n peer w.toNat off.toNat len.toNat false = .go a → ∃ t, exec (.iferikReadReq h w off tag len) s = .next (s.after t) ∧
        MemKept s t ∧ ∀ c ∈ packetCuts s n len.toNat, queuedTo t n peer
          (.readRsp ((tag.toNat + c.1 / 256) % 4096) St.ok (((portRead s (16 + n) a len.toNat).bytes.drop c.1).take c.2))) ∧
      (windowCheck s n peer w.toNat off.toNat len.toNat false = .closed → ∃ t, exec (.iferikReadReq h w off tag len) s = .next (s.after t) ∧
        LinkOnly s t ∧ t.regN (Reg.ILP_WIN_CLOSED_DROP n) = min (s.regN (Reg.ILP_WIN_CLOSED_DROP n) + 1) 0xFFFFFFFF ∧
        queuedTo t n peer (.readRsp tag.toNat St.windowClosed []))) ∧
    (∀ (tag : BitVec 12) (st : RspStatus) (bs : List Byte),
      ((takeHeader s h).tagRuns.find? (fun r => r.port == n && r.peer == peer && r.tag == tag.toNat) = none →
        (∃ t, exec (.iferikReadRsp h tag st bs) s = .next (s.after t) ∧ LinkOnly s t) ∧
        (∃ t, exec (.iferikWriteRsp h tag st) s = .next (s.after t) ∧ LinkOnly s t)) ∧
      (∀ r f q, (takeHeader s h).tagRuns.find? (fun r => r.port == n && r.peer == peer && r.tag == tag.toNat) = some r → r.ref = some f →
        (s.stream f.stream).bind (fun y => y.reqs.find? (fun q => q.id == f.req)) = some q → q.writing = false →
        (blocks256 bs.length < r.count → ∃ t, exec (.iferikReadRsp h tag .ok bs) s = .next (s.after t) ∧ MemKept s t ∧
          (t.stream f.stream).bind (fun y => y.reqs.find? (fun q => q.id == f.req)) = some { q with got := q.got ++ [(f.piece, bs)] }) ∧
        (r.count ≤ blocks256 bs.length → 1 < q.out → ∃ t, exec (.iferikReadRsp h tag .ok bs) s = .next (s.after t) ∧ MemKept s t ∧
          (t.stream f.stream).bind (fun y => y.reqs.find? (fun q => q.id == f.req)) =
            some { q with out := q.out - 1, got := q.got ++ [(f.piece, bs)] })) ∧
      (∀ r f q, (takeHeader s h).tagRuns.find? (fun r => r.port == n && r.peer == peer && r.tag == tag.toNat) = some r → r.ref = some f →
        (s.stream f.stream).bind (fun y => y.reqs.find? (fun q => q.id == f.req)) = some q → q.writing = true →
        (1 < q.out → ∃ t, exec (.iferikWriteRsp h tag .ok) s = .next (s.after t) ∧ MemKept s t ∧
          (t.stream f.stream).bind (fun y => y.reqs.find? (fun q => q.id == f.req)) = some { q with out := q.out - 1 }) ∧
        (st ≠ .ok ∨ q.out ≤ 1 → ∃ t, exec (.iferikWriteRsp h tag st) s = .next (s.after t) ∧
          ∀ y, t.stream f.stream = some y → ∀ z ∈ y.reqs, z.id ≠ f.req))) ∧
    (∀ r : ReduceOp, peer ≠ deviceId s →
      (groupJoined s r.slot.val = false ∨ (groupMembers s r.slot.val).contains peer = false ∨
          (if groupAdapts s r.slot.val = true then r.lane ≠ 1 else r.lane = 3) →
        ∃ t, exec (.iferikReduce h r) s = .next (s.after t) ∧ LinkOnly s t) ∧
      (groupJoined s r.slot.val = true → (groupMembers s r.slot.val).contains peer = true →
        (if groupAdapts s r.slot.val = true then r.lane = 1 else r.lane ≠ 3) → (∀ y ∈ s.reductions, y.slot ≠ r.slot.val) →
        (groupAdapts s r.slot.val = true ∨ r.own = [] → ∃ t, exec (.iferikReduce h r) s = .next (s.after t) ∧
          LinkOnly { s with redIn := t.redIn } t ∧
          t.redIn = s.redIn ++ [⟨r.slot.val, r.number.toNat, r.chunk.toNat, r.node.toNat, r.result, peer, r.payload⟩]) ∧
        (∀ l v, groupAdapts s r.slot.val = false → groupMembers s r.slot.val = [deviceId s, peer] → r.own = [l] → (r.counts.getD 1 0).toNat = 1 →
          v = l.map BitVec.toNat → r.result = false → r.node = 0 → r.chunk = 0 →
          (∀ y ∈ s.redIn, y.slot ≠ r.slot.val ∨ y.number ≠ r.number.toNat) → r.payload.length = laneBytes r.lane.val * v.length →
          ∃ t, exec (.iferikReduce h r) s = .next (s.after t) ∧ MemKept s t ∧ t.reductions = s.reductions ∧ t.redIn = s.redIn ∧
            Tbl.get (fun _ => []) t.redOut r.slot.val = addLanes r.lane.val v (chunks (laneBytes r.lane.val) v.length r.payload)))) ∧
    (∀ (r : ReduceOp) (k : IlpHdr), k.src.toNat = deviceId s →
      (groupJoined s r.slot.val = false ∨ r.lane = 3 → exec (.iferikReduce k r) s = .next s) ∧
      (∀ l m j, groupJoined s r.slot.val = true → r.lane ≠ 3 → (∀ y ∈ s.reductions, y.slot ≠ r.slot.val) → groupAdapts s r.slot.val = false →
        groupMembers s r.slot.val = [m, deviceId s] → m ≠ deviceId s → r.own = [l] → (r.counts.getD 0 0).toNat = 1 →
        ilpRoute s m = some j → (s.path j m).isSome = true → laneBytes r.lane.val * l.length ≤ maxPayload s j →
        ∃ t, exec (.iferikReduce k r) s = .next (s.after t) ∧ MemKept s t ∧
          queuedTo t j m (.reduce r.slot.val r.lane.val r.number.toNat 0 0 false (l.flatMap (fun w => leBytes (laneBytes r.lane.val) w.toNat)))))

/-- Groups form and change at their root: a join is admitted or refused, a leave is acknowledged, members take the announced epoch (R213;
R379; R380; R381). FABRIC_JOIN of no group of this device BAD_PARAM, of a joined one BUSY; on the root of the roster the device is at once
the group's root and only member, else JOIN goes to the root and the command waits. An accepted JOIN at the root admits a roster member,
and the lowest member is the root, unless an adaptation group's joiner differs, which is refused. FABRIC_LEAVE: a root has left at once; a
member asks the root. LEAVE at the root takes the member out and is acknowledged; the acknowledgement ends the membership. An announced
epoch gives members, root and epoch; one without this device ends its membership; a refusal answers the waiting join. CTRL_TIMEOUT of a
join answers it. -/
def Obligations.GroupsFormAndLeave : Prop :=
  ∀ (s : State) (p : Pkt) (g : Nat),
    (∀ b, b = begun s 0x3A p → hostReady s 0x3A p = true → p.p0.toNat < 2 ^ 17 → unusedFrom p 2 = none →
      vcList.find? (fun g => s.fld (Fd.ILP_GROUP_ID g) == p.p0.toNat % 65536 && s.fld (Fd.ILP_GROUP_KIND g) == bitsOf p.p0.toNat 16 16 &&
        inRoster s g (deviceId s)) = some g →
      (p.p1.toNat ≠ (roster s g).length → exec (.fabricJoin p) s = .next (s.after (answered b 0x3A p St.badParam 2 0 0))) ∧
      (p.p1.toNat = (roster s g).length →
        (groupJoined s g = true → exec (.fabricJoin p) s = .next (s.after (answered b 0x3A p St.busy 0 0 0))) ∧
        (groupJoined s g = false → joining s g = false →
          ((roster s g).headD 0 = deviceId s → ∃ t, exec (.fabricJoin p) s = .next (s.after t) ∧ groupJoined t g = true ∧
            groupRoot t g = deviceId s ∧ groupMembers t g = [deviceId s] ∧
            t.regN (Reg.ILP_GROUP_EPOCH g) = (s.regN (Reg.ILP_GROUP_EPOCH g) + 1) % 2 ^ 32) ∧
          (∀ n, (roster s g).headD 0 ≠ deviceId s → ilpRoute s ((roster s g).headD 0) = some n →
            (s.path n ((roster s g).headD 0)).isSome = true ∨ portPaths s n < 256 →
            ∃ t, exec (.fabricJoin p) s = .next (s.after t) ∧ underway t 0x3A p ∧ t.groups = s.groups ∧
              queuedTo t n ((roster s g).headD 0) (.ctrl (.join (p.p0.toNat % 65536) (joinFacts s).1 (joinFacts s).2.1 (joinFacts s).2.2)))))) ∧
    (hostReady s 0x3B p = true → p.p0.toNat < 2 ^ 16 → unusedFrom p 1 = none →
      (vcList.find? (fun g => groupJoined s g && s.fld (Fd.ILP_GROUP_ID g) == p.p0.toNat) = none →
        exec (.fabricLeave p) s = .next (s.after (answered (begun s 0x3B p) 0x3B p St.badParam 1 0 0))) ∧
      (vcList.find? (fun g => groupJoined s g && s.fld (Fd.ILP_GROUP_ID g) == p.p0.toNat) = some g →
        (groupRoot s g = deviceId s → ∃ t, exec (.fabricLeave p) s = .next (s.after t) ∧ groupJoined t g = false ∧ groupMembers t g = []) ∧
        (∀ n, groupRoot s g ≠ deviceId s → ilpRoute s (groupRoot s g) = some n →
          (s.path n (groupRoot s g)).isSome = true ∨ portPaths s n < 256 →
          ∃ t, exec (.fabricLeave p) s = .next (s.after t) ∧ underway t 0x3B p ∧ t.groups = s.groups ∧
            queuedTo t n (groupRoot s g) (.ctrl (.leave p.p0.toNat))))) ∧
    (∀ (h : IlpHdr) (x : Path) (id : BitVec 16), accepted s h x → groupSlot s id.toNat = some g →
      (∀ o : JoinOp, o.group = id → groupJoined s g = true → groupRoot s g = deviceId s → inRoster s g h.src.toNat = true →
        (groupAdapts s g = true → joinMismatch s o = true → ∃ t, exec (.ctrlJoin h o) s = .next (s.after t) ∧ LinkOnly s t ∧
          queuedTo t h.port.val h.src.toNat (.ctrl (.refuseJoin id.toNat))) ∧
        (groupAdapts s g = false ∨ joinMismatch s o = false → ∃ t, exec (.ctrlJoin h o) s = .next (s.after t) ∧ groupJoined t g = true ∧
          groupRoot t g ∈ groupMembers t g ∧ (∀ m ∈ groupMembers t g, groupRoot t g ≤ m) ∧ h.src.toNat ∈ groupMembers t g ∧ (∀ m ∈ groupMembers s g, m ∈ groupMembers t g) ∧
          t.regN (Reg.ILP_GROUP_EPOCH g) = (s.regN (Reg.ILP_GROUP_EPOCH g) + 1) % 2 ^ 32)) ∧
      (groupJoined s g = true → groupRoot s g = deviceId s → h.src.toNat ∈ groupMembers s g →
        ∃ t, exec (.ctrlLeave h id) s = .next (s.after t) ∧ h.src.toNat ∉ groupMembers t g ∧ groupJoined t g = true ∧
          queuedTo t h.port.val h.src.toNat (.ctrl (.leaveAck id.toNat))) ∧
      (groupJoined s g = true → groupRoot s g = h.src.toNat →
        ∃ t, exec (.leaveAcknowledge h id) s = .next (s.after t) ∧ groupJoined t g = false ∧ groupMembers t g = []) ∧
      (∃ t, exec (.groupEpochAnnounce h id .refused) s = .next (s.after t) ∧ joining t g = false ∧ t.groups = s.groups) ∧
      (∀ root e l, groupJoined s g = true ∨ joining s g = true →
        ∃ t, exec (.groupEpochAnnounce h id (.members root e l)) s = .next (s.after t) ∧
          (deviceId s ∈ l.map BitVec.toNat → groupJoined t g = true ∧ groupRoot t g = root.toNat ∧ groupMembers t g = l.map BitVec.toNat ∧
            t.regN (Reg.ILP_GROUP_EPOCH g) = e.toNat) ∧
          (deviceId s ∉ l.map BitVec.toNat → groupJoined t g = false ∧ groupMembers t g = []))) ∧
    (∀ k : Fin 4, s.phase = .running →
      (joining s k.val = false → exec (.ctrlTimeout (.join k)) s = .next s) ∧
      (joining s k.val = true → ∃ t, exec (.ctrlTimeout (.join k)) s = .next (s.after t) ∧ joining t k.val = false ∧ groupJoined t k.val = true))

/-- KAT_RUN, FENCE_UNIT and UNFENCE_UNIT refuse or act as Table 13.3 gives; slices count, a failed set opens a decision, an overdue array
is doubtful (R313; R327; R329; R330; R331; R332; R333; R335; R338; R339; R341). KAT_RUN with no set or a unit that does not exist
BAD_PARAM, with 16 pending QUEUE_FULL, else it is pending. FENCE_UNIT of a fenced unit UNIT_FENCED, of a mapped engine or a shared unit
while a job owns the compute BUSY; else the unit is fenced and its year begins anew; a mapped array's logical array moves to the lowest
reserve, or the job has lost it. UNFENCE_UNIT lifts the fence of a unit whose year since the fence is complete, and of no other. A slice
counts and changes no memory outside the diagnostic area of its array or engine; a set passed on an array shows in PASSED; the first
failed one makes the array doubtful and opens a decision; a reproduced mismatch goes to step 2, one not reproduced is transient, and sets
that failed meanwhile have their repeats next. A slice across the opening of a SAFE supervisor's window is discarded and counted; where
none may run, nothing happens. An array's interval that ends begins the next year or makes it overdue, one that has not ended does
nothing; a second that ends for another unit whose year is not done is counted and recorded. -/
def Obligations.KnownAnswersAndFences : Prop :=
  ∀ (s : State) (p : Pkt),
    (∀ b, b = begun s 0x50 p → hostReady s 0x50 p = true →
      (p.p0 = 0 ∨ 4096 ≤ p.p0.toNat → exec (.katRun p) s = .next (s.after (answered b 0x50 p St.badParam 1 0 0))) ∧
      (1 ≤ p.p0.toNat → p.p0.toNat < 4096 →
        (unitParam p.p1 = none → exec (.katRun p) s = .next (s.after (answered b 0x50 p St.badParam 2 0 0))) ∧
        (∀ k i, unitParam p.p1 = some (k, i) → unusedFrom p 2 = none → (k ≤ 1 → s.flag (Fd.MA_STATUS_UNAVAILABLE i) = false) →
          (unitUsed s k i = false ∨ otherPort s k i p.port.val = false) →
          (16 ≤ s.fld Fd.KAT_STATUS_PENDING → exec (.katRun p) s = .next (s.after (answered b 0x50 p St.queueFull 0 0 0))) ∧
          (s.fld Fd.KAT_STATUS_PENDING < 16 → ∃ t, exec (.katRun p) s = .next (s.after t) ∧ underway t 0x50 p ∧
            t = { b with regs := t.regs, cmds := t.cmds } ∧ RegsKept (flightRegs p ++ [Reg.KAT_STATUS]) s t ∧
            (∃ c ∈ t.cmds, c.pkt = p ∧ c.aux = (if k = 1 then 2 ^ 7 else p.p0.toNat)))))) ∧
    (∀ k i, hostReady s 0x51 p = true → unitParam p.p0 = some (k, i) → unusedFrom p 1 = none →
      (unitFenced s k i = true → exec (.fenceUnit p) s = .next (s.after (answered (begun s 0x51 p) 0x51 p St.unitFenced 0 0 0))) ∧
      (unitFenced s k i = false →
        ((k = 2 ∧ ∃ j ∈ s.jobs, ∃ x ∈ j.lv, x.2 = i) ∨ (3 ≤ k ∧ s.owner.isSome = true) →
          exec (.fenceUnit p) s = .next (s.after (answered (begun s 0x51 p) 0x51 p St.busy 0 0 0))) ∧
        ((k = 0 ∧ s.arrayJob i = none) ∨ k = 1 ∨ (k = 2 ∧ ∀ j ∈ s.jobs, ∀ x ∈ j.lv, x.2 ≠ i) ∨ (3 ≤ k ∧ s.owner = none) →
          ∃ u, exec (.fenceUnit p) s = .next (s.after (answered u 0x51 p St.ok 0 0 0)) ∧ unitFenced u k i = true ∧
            Tbl.get (fun _ => 0) u.fenceYear (yearKey k i) = 0 ∧ MemKept s u) ∧
        (∀ j la, k = 0 → s.arrayJob i = some (j, la) → s.jobPort j = p.port.val →
          ∃ u, exec (.fenceUnit p) s = .next (s.after (answered u 0x51 p St.ok 0 0 0)) ∧
            (∀ m rest, j.reserve = m :: rest → u.job j.handle = some { j with
              la := j.la.map (fun x => if x.1 = la then (la, m) else x), reserve := rest, fencedFrom := i :: j.fencedFrom }) ∧
            (j.reserve = [] → u.job j.handle = some { j with la := j.la.filter (fun x => x.1 != la), fencedFrom := i :: j.fencedFrom })))) ∧
    (∀ k i, hostReady s 0x52 p = true → unitParam p.p0 = some (k, i) → unusedFrom p 1 = none →
      (k ≤ 1 → s.flag (Fd.MA_STATUS_UNAVAILABLE i) = false) → unfenceForeign s k i p.port.val = false →
      (unitFenced s k i = false ∨ yearDone s k i = false →
        exec (.unfenceUnit p) s = .next (s.after (answered (begun s 0x52 p) 0x52 p St.badParam 1 0 0))) ∧
      (unitFenced s k i = true → yearDone s k i = true →
        ∃ u, exec (.unfenceUnit p) s = .next (s.after (answered u 0x52 p St.ok 0 0 0)) ∧ unitFenced u k i = false ∧ MemKept s u)) ∧
    (∀ (k : Fin 10) (i : Fin 96), s.phase = .running →
      (∀ r, unitCount k.val ≤ i.val ∨ s.fld Fd.PMU_STATE_STATE = 2 ∨ sliceDue s k.val i.val = false → exec (.katSlice k i r) s = .next s) ∧
      (∀ r, i.val < unitCount k.val → s.fld Fd.PMU_STATE_STATE ≠ 2 → sliceDue s k.val i.val = true → safeOpened s = true →
        ∃ t, exec (.katSlice k i r) s = .next (s.after t) ∧ RegsKept [Reg.KAT_SLICES_ABORTED, Reg.BOOT_ZERO_BLOCKED] s t ∧
          t.regN Reg.KAT_SLICES_ABORTED = min (s.regN Reg.KAT_SLICES_ABORTED + 1) 0xFFFFFFFF ∧ t.decisions = s.decisions ∧ t.cmds = s.cmds) ∧
      (i.val < unitCount k.val → s.fld Fd.PMU_STATE_STATE ≠ 2 → sliceDue s k.val i.val = true → safeOpened s = false →
        (∃ t, exec (.katSlice k i .part) s = .next (s.after t) ∧ t = { s with regs := t.regs, arr := t.arr, mem := t.mem, poison := t.poison, upsets := t.upsets, freeCtr := t.freeCtr } ∧
          (∀ a n, ¬ (k.val ≤ 1 ∧ a < lspBase i.val + 0x100000 ∧ lspBase i.val + 0xF0000 < a + n) →
            ¬ (k.val = 2 ∧ a < veBase i.val + 0x40000 ∧ veBase i.val + 0x3C000 < a + n) → t.bytes a n = s.bytes a n) ∧
          RegsKept [Reg.KAT_SLICES, Reg.BOOT_ZERO_BLOCKED] s t ∧ t.regN Reg.KAT_SLICES = min (s.regN Reg.KAT_SLICES + 1) 0xFFFFFFFF) ∧
        (∀ m : Fin 12, k.val = 0 → unitFenced s 0 i.val = false → s.decision false i.val = none →
          (∃ t, exec (.katSlice k i (.set m true false)) s = .next (s.after t) ∧ bitOf (t.fld (Fd.KAT_ARRAY_PASSED i.val)) m.val = true) ∧
          (s.flag (Fd.KAT_ARRAY_DECISION i.val) = false → s.flag (Fd.KAT_ARRAY_FAILED i.val) = false →
            ∃ t, exec (.katSlice k i (.set m false false)) s = .next (s.after t) ∧ t.flag (Fd.KAT_ARRAY_FAILED i.val) = true ∧
              t.regBit (Reg.SAF_ARRAY_DOUBT (i.val / 32)) (i.val % 32) = true ∧ (t.decision false i.val).isSome = true ∧
              logged t 0x09 9 i.val (2 ^ m.val) false)) ∧
        (∀ d, s.decision false i.val = some d → d.step = 1 →
          (∃ t, exec (.katSlice k i (.repeated true)) s = .next (s.after t) ∧ t.decision false i.val = some { d with step := 2 }) ∧
          (∃ t, exec (.katSlice k i (.repeated false)) s = .next (s.after t) ∧
            t.decision false i.val = (if d.failed = 0 then none else some ⟨i.val, false, 4, d.failed, 0, 0, 0, 0, [], none⟩) ∧
            t.regN Reg.KAT_TRANSIENT = min (s.regN Reg.KAT_TRANSIENT + 1) 0xFFFFFFFF)))) ∧
    (∀ i : Fin 96, s.phase = .running →
      (s.fld Fd.PMU_STATE_STATE ≠ 0 ∨ s.flag (Fd.MA_STATUS_FENCED i.val) = true ∨
          nowT s < Tbl.get (fun _ => 0) s.katFrom i.val + s.safe.katInterval * 1875000 → exec (.katOverdue i) s = .next s) ∧
      (s.fld Fd.PMU_STATE_STATE = 0 → s.flag (Fd.MA_STATUS_FENCED i.val) = false →
        Tbl.get (fun _ => 0) s.katFrom i.val + s.safe.katInterval * 1875000 ≤ nowT s →
        (s.fld (Fd.KAT_ARRAY_PASSED i.val) = 0xFFF → ∃ t, exec (.katOverdue i) s = .next (s.after t) ∧ t.fld (Fd.KAT_ARRAY_PASSED i.val) = 0 ∧
          t = { s with regs := t.regs, katFrom := t.katFrom } ∧ RegsKept [Reg.KAT_ARRAY i.val] s t ∧
          ∀ n, Tbl.get (fun _ => 0) t.katFrom n = if n = i.val then nowT s else Tbl.get (fun _ => 0) s.katFrom n) ∧
        (s.fld (Fd.KAT_ARRAY_PASSED i.val) ≠ 0xFFF → s.flag (Fd.KAT_ARRAY_KAT_OVERDUE i.val) = false →
          ∃ t, exec (.katOverdue i) s = .next (s.after t) ∧ t.flag (Fd.KAT_ARRAY_KAT_OVERDUE i.val) = true ∧
            t.regBit (Reg.SAF_ARRAY_DOUBT (i.val / 32)) (i.val % 32) = true ∧ logged t 0x09 9 i.val (2 ^ 16) false))) ∧
    (∀ (k : Fin 10) (i : Fin 32), s.phase = .running →
      (k.val < 2 ∨ unitCount k.val ≤ i.val ∨ s.fld Fd.PMU_STATE_STATE ≠ 0 → exec (.overdueOther k i) s = .next s) ∧
      (2 ≤ k.val → i.val < unitCount k.val → s.fld Fd.PMU_STATE_STATE = 0 →
        (k.val = 2 → s.fld (Fd.KAT_VE_PASSED i.val) = 0xFFF → exec (.overdueOther k i) s = .next (s.after (s.setFld (Fd.KAT_VE_PASSED i.val) 0))) ∧
        (k.val ≠ 2 → Tbl.get (fun _ => 0) s.otherYear (256 * i.val + k.val) &&& yearSets k.val = yearSets k.val →
          ∃ t, exec (.overdueOther k i) s = .next (s.after t) ∧ t = { s with otherYear := t.otherYear } ∧
            Tbl.get (fun _ => 0) t.otherYear (256 * i.val + k.val) = 0) ∧
        ((if k.val = 2 then s.fld (Fd.KAT_VE_PASSED i.val) ≠ 0xFFF
            else Tbl.get (fun _ => 0) s.otherYear (256 * i.val + k.val) &&& yearSets k.val ≠ yearSets k.val) → ∃ t, exec (.overdueOther k i) s = .next (s.after t) ∧
          t.regN Reg.KAT_OVERDUE_OTHER = min (s.regN Reg.KAT_OVERDUE_OTHER + 1) 0xFFFFFFFF ∧ logged t 0x09 9 i.val (2 ^ 16) false)))

/-- SAFETY_CONFIG takes a valid block whole or nothing; FALLBACK_FORCE takes effect at the ticks; a missed window is a violation (R300;
R301; R306; R307; R314; R315; R316). SAFETY_CONFIG: refused while the configuration is locked, with another length, and where the block is
poisoned, fails a check or clears FB_EN of a carrier that is not armed; then nothing of it takes effect. A valid one on a device without
configured carriers is in force and answered at once: its KAT interval, its CRC, no arm bit; with configured carriers the command waits.
FALLBACK_FORCE without a ticking carrier sets or clears FORCED of the carriers named at once; with one it waits. A self-test that fails is
a fallback fault, one that passes changes nothing. No window closes before its bound; a START window that closes without its signal counts
and records a violation, one whose signal came does not; a safe supervisor's is a fallback fault. -/
def Obligations.SafetyIsConfiguredAndForced : Prop :=
  ∀ (s : State) (p : Pkt),
    (∀ b, b = begun s 0x58 p → hostReady s 0x58 p = true →
      (b.flag Fd.SAF_STATUS_LOCKED = true → exec (.safetyConfig p) s = .next (s.after (answered b 0x58 p St.badParam 8 0 0))) ∧
      (b.flag Fd.SAF_STATUS_LOCKED = false → p.p0.toNat < 2 ^ 52 →
        (p.p1.toNat ≠ safetyLen → exec (.safetyConfig p) s = .next (s.after (answered b 0x58 p St.badParam 2 0 0))) ∧
        (∀ a, p.p1.toNat = safetyLen → unusedFrom p 2 = none → spaceQuiet b (addrSpace p.p0) = false → a = spaceRead b 0 (addrSpace p.p0) (addrBits p.p0) safetyLen →
          (a.fault.isSome = true ∨ a.poisoned = true ∨ safetyBlockOk a.bytes = false ∨ disarmsUnarmed b a.bytes = true →
            exec (.safetyConfig p) s = .next (s.after (answered a.state 0x58 p St.badParam 1 0 0))) ∧
          (a.fault = none → a.poisoned = false → safetyBlockOk a.bytes = true → disarmsUnarmed b a.bytes = false →
            ((List.range 8).all (fun c => !(configured a.state c)) = true →
              ∃ t, exec (.safetyConfig p) s = .next (s.after (finishWhere t 0x58 (fun _ => true) St.ok 0 0 0)) ∧ t.cmds = b.cmds ∧
                t.safePend = none ∧ t.safe.katInterval = leAt a.bytes 10 1 ∧ t.regN Reg.SAF_CFG_CRC = leAt a.bytes 0x3C 4 ∧
                t.regN Reg.SAF_FB_OFF_ARM = 0 ∧ (bitOf (leAt a.bytes 8 1) 0 = true → t.flag Fd.SAF_STATUS_LOCKED = true)) ∧
            ((List.range 8).all (fun c => !(configured a.state c)) = false →
              ∃ t q, exec (.safetyConfig p) s = .next (s.after t) ∧ t.cmds = b.cmds ∧ t.safePend = some q ∧
                q.carriers = (List.range 8).filter (configured a.state) ∧ t.regN Reg.SAF_FB_OFF_ARM = 0 ∧ t.safe = s.safe))))) ∧
    (hostReady s 0x59 p = true → p.p0.toNat < 2 ^ 9 → unusedFrom p 1 = none →
      ((∀ k < 8, bitOf p.p0.toNat k = true → s.flag (Fd.TSU_CAR_V k) = false) →
        ∃ u, exec (.fallbackForce p) s = .next (s.after (answered u 0x59 p St.ok 0 0 0)) ∧
          u.fld Fd.SAF_STATUS_FORCED = (if bitOf p.p0.toNat 8 then s.fld Fd.SAF_STATUS_FORCED ||| p.p0.toNat % 256
            else s.fld Fd.SAF_STATUS_FORCED &&& (255 - p.p0.toNat % 256)) ∧
          u = { begun s 0x59 p with regs := u.regs } ∧ RegsKept (flightRegs p ++ [Reg.SAF_STATUS]) s u) ∧
      ((∃ k < 8, bitOf p.p0.toNat k = true ∧ s.flag (Fd.TSU_CAR_V k) = true) →
        ∃ t, exec (.fallbackForce p) s = .next (s.after t) ∧ underway t 0x59 p ∧ t.regs = (begun s 0x59 p).regs)) ∧
    (∀ n : Fin 256, s.phase = .running → exec (.fallbackSelfTest true n) s = .next s ∧
      ∃ t, exec (.fallbackSelfTest false n) s = .next (s.after t) ∧ t.flag Fd.SAF_STATUS_FB_DOWN = true ∧
        t.regN Reg.SAF_FB_FAULTS = min (s.regN Reg.SAF_FB_FAULTS + 1) 0xFFFFFFFF ∧ t.fld Fd.SAF_FB_FAULT_CAUSE = 4 ∧
        t.fld Fd.SAF_FB_FAULT_UNIT = n.val ∧ MemKept s t) ∧
    (∀ (c : Fin 8) (k : BitVec 32) (i : Fin 256), s.phase = .running →
      (s.slotCtx c.val k.toNat = none → exec (.supervisorWindowClose c k i false) s = .next s ∧
        exec (.supervisorWindowClose c k i true) s = .next s) ∧
      (∀ x v, s.slotCtx c.val k.toNat = some x → x.sups.find? (fun p => p.1 == i.val) = some (i.val, v) →
        (x.supStartEnd.contains i.val = true ∨ nowT s < windowAt x v.startClose → exec (.supervisorWindowClose c k i false) s = .next s) ∧
        (x.supStartEnd.contains i.val = false → windowAt x v.startClose ≤ nowT s →
          ∃ t, exec (.supervisorWindowClose c k i false) s = .next (s.after t) ∧
            (x.supStart.contains i.val = true → t.regs = s.regs) ∧
            (x.supStart.contains i.val = false → t.regN Reg.SAF_SUP_VIOL = min (s.regN Reg.SAF_SUP_VIOL + 1) 0xFFFFFFFF ∧
              t.fld Fd.SAF_SUP_LAST_SUPERVISOR = i.val ∧ t.fld Fd.SAF_SUP_LAST_KIND = 2 ∧
              (v.safe = true → t.flag Fd.SAF_STATUS_FB_DOWN = true)))))

/-- Scrub counts and poisons what it finds; a lost ledger is a compute reset; crossings and moves count only as determinism gives (R18;
R19; R107; R226; R231; R271; R278; R289; R451). SCRUB reads the next line of its memory in ascending order and goes round; a pass over a
channel ends with its last line. It changes no byte: clean data change nothing; a word with one bad bit is corrected and counts in the CE
counter of its memory; one with two is poisoned from now on, and recorded; an OAB word likewise. In Retain and in a powered-down bank
nothing happens. What disturbs a word is the model's own environment (log entry 116). LEDGER_CHECK with every relation true and no lost
storage changes nothing; else the ledger's loss is a compute reset with cause 7: no job is left and SRAM is being cleared.
CROSSING_RELEASE without a reference beat, LOAD_BALANCER_MOVE in deterministic mode, of a grouped or dense reduction or without a
regrouping change nothing; a move that regroups counts one choice of kind 7; an entry that arrives after its scheduled beat counts. -/
def Obligations.UpkeepInTheBackground : Prop :=
  ∀ s : State, s.phase = .running →
    (∀ (u : ScrubUnit) (b : Fin 16) (k a : Nat), k = Tbl.get (fun _ => 0) s.scrubPos (scrubKey u b) → a = scrubAddr u b k →
      (s.fld Fd.PMU_STATE_STATE = 2 ∨ scrubOn s u b = false → exec (.scrub u b) s = .next s) ∧
      (s.fld Fd.PMU_STATE_STATE ≠ 2 → scrubOn s u b = true →
        ∃ t, exec (.scrub u b) s = .next (s.after t) ∧ MemKept s t ∧ t.oab = s.oab ∧
          (∀ j, Tbl.get (fun _ => 0) t.scrubPos j = if j = scrubKey u b then (if scrubLines u ≤ k + 1 then 0 else k + 1)
            else Tbl.get (fun _ => 0) s.scrubPos j) ∧
          (∀ c, u = .channel c → scrubLines u ≤ k + 1 →
            t.regN (Reg.MEMC_SCRUB_PASSES c) = min (s.regN (Reg.MEMC_SCRUB_PASSES c) + 1) 0xFFFFFFFF) ∧
          (s.poison = [] → s.upsets = [] → s.oabPoison = [] → s.ctlPoison = [] → k + 1 < scrubLines u → t = { s with scrubPos := t.scrubPos }) ∧
          ((∀ n, u ≠ .oab n) → (∀ n, u ≠ .control n) → s.poison = [] →
            (s.upsets = [(a, false)] → t.regN (ceCounter a) = min (s.regN (ceCounter a) + 1) 0xFFFFFFFF ∧ t.upsets = [] ∧ t.poison = []) ∧
            (s.upsets = [(a, true)] → a ∈ t.poison ∧ (fallbackMemory s a = false → logged t 0x04 scrubOrigin a scrubOrigin false))) ∧
          (∀ n, u = .oab n → s.oabPoison = [] →
            (s.upsets = [(oabWordKey n (8 * k), false)] →
              t.regN (Reg.MA_OAB_CE n) = min (s.regN (Reg.MA_OAB_CE n) + 1) 0xFFFFFFFF ∧ t.upsets = [] ∧ t.oabPoison = []) ∧
            (s.upsets = [(oabWordKey n (8 * k), true)] → 32768 * n.val + 16 * k ∈ t.oabPoison ∧ 32768 * n.val + 16 * k + 1 ∈ t.oabPoison)))) ∧
    ((∀ r < 7, ledgerHolds s r = true) → exec (.ledgerCheck none) s = .next s) ∧
    (∀ k r, (k = some r ∨ (k = none ∧ (List.range 7).find? (fun r => !(ledgerHolds s r)) = some r.val)) →
      ∃ t, exec (.ledgerCheck k) s = .next (s.after t) ∧ t.jobs = [] ∧ t.flag Fd.BOOT_ZERO_SRAM_BUSY = true ∧ t.regN Reg.DET_BEAT = 0) ∧
    (∀ c es, s.det = false ∨ s.flag Fd.DET_STATUS_REF_V = false → exec (.crossingRelease c es) s = .next s) ∧
    (∀ c e, s.det = true → s.flag Fd.DET_STATUS_REF_V = true → e.full = false → scheduledBeat s e < entryBeat s e →
      ∃ t, exec (.crossingRelease c [e]) s = .next (s.after t) ∧ t.regN Reg.DET_TDC = min (s.regN Reg.DET_TDC + 1) 0xFFFFFFFF ∧
        RegsOnly s t) ∧
    (∀ m, s.det = true ∨ m.grouped = true ∨ m.compact = false ∨ m.regroups = false ∨ s.owner = none ∨ m.participants = [] →
      exec (.loadBalancerMove m) s = .next s) ∧
    (∀ m p rest, s.det = false → m.grouped = false → m.compact = true → m.regroups = true → s.owner.isSome = true →
      m.participants = p :: rest → exec (.loadBalancerMove m) s = .next (s.after (countTdc s 7 p.val)))

/-- Device time is set, adjusted, steered by offsets, held over, and labelled by PPS and time of day (R387; R388; R392; R393; R394; R396;
R397; R398; R402; R403). TIME_SET and TIME_ADJUST: BUSY while the servo holds a source, BAD_PARAM beyond their ranges, else device time is
what they say and the step is counted; entries of the launch queues that a forward step passes are late. A write of OFFSET is ignored and
recorded from another origin than 0 to 4, without effect when no source is held but for the time of the last write, a step while acquiring
beyond the threshold, else a slew: RATE is within RATE_MAX, LOCKED after 16 in the threshold. Holdover keeps RATE at the average. A rate
sample, one in a second, joins the last 1,000. CLK10M_IN as a source steers RATE by its count. PPS_IN is time-stamped; PPS_OUT rises on
the edge that passes a whole second when enabled, and a message 10 ms later labels it; a received message that is not whole counts and
leaves the edge unused, a whole one with SRC 1 makes the preceding PPS_IN edge an offset. What an interval or a gain without a quotient
gives RATE is left open (the model's choice, log entry 2), within RATE_MAX. -/
def Obligations.DeviceTimeAndItsServo : Prop :=
  ∀ (s : State) (p : Pkt),
    (hostReady s 0x60 p = true →
      (servoHolds s = true → exec (.timeSet p) s = .next (s.after (answered (begun s 0x60 p) 0x60 p St.busy 0 0 0))) ∧
      (servoHolds s = false →
        (2 ^ 48 ≤ p.p0.toNat → exec (.timeSet p) s = .next (s.after (answered (begun s 0x60 p) 0x60 p St.badParam 1 0 0))) ∧
        (p.p0.toNat < 2 ^ 48 → 1000000000 * 65536 ≤ p.p1.toNat →
          exec (.timeSet p) s = .next (s.after (answered (begun s 0x60 p) 0x60 p St.badParam 2 0 0))) ∧
        (p.p0.toNat < 2 ^ 48 → p.p1.toNat < 1000000000 * 65536 → unusedFrom p 2 = none →
          ∃ u, exec (.timeSet p) s = .next (s.after (answered u 0x60 p St.ok 0 0 0)) ∧
            u = { begun s 0x60 p with regs := u.regs, devTime := u.devTime, cars := u.cars, launch := u.launch, txq := u.txq } ∧
            u.timeSec = p.p0.toNat ∧ u.timeNs * 65536 + u.timeFrac = p.p1.toNat ∧ u.devTime % 2 ^ 32 = 0 ∧
            (u.devTime ≠ s.devTime → u.regN Reg.TSU_STEPS = min (s.regN Reg.TSU_STEPS + 1) 0xFFFFFFFF) ∧
            (u.devTime = s.devTime → u.regN Reg.TSU_STEPS = s.regN Reg.TSU_STEPS) ∧
            (u.devTime ≤ s.devTime → u.launch = s.launch ∧ u.txq = s.txq ∧ u.cars = s.cars) ∧
            (∀ m, (launchQ u m) = (launchQ s m).map
              (fun e => if s.devTime < e.time ∧ e.time < u.devTime then { e with late := true } else e)) ∧
            RegsKept (flightRegs p ++ [Reg.TSU_STEPS, Reg.TSU_TICK_SKIPPED]) s u))) ∧
    (hostReady s 0x61 p = true →
      (servoHolds s = true → exec (.timeAdjust p) s = .next (s.after (answered (begun s 0x61 p) 0x61 p St.busy 0 0 0))) ∧
      (servoHolds s = false →
        (1000000000 * 65536 < p.p0.toInt.natAbs ∨ (s.devTime : Int) + p.p0.toInt * 2 ^ 32 < 0 →
          exec (.timeAdjust p) s = .next (s.after (answered (begun s 0x61 p) 0x61 p St.badParam 1 0 0))) ∧
        (p.p0.toInt.natAbs ≤ 1000000000 * 65536 → 0 ≤ (s.devTime : Int) + p.p0.toInt * 2 ^ 32 →
          (s.regN Reg.TSU_RATE_MAX < p.p1.toInt.natAbs →
            exec (.timeAdjust p) s = .next (s.after (answered (begun s 0x61 p) 0x61 p St.badParam 2 0 0))) ∧
          (p.p1.toInt.natAbs ≤ s.regN Reg.TSU_RATE_MAX → unusedFrom p 2 = none →
            ∃ u, exec (.timeAdjust p) s = .next (s.after (answered u 0x61 p St.ok 0 0 0)) ∧
              u = { begun s 0x61 p with regs := u.regs, devTime := u.devTime, cars := u.cars, launch := u.launch, txq := u.txq } ∧
              (u.devTime : Int) = (s.devTime : Int) + p.p0.toInt * 2 ^ 32 ∧ u.regN Reg.TSU_RATE = wrapN 32 p.p1.toInt ∧
              RegsKept (flightRegs p ++ [Reg.TSU_STEPS, Reg.TSU_TICK_SKIPPED, Reg.TSU_RATE]) s u)))) ∧
    (∀ (o : Fin 64) (v : Word), s.phase = .running → writePasses s o.val Reg.TSU_OFFSET = true →
      (4 < o.val → ∃ t, exec (.tsuOffsetWrite o v) s = .next (s.after t) ∧
        logged t 0x02 o.val (ctlBase + Reg.TSU_OFFSET) v.toNat true ∧ OnlyRegs logRegs { s with mainLog := t.mainLog } t) ∧
      (o.val ≤ 4 → servoHolds s = false ∨ (s.fld Fd.TSU_STATUS_STATE = 3 ∧ s.flag Fd.TSU_CTRL_HOLD = true) →
        exec (.tsuOffsetWrite o v) s =
          .next (s.after { s with tsu := { s.tsu with lastOffset := some s.elapsed, holdFrom := s.elapsed } })) ∧
      (o.val ≤ 4 → servoHolds s = true → s.fld Fd.TSU_STATUS_STATE ≠ 3 →
        ∃ t, exec (.tsuOffsetWrite o v) s = .next (s.after t) ∧
          t = { s with regs := t.regs, devTime := t.devTime, cars := t.cars, launch := t.launch, txq := t.txq, coal := t.coal,
                       tsu := t.tsu, freeCtr := t.freeCtr } ∧
          t.tsu.lastOffset = some s.elapsed ∧ t.tsu.holdFrom = s.elapsed ∧
          t.tsu.inLock = (if v.toInt.natAbs ≤ s.regN Reg.TSU_LOCK_THRESH * 65536 then s.tsu.inLock + 1 else 0) ∧
          t.fld Fd.TSU_STATUS_STATE = (if 16 ≤ t.tsu.inLock ∧ s.fld Fd.TSU_STATUS_STATE = 1 then 2 else s.fld Fd.TSU_STATUS_STATE) ∧
          (s.fld Fd.TSU_STATUS_STATE = 1 → s.flag Fd.TSU_CTRL_STEP_EN = true → s.regN Reg.TSU_STEP_THRESH * 65536 < v.toInt.natAbs →
            v.toInt * 2 ^ 32 ≤ (s.devTime : Int) →
            (t.devTime : Int) = (s.devTime : Int) - v.toInt * 2 ^ 32 ∧ t.regN Reg.TSU_RATE = s.regN Reg.TSU_RATE) ∧
          (s.fld Fd.TSU_STATUS_STATE ≠ 1 ∨ s.flag Fd.TSU_CTRL_STEP_EN = false ∨
              v.toInt.natAbs ≤ s.regN Reg.TSU_STEP_THRESH * 65536 →
            t.devTime = s.devTime ∧ (s.regN Reg.TSU_RATE_MAX < 2 ^ 31 → (rateOf t).natAbs ≤ s.regN Reg.TSU_RATE_MAX)))) ∧
    (s.phase = .running →
      (holdoverDue s = false ∨ s.flag Fd.TSU_CTRL_SERVO_EN = false ∨ s.fld Fd.TSU_STATUS_STATE = 3 →
        exec .holdoverEntry s = .next s) ∧
      (holdoverDue s = true → s.flag Fd.TSU_CTRL_SERVO_EN = true → s.fld Fd.TSU_STATUS_STATE ≠ 3 →
        ∃ t, exec .holdoverEntry s = .next (s.after t) ∧ t.fld Fd.TSU_STATUS_STATE = 3 ∧
          t.regN Reg.TSU_HOLDOVERS = min (s.regN Reg.TSU_HOLDOVERS + 1) 0xFFFFFFFF ∧
          (s.tsu.rates = [] → t.regN Reg.TSU_RATE = s.regN Reg.TSU_RATE) ∧
          (s.tsu.rates ≠ [] → (signed 32 (s.regN Reg.TSU_AVG_RATE)).natAbs ≤ s.regN Reg.TSU_RATE_MAX →
            rateOf t = signed 32 (s.regN Reg.TSU_AVG_RATE)) ∧
          RegsOnly { s with coal := t.coal } t) ∧
      (s.fld Fd.TSU_STATUS_STATE = 3 ∨ s.elapsed / 156250000 ≤ s.tsu.rateSec → exec .rateSample s = .next s) ∧
      (s.fld Fd.TSU_STATUS_STATE ≠ 3 → s.tsu.rateSec < s.elapsed / 156250000 →
        ∃ t, exec .rateSample s = .next (s.after t) ∧ OnlyRegs [Reg.TSU_AVG_RATE, Reg.TSU_STATUS] { s with tsu := t.tsu } t ∧
          t.tsu = { s.tsu with rates := t.tsu.rates, rateSec := s.elapsed / 156250000 } ∧
          (s.tsu.rates.length < 1000 → t.tsu.rates = s.tsu.rates ++ [rateOf s]) ∧
          (s.tsu.rates.length = 1000 → t.tsu.rates = s.tsu.rates.tail ++ [rateOf s]) ∧
          t.regN Reg.TSU_AVG_RATE = wrapN 32 (Frac.rne ⟨t.tsu.rates.sum, t.tsu.rates.length⟩) ∧
          (t.flag Fd.TSU_STATUS_AVG_FULL = true ↔ t.tsu.rates.length = 1000) ∧
          t.fld Fd.TSU_STATUS_STATE = s.fld Fd.TSU_STATUS_STATE) ∧
      (∀ n : Word32, ∃ t, exec (.clk10mServoUpdate n) s = .next (s.after t) ∧
        (t.flag Fd.TSU_STATUS_CLK10M_SEEN = true ↔ n ≠ 0) ∧
        (n = 0 ∨ s.flag Fd.TSU_CTRL_SERVO_EN = false ∨ s.fld Fd.TSU_CTRL_SRC ≠ 2 ∨ s.flag Fd.TSU_CTRL_HOLD = true →
          OnlyRegs [Reg.TSU_STATUS] s t) ∧
        (n ≠ 0 → s.flag Fd.TSU_CTRL_SERVO_EN = true → s.fld Fd.TSU_CTRL_SRC = 2 → s.flag Fd.TSU_CTRL_HOLD = false →
          RegsOnly { s with tsu := t.tsu, coal := t.coal } t ∧
          t.fld Fd.TSU_STATUS_STATE = (if s.fld Fd.TSU_STATUS_STATE = 3 then 1 else s.fld Fd.TSU_STATUS_STATE) ∧
          ((Frac.rne ⟨(156250000 - (n.toNat : Int)) * 2 ^ 32, n.toNat⟩).natAbs ≤ s.regN Reg.TSU_RATE_MAX →
            t.regN Reg.TSU_RATE = wrapN 32 (Frac.rne ⟨(156250000 - (n.toNat : Int)) * 2 ^ 32, n.toNat⟩)))) ∧
      (∃ t, exec .ppsInEdge s = .next (s.after t) ∧ t.reg Reg.TSU_PPS_IN_TS = s.time64 ∧ t.flag Fd.TSU_STATUS_PPS_IN_SEEN = true ∧
        t.tsu = { s.tsu with ppsIn := some (s.elapsed, s.devTime), ppsVoid := false } ∧
        OnlyRegs [Reg.TSU_PPS_IN_TS, Reg.TSU_STATUS] { s with tsu := t.tsu } t) ∧
      (s.flag Fd.TSU_PPS_CFG_OUT_EN = false ∨ edgeUnits s ≤ s.devTime % secondUnits → exec .ppsOutEdge s = .next s) ∧
      (s.flag Fd.TSU_PPS_CFG_OUT_EN = true → s.devTime % secondUnits < edgeUnits s → ∃ t e, exec .ppsOutEdge s = .next (s.after t) ∧
        t = { s with tsu := { s.tsu with ppsOut := some e, todDue := some (s.timeSec, s.elapsed) } } ∧
        625 * s.fld Fd.TSU_PPS_CFG_WIDTH ≤ 4 * (e - s.elapsed) ∧ 4 * (e - s.elapsed) < 625 * s.fld Fd.TSU_PPS_CFG_WIDTH + 4) ∧
      (s.tsu.todDue = none → exec .todMessageSend s = .next s) ∧
      (∀ sec e, s.tsu.todDue = some (sec, e) → s.elapsed < e + 1562500 → exec .todMessageSend s = .next s) ∧
      (∀ sec e, s.tsu.todDue = some (sec, e) → e + 1562500 ≤ s.elapsed → ∃ t, exec .todMessageSend s = .next (s.after t) ∧
        t = { s with tsu := { s.tsu with todDue := none, todTx := t.tsu.todTx } } ∧
        (s.flag Fd.TSU_TOD_CFG_TX_EN = false → t.tsu.todTx = s.tsu.todTx) ∧
        (s.flag Fd.TSU_TOD_CFG_TX_EN = true → t.tsu.todTx.length = 16 ∧ t.tsu.todTx.take 2 = [0x42, 0x54] ∧
          (sec < 2 ^ 48 → beNat ((t.tsu.todTx.drop 2).take 6) = sec) ∧
          beNat (t.tsu.todTx.drop 14) = crc16 (t.tsu.todTx.take 14))) ∧
      (∀ m, (s.flag Fd.TSU_TOD_CFG_RX_EN = false → exec (.todMessageReceive m) s = .next s) ∧
        (s.flag Fd.TSU_TOD_CFG_RX_EN = true → m.length ≠ 16 ∨ s.tsu.ppsIn = none →
          exec (.todMessageReceive m) s = .next (s.after ({ s with tsu := { s.tsu with ppsVoid := true } }.bump Reg.TSU_TOD_BAD))) ∧
        (s.flag Fd.TSU_TOD_CFG_RX_EN = true → todGood s m = true →
          (s.fld Fd.TSU_CTRL_SRC ≠ 1 ∨ s.tsu.ppsVoid = true → exec (.todMessageReceive m) s = .next s) ∧
          (s.fld Fd.TSU_CTRL_SRC = 1 → s.tsu.ppsVoid = false → servoHolds s = false → exec (.todMessageReceive m) s =
            .next (s.after { s with tsu := { s.tsu with lastOffset := some s.elapsed, holdFrom := s.elapsed } })) ∧
          (∀ e q v, s.fld Fd.TSU_CTRL_SRC = 1 → s.tsu.ppsVoid = false → servoHolds s = true → s.fld Fd.TSU_STATUS_STATE ≠ 3 → s.tsu.ppsIn = some (e, q) →
            v = ((q / 2 ^ 32 : Nat) : Int) - ((beNat ((m.drop 2).take 6) * 1000000000 * 65536 : Nat) : Int) →
            ∃ t, exec (.todMessageReceive m) s = .next (s.after t) ∧
              t = { s with regs := t.regs, devTime := t.devTime, cars := t.cars, launch := t.launch, txq := t.txq, coal := t.coal, tsu := t.tsu, freeCtr := t.freeCtr } ∧
              t.tsu.lastOffset = some s.elapsed ∧ t.tsu.holdFrom = s.elapsed ∧
              t.tsu.inLock = (if v.natAbs ≤ s.regN Reg.TSU_LOCK_THRESH * 65536 then s.tsu.inLock + 1 else 0) ∧
              (s.fld Fd.TSU_STATUS_STATE = 1 → s.flag Fd.TSU_CTRL_STEP_EN = true → s.regN Reg.TSU_STEP_THRESH * 65536 < v.natAbs →
                v * 2 ^ 32 ≤ (s.devTime : Int) →
                (t.devTime : Int) = (s.devTime : Int) - v * 2 ^ 32 ∧ t.regN Reg.TSU_RATE = s.regN Reg.TSU_RATE) ∧
              (s.fld Fd.TSU_STATUS_STATE ≠ 1 ∨ s.flag Fd.TSU_CTRL_STEP_EN = false ∨ v.natAbs ≤ s.regN Reg.TSU_STEP_THRESH * 65536 →
                t.devTime = s.devTime ∧ (s.regN Reg.TSU_RATE_MAX < 2 ^ 31 → (rateOf t).natAbs ≤ s.regN Reg.TSU_RATE_MAX))))))

/-- FW_LOAD installs a verified image or nothing, FIRMWARE_READY starts it, ATTEST reports, POWER_STATE changes state or resets warm
(R432; R433; R434; R439; R441; R449; R450; R451; R453; R454). FW_LOAD outside STATE 1 is BUSY, with a virtual address or a wide one
BAD_PARAM; an image of a length outside the format's, with a bad header or signature, counts in FW_AUTH_FAIL, leaves STATE 1 and is
AUTH_FAILED; a good one with its key table is installed, STATE 3, the command answered once it has started. FIRMWARE_READY in STATE 3
gives STATE 4 and OK, or a halt with cause 3, the compute's domains off, and INTERNAL. ATTEST into a short buffer says 26048; without an
identity AUTH_FAILED; else 26048 bytes with the nonce. POWER_STATE to Run clears PASSED of every tested array; to Idle is BUSY with a
running job or slot timing; to Retain is BUSY with a job, timing, a window or a group, waits for other commands, else takes hold with
every Iferik link down. A warm reset leaves no job, path or key, SRAM being cleared, STATE 1, cause 4; without jobs and streams LPDDR5X is
as before. -/
def Obligations.FirmwareAttestationAndPower : Prop :=
  ∀ (s : State) (p : Pkt),
    (∀ (f : FwFacts) b, b = begun s 0x70 p → hostReady s 0x70 p = true →
      (s.fld Fd.BOOT_STATE_STATE ≠ 1 → exec (.fwLoad p f) s = .next (s.after (answered b 0x70 p St.busy 0 0 0))) ∧
      (s.fld Fd.BOOT_STATE_STATE = 1 →
        (2 ^ 52 ≤ p.p0.toNat ∨ addrSpace p.p0 = 0 → exec (.fwLoad p f) s = .next (s.after (answered b 0x70 p St.badParam 1 0 0))) ∧
        (p.p0.toNat < 2 ^ 52 → addrSpace p.p0 ≠ 0 →
          (2 ≤ p.p2.toNat → exec (.fwLoad p f) s = .next (s.after (answered b 0x70 p St.badParam 3 0 0))) ∧
          (p.p2.toNat < 2 → unusedFrom p 3 = none →
            (p.p1.toNat < 256 ∨ 16785856 < p.p1.toNat → ∃ u, exec (.fwLoad p f) s = .next (s.after (answered u 0x70 p St.authFailed 0 0 0)) ∧
              u.regN Reg.BOOT_FW_AUTH_FAIL = min (s.regN Reg.BOOT_FW_AUTH_FAIL + 1) 0xFFFFFFFF ∧
              u.fld Fd.BOOT_STATE_STATE = 1 ∧ u = { b with regs := u.regs } ∧
              RegsKept (flightRegs p ++ [Reg.BOOT_STATE, Reg.BOOT_FW_AUTH_FAIL]) s u) ∧
            (∀ a, 256 ≤ p.p1.toNat → p.p1.toNat ≤ 16785856 →
              spaceQuiet b (addrSpace p.p0) = false →
              a = spaceRead (b.setFld Fd.BOOT_STATE_STATE 2) 0 (addrSpace p.p0) (addrBits p.p0) p.p1.toNat → a.poisoned = false →
              (fwHeaderOk a.bytes p.p1.toNat = false ∨ fwSignatureOk a.bytes (leAt a.bytes 8 4) = false →
                ∃ u, exec (.fwLoad p f) s = .next (s.after (answered u 0x70 p St.authFailed 0 0 0)) ∧ u.fld Fd.BOOT_STATE_STATE = 1 ∧
                  u.regN Reg.BOOT_FW_AUTH_FAIL = min (s.regN Reg.BOOT_FW_AUTH_FAIL + 1) 0xFFFFFFFF ∧
                  u.reg Reg.BOOT_FW_SVN = s.reg Reg.BOOT_FW_SVN ∧ u.keys = s.keys ∧ u.reg Reg.FW_LOCK = s.reg Reg.FW_LOCK) ∧
              (∀ keys, fwHeaderOk a.bytes p.p1.toNat = true → keyTable (a.bytes.drop (leAt a.bytes 8 4 + 7856)) = some keys →
                ∃ t, exec (.fwLoad p f) s = .next (s.after t) ∧
                  (fwSignatureOk a.bytes (leAt a.bytes 8 4) = true → underway t 0x70 p ∧ t.fld Fd.BOOT_STATE_STATE = 3 ∧
                    t.regN Reg.BOOT_FW_SVN = leAt a.bytes 0x0C 4 ∧ t.regN Reg.BOOT_FW_VERSION = leAt a.bytes 0x10 4 ∧
                    t.keys = keys.2 ∧ t.fld Fd.BOOT_STATE_PLAN = p.p2.toNat ∧ t.flag Fd.FW_LOCK_LOCKED = true))))))) ∧
    (s.phase = .running →
      (s.fld Fd.BOOT_STATE_STATE ≠ 3 → ∀ ok, exec (.firmwareReady ok) s = .next s) ∧
      (s.fld Fd.BOOT_STATE_STATE = 3 →
        (∃ u, exec (.firmwareReady true) s = .next (s.after (finishWhere u 0x70 (fun _ => true) St.ok 0 0 0)) ∧
          u.fld Fd.BOOT_STATE_STATE = 4 ∧ RegsOnly s u ∧
          (∀ n < 96, mappable s n = true → u.fld (Fd.KAT_ARRAY_PASSED n) = 0xFFF) ∧ u.flag Fd.FFD_STATUS_RUN = true) ∧
        (∃ u, exec (.firmwareReady false) s = .next (s.after (finishWhere u 0x70 (fun _ => true) St.internal 0 0 0)) ∧
          u.fld Fd.BOOT_STATE_STATE = 5 ∧ u.fld Fd.BOOT_STATE_HALT_CAUSE = 3 ∧ (∀ k < 4, u.regN (Reg.PMU_DOMAIN_ON k) = 0) ∧
          OnlyRegs ([Reg.BOOT_STATE, Reg.SAF_STATUS] ++ (List.range 5).map Reg.PMU_DOMAIN_ON) s u))) ∧
    (∀ b, b = begun s 0x71 p → hostReady s 0x71 p = true → p.p0.toNat < 2 ^ 52 → p.p1.toNat < 2 ^ 52 → unusedFrom p 3 = none →
      (addrSpace p.p0 = 1 ∨ addrSpace p.p0 = 2) → (addrSpace p.p1 = 1 ∨ addrSpace p.p1 = 2) →
      (p.p2.toNat < 26048 → exec (.attest p) s = .next (s.after (answered b 0x71 p St.badParam 3 26048 0))) ∧
      (26048 ≤ p.p2.toNat →
        (s.identity = none ∨ s.flag Fd.BOOT_STATE_CERT_OK = false →
          exec (.attest p) s = .next (s.after (answered b 0x71 p St.authFailed 0 0 0))) ∧
        (s.identity.isSome = true → s.flag Fd.BOOT_STATE_CERT_OK = true → spaceQuiet b (addrSpace p.p0) = false →
          spaceQuiet b (addrSpace p.p1) = false →
          ∃ u r, exec (.attest p) s = .next (s.after (answered u 0x71 p St.ok 0 26048 0)) ∧ r.length = 26048 ∧
            r.take 4 = leBytes 4 0x54415942 ∧ (r.drop 16).take 32 = s.hostBytes (addrSpace p.p0 - 1) (addrBits p.p0) 32 ∧
            u.hostBytes (addrSpace p.p1 - 1) (addrBits p.p1) 26048 = r ∧
            u = { b with freeCtr := u.freeCtr, host0 := u.host0, host1 := u.host1 }))) ∧
    (∀ b, b = begun s 0x7F p → hostReady s 0x7F p = true → unusedFrom p 1 = none →
      (p.p0 = 0 →
        (s.fld Fd.PMU_STATE_STATE = 0 → exec (.powerStateRun p) s = .next (s.after (answered b 0x7F p St.ok 0 0 0))) ∧
        (s.fld Fd.PMU_STATE_STATE ≠ 0 → ∃ u, exec (.powerStateRun p) s = .next (s.after (answered u 0x7F p St.ok 0 0 0)) ∧
          u.fld Fd.PMU_STATE_STATE = 0 ∧ u.yearWait = testedArrays s ∧ (∀ n ∈ testedArrays s, u.fld (Fd.KAT_ARRAY_PASSED n) = 0) ∧
          RegsOnly { b with yearWait := u.yearWait, katFrom := u.katFrom } u)) ∧
      (p.p0 = 1 →
        (s.fld Fd.PMU_STATE_STATE = 1 → exec (.powerStateIdle p) s = .next (s.after (answered b 0x7F p St.ok 0 0 0))) ∧
        (s.fld Fd.PMU_STATE_STATE ≠ 1 →
          (anyJob b [2] = true ∨ anyTick s = true → exec (.powerStateIdle p) s = .next (s.after (answered b 0x7F p St.busy 0 0 0))) ∧
          (anyJob b [2] = false → anyTick s = false → ∃ u, exec (.powerStateIdle p) s = .next (s.after (answered u 0x7F p St.ok 0 0 0)) ∧
            u.fld Fd.PMU_STATE_STATE = 1 ∧ RegsOnly b u ∧ RegsKept (flightRegs p ++ [Reg.PMU_STATE, Reg.SAF_STATUS]) s u))) ∧
      (p.p0 = 2 →
        (anyJob b [1, 2, 3] = true ∨ anyTick s = true ∨ s.windows ≠ [] ∨ s.groups ≠ [] →
          ∃ u, exec (.powerStateRetain p) s = .next (s.after (answered u 0x7F p St.busy 0 0 0)) ∧ RegsOnly b u ∧
            u.fld Fd.PMU_STATE_STATE = s.fld Fd.PMU_STATE_STATE) ∧
        (anyJob b [1, 2, 3] = false → anyTick s = false → s.windows = [] → s.groups = [] →
          (s.cmds ≠ [] → ∃ t, exec (.powerStateRetain p) s = .next (s.after t) ∧ t.flag Fd.PMU_STATE_BUSY = true ∧
            fetchedCmd 0x7F p ∈ t.cmds ∧ t.fld Fd.PMU_STATE_STATE = s.fld Fd.PMU_STATE_STATE ∧
            RegsOnly { s with cmds := t.cmds } t) ∧
          (s.cmds = [] → ∃ t, exec (.powerStateRetain p) s = .next (s.after t) ∧ t.fld Fd.PMU_STATE_STATE = 2 ∧
            t.flag Fd.PMU_STATE_BUSY = false ∧
            (s.streams = [] → t.regN Reg.PMU_RETAIN_ENTRIES = min (s.regN Reg.PMU_RETAIN_ENTRIES + 1) 0xFFFFFFFF ∧
              ∀ n < 4, ilpUp t n = false)))) ∧
      (p.p0 = 8 → ∃ t, exec (.warmReset p) s = .next (s.after t) ∧ t.jobs = [] ∧ t.paths = [] ∧ t.windows = [] ∧ t.keys = [] ∧
        t.oab = [] ∧ t.banks = [] ∧ t.fld Fd.BOOT_STATE_STATE = 1 ∧ t.fld Fd.PMU_STATE_STATE = 0 ∧ t.regN Reg.PMU_RESET_CAUSE = 4 ∧
        t.regN Reg.DET_BEAT = 0 ∧ t.devTime = s.devTime ∧
        (s.jobs = [] → s.streams = [] → t.regN Reg.PMU_WARM_RESETS = min (s.regN Reg.PMU_WARM_RESETS + 1) 0xFFFFFFFF ∧
          ∀ a < 0x1E00000000, t.bytes a 1 = s.bytes a 1)))

/-- Every instruction of an array sequencer has the effect of Table 3.7 or faults; the drain adds exact sums into the OAB (R60; R61; R71;
R81; R83; R84; R86; R87; R88; R90; R96; R99). While array n issues the instruction that the word at its program counter spells. Register
instructions write D modulo 2^32 and go on; S0 reads 0. Branches go to their target within 0 to 1,023, else fault; LOOP counts down first.
MODE sets PMODE, newly setting STATS zeroes the record area. SCALES, DQCFG and DQOUT set what later passes use; WLOAD stages a tile, and
waits while two are staged; PASS queues a pass, waits while four are queued; NEWW takes the oldest staged tile that no queued pass will
install, and faults without one or on another format; with nothing queued before it the pass commits: its tile is active and its staging
buffer free. A pass without NEWW reuses the weights of the pass before it. SPILL with INIT stores exact 64-bit values, zeroes the entries
and binds. FENCE and HALT wait for the queue to drain. SIG and WAIT act on an object of the job and fault on another's. PPOINT records its
address. Reserved bits and the end of the program are faults. An array that does not issue, or whose program has another instruction at
its counter, does nothing. PASS_DRAIN without grid errors adds each exact sum, saturating, into its OAB entry, changes no other entry and
no memory, and counts no mismatch; as the last row drains the next pass commits. -/
def Obligations.SequencersIssueAndDrain : Prop :=
  ∀ (s : State) (n : Fin 96) (a : FmtA) (i : FmtI) (y : FmtS) (pc : Nat), pc = s.regN (Reg.MA_SEQ_PC n) →
    (∀ c, s.phase = .running → seqReady s n = false ∨ (seqIssues s n ∧ seqStands s n c = false) → c ∈ [Instr.seqNop n a, .seqHalt n a, .seqLdi n i, .seqLui n i, .seqAddi n i, .seqAdd n a,
        .seqSub n a, .seqJmp n i, .seqLoop n i, .seqBeqz n i, .seqMode n i, .seqScales n a, .seqWload n a, .seqPass n a, .seqDqcfg n a,
        .seqDqout n a, .seqSpill n a, .seqFence n a, .seqSig n y, .seqWait n y, .seqPpoint n i] → exec c s = .next s) ∧
    (seqIssues s n → (a.flags ≠ 0 ∨ pc = 1023) → seqStands s n (.seqNop n a) = true → ∃ t, exec (.seqNop n a) s = .next (s.after t) ∧ jobFault t) ∧
    (seqIssues s n → pc < 1023 →
      (a.flags = 0 → seqStands s n (.seqNop n a) = true → ∃ t, exec (.seqNop n a) s = .next (s.after t) ∧ seqWrites s t n 0 0) ∧
      (∀ c d v, (c = .seqLdi n i ∧ i.imm.toNat < 65536 ∧ d = i.d ∧ v = i.imm.toNat) ∨
          (c = .seqLui n i ∧ i.imm.toNat < 65536 ∧ d = i.d ∧ v = i.imm.toNat * 65536 + sreg s n i.d % 65536) ∨
          (c = .seqAddi n i ∧ d = i.d ∧ v = wrapN 32 ((sreg s n i.a : Int) + i.imm.toInt)) ∨
          (c = .seqAdd n a ∧ a.flags = 0 ∧ d = a.d ∧ v = sreg s n a.a + sreg s n a.b) ∨
          (c = .seqSub n a ∧ a.flags = 0 ∧ d = a.d ∧ v = wrapN 32 ((sreg s n a.a : Int) - sreg s n a.b)) →
        seqStands s n c = true → ∃ t, exec c s = .next (s.after t) ∧ seqWrites s t n d v) ∧
      (∀ m : Nat, (m : Int) = (pc : Int) + i.imm.toInt → m ≤ 1023 →
        (seqStands s n (.seqJmp n i) = true → exec (.seqJmp n i) s = .next (s.after (s.setRegN (Reg.MA_SEQ_PC n) m))) ∧
        (sreg s n i.a = 0 → (seqStands s n (.seqBeqz n i) = true → exec (.seqBeqz n i) s = .next (s.after (s.setRegN (Reg.MA_SEQ_PC n) m)))) ∧
        (i.d ≠ 0 → wrapN 32 ((sreg s n i.d : Int) - 1) ≠ 0 → seqStands s n (.seqLoop n i) = true → ∃ t, exec (.seqLoop n i) s = .next (s.after t) ∧
          sreg t n i.d = wrapN 32 ((sreg s n i.d : Int) - 1) ∧ t.regN (Reg.MA_SEQ_PC n) = m ∧
          OnlyRegs [Reg.MA_SEQ_PC n, Reg.MA_SEQ_S n i.d.toNat] s t)) ∧
      ((pc : Int) + i.imm.toInt < 0 ∨ 1023 < (pc : Int) + i.imm.toInt → seqStands s n (.seqJmp n i) = true → ∃ t, exec (.seqJmp n i) s = .next (s.after t) ∧ jobFault t) ∧
      (sreg s n i.a ≠ 0 → seqStands s n (.seqBeqz n i) = true → ∃ t, exec (.seqBeqz n i) s = .next (s.after t) ∧ seqWrites s t n 0 0) ∧
      (i.d = 0 ∨ sreg s n i.d = 1 → seqStands s n (.seqLoop n i) = true → ∃ t, exec (.seqLoop n i) s = .next (s.after t) ∧ seqWrites s t n i.d 0) ∧
      (modeBad i.imm.toNat = true → seqStands s n (.seqMode n i) = true → ∃ t, exec (.seqMode n i) s = .next (s.after t) ∧ jobFault t) ∧
      (modeBad i.imm.toNat = false → seqStands s n (.seqMode n i) = true → ∃ t, exec (.seqMode n i) s = .next (s.after t) ∧ t.regN (Reg.MA_PMODE n) = i.imm.toNat ∧
        t.regN (Reg.MA_SEQ_PC n) = pc + 1 ∧ OnlyRegs [Reg.MA_PMODE n, Reg.MA_SEQ_PC n]
          { s with oab := t.oab, oabPoison := t.oabPoison, upsets := t.upsets, cars := t.cars, shadowRecs := t.shadowRecs } t ∧
        ((PMode.ofNat i.imm.toNat).stats = false ∨ (PMode.ofNat (s.regN (Reg.MA_PMODE n))).stats = true → t.oab = s.oab) ∧
        ((PMode.ofNat i.imm.toNat).stats = true → (PMode.ofNat (s.regN (Reg.MA_PMODE n))).stats = false →
          ∀ e, t.oabAt n e = if statsBase ≤ e ∧ e < 32768 then 0 else s.oabAt n e)) ∧
      (a.flags = 0 → a.d = 0 →
        (sreg s n a.a < diagBase → sreg s n a.b < diagBase → seqStands s n (.seqScales n a) = true → ∃ t, exec (.seqScales n a) s = .next (s.after t) ∧
          (t.arrOf n).scales = ⟨sreg s n a.a, sreg s n a.c, sreg s n a.b⟩ ∧ t.regN (Reg.MA_SEQ_PC n) = pc + 1 ∧
          t = { s with regs := t.regs, arr := t.arr } ∧ RegsKept [Reg.MA_SEQ_PC n, Reg.MA_QUEUE n] s t) ∧
        (diagBase ≤ sreg s n a.a ∨ diagBase ≤ sreg s n a.b → seqStands s n (.seqScales n a) = true → ∃ t, exec (.seqScales n a) s = .next (s.after t) ∧ jobFault t)) ∧
      (∀ pm r, pm = PMode.ofNat (s.regN (Reg.MA_PMODE n)) → r = tileRead s n (sreg s n a.a) (sreg s n a.b) pm.weightBytes pm.channels →
        a.flags = 0 → sreg s n a.a % 64 = 0 → sreg s n a.b % 64 = 0 →
        sreg s n a.a + (pm.channels - 1) * sreg s n a.b + pm.weightBytes ≤ diagBase →
        (2 ≤ (s.arrOf n).staged.length → (seqStands s n (.seqWload n a) = true → exec (.seqWload n a) s = .next s)) ∧
        ((s.arrOf n).staged.length < 2 → r.2.1 = false → seqStands s n (.seqWload n a) = true → ∃ t, exec (.seqWload n a) s = .next (s.after t) ∧
          (t.arrOf n).staged = (s.arrOf n).staged ++ [⟨pm.wfmt, pm.cplx, r.1⟩] ∧ (t.arrOf n).passes = (s.arrOf n).passes ∧
          t.regN (Reg.MA_SEQ_PC n) = pc + 1 ∧ MemKept s t)) ∧
      (∀ r, r = lspRead s n (sreg s n a.a) 16 → a.flags = 0 → sreg s n a.a % 64 = 0 → sreg s n a.a + 16 ≤ diagBase → r.poisoned = false →
        dqRecordOk (leAt r.bytes 0 4) (leAt r.bytes 4 4) (leAt r.bytes 8 4) = true → seqStands s n (.seqDqcfg n a) = true → ∃ t, exec (.seqDqcfg n a) s = .next (s.after t) ∧
          t.regN (Reg.MA_DQ_MODE n) = leAt r.bytes 0 4 ∧ t.regN (Reg.MA_DQ_G n) = leAt r.bytes 4 4 ∧
          t.regN (Reg.MA_DQ_H n) = leAt r.bytes 8 4 ∧ (t.arrOf n).layerPasses = 0 ∧ t.regN (Reg.MA_SEQ_PC n) = pc + 1 ∧ MemKept s t) ∧
      (a.flags.toNat < 2 → sreg s n a.a % 64 = 0 → sreg s n a.d % 64 = 0 → sreg s n a.b < diagBase →
        sreg s n a.a < (if a.flags = 1 then sspSize else diagBase) → seqStands s n (.seqDqout n a) = true → ∃ t, exec (.seqDqout n a) s = .next (s.after t) ∧
          (t.arrOf n).dest = ⟨sreg s n a.a, sreg s n a.d, sreg s n a.b, sreg s n a.c, a.flags == 1⟩ ∧ t.regN (Reg.MA_SEQ_PC n) = pc + 1 ∧
          t = { s with regs := t.regs, arr := t.arr } ∧ RegsKept [Reg.MA_SEQ_PC n, Reg.MA_QUEUE n] s t) ∧
      (∀ pm, pm = PMode.ofNat (s.regN (Reg.MA_PMODE n)) → a.flags.toNat < 8 →
        passRangeOk s n pm (bitOf a.flags.toNat 2) (sreg s n a.a) (sreg s n a.d) (sreg s n a.b) (sreg s n a.c) = true →
        (4 ≤ (s.arrOf n).passes.length → (seqStands s n (.seqPass n a) = true → exec (.seqPass n a) s = .next s)) ∧
        ((s.arrOf n).passes.length < 4 → bitOf a.flags.toNat 0 = true →
          (∀ x, (s.arrOf n).staged[(s.arrOf n).claimed]? = some x → tileFits x pm = false) →
          seqStands s n (.seqPass n a) = true → ∃ t, exec (.seqPass n a) s = .next (s.after t) ∧ jobFault t) ∧
        (∀ tile commits, (s.arrOf n).passes.length < 4 → 0 < sreg s n a.c →
          (bitOf a.flags.toNat 0 = false ∧ tile = (s.arrOf n).lastTile) ∨
            (bitOf a.flags.toNat 0 = true ∧ ∃ x, (s.arrOf n).staged[(s.arrOf n).claimed]? = some x ∧ tile = some x ∧ tileFits x pm = true) →
          commits = (bitOf a.flags.toNat 0 && (s.arrOf n).passes.isEmpty) →
          seqStands s n (.seqPass n a) = true → ∃ t p, exec (.seqPass n a) s = .next (s.after t) ∧ (t.arrOf n).passes = (s.arrOf n).passes ++ [p] ∧ p.addr = sreg s n a.a ∧
            p.stride = sreg s n a.d ∧ p.base = sreg s n a.b ∧ p.rows = sreg s n a.c ∧ p.acc = bitOf a.flags.toNat 1 ∧
            p.dq = bitOf a.flags.toNat 2 ∧ p.tile = tile ∧ p.pmode = s.regN (Reg.MA_PMODE n) ∧ p.next = 0 ∧
            p.slot = s.slotOf n ∧ (t.arrOf n).active = (if commits then tile else (s.arrOf n).active) ∧
            (t.arrOf n).staged = (if commits then (s.arrOf n).staged.drop 1 else (s.arrOf n).staged) ∧ t.regN (Reg.MA_SEQ_PC n) = pc + 1 ∧
            t = { s with regs := t.regs, arr := t.arr })) ∧
      (∀ e b k, e = sreg s n a.a → b = sreg s n a.b → k = sreg s n a.c → a.flags = 2 → a.d = 0 → 0 < k → k ≤ 4096 → e + k ≤ 32768 →
        e / 4096 = (e + k - 1) / 4096 → b % 64 = 0 → lspWritable s n b (k * 8) = true → (s.arrOf n).passes = [] → oabBad s n e k = false →
        s.flag Fd.BOOT_ZERO_SRAM_BUSY = false → (∀ q < k, bankOn s (lspBase n + b + 8 * q) = true) →
        seqStands s n (.seqSpill n a) = true → ∃ t, exec (.seqSpill n a) s = .next (s.after t) ∧ (∀ q < k, t.bytes (lspBase n + b + 8 * q) 8 =
            leBytes 8 (sext64 (signed 32 (s.oabAt n (e + q)))) ∧ t.oabAt n (e + q) = 0) ∧ boundAs t n (e / 4096) e k b false = true ∧
          (∀ x, x < lspBase n + b ∨ lspBase n + b + 8 * k ≤ x → t.bytes x 1 = s.bytes x 1) ∧
          t.regN (Reg.MA_SPILLS n) = min (s.regN (Reg.MA_SPILLS n) + 1) 0xFFFFFFFF ∧ t.regN (Reg.MA_SEQ_PC n) = pc + 1) ∧
      (a.flags = 0 →
        ((s.arrOf n).passes ≠ [] → (seqStands s n (.seqFence n a) = true → exec (.seqFence n a) s = .next s) ∧ (seqStands s n (.seqHalt n a) = true → exec (.seqHalt n a) s = .next s)) ∧
        ((s.arrOf n).passes = [] → (seqStands s n (.seqFence n a) = true → ∃ t, exec (.seqFence n a) s = .next (s.after t) ∧ seqWrites s t n 0 0) ∧
          ((∀ j, s.job (arrayHandle s n) = some j → j.pausing = false) → seqStands s n (.seqHalt n a) = true → ∃ t, exec (.seqHalt n a) s = .next (s.after t) ∧
            t.flag (Fd.MA_STATUS_DONE n) = true ∧ t.flag (Fd.MA_STATUS_RUN n) = false ∧ t.regN (Reg.MA_SEQ_PC n) = pc ∧
            t.regBit (Reg.ICN_SH_PEND ((128 + n) / 32)) ((128 + n) % 32) = true ∧ RegsOnly { s with coal := t.coal } t))) ∧
      (∀ o, o = fmtSObject s n y → y.rsv = 0 →
        (objOfJob s o (arrayHandle s n) = false → (seqStands s n (.seqSig n y) = true → ∃ t, exec (.seqSig n y) s = .next (s.after t) ∧ jobFault t) ∧
          (seqStands s n (.seqWait n y) = true → ∃ t, exec (.seqWait n y) s = .next (s.after t) ∧ jobFault t)) ∧
        (objOfJob s o (arrayHandle s n) = true → s.slotOf n = none →
          (objType s o = 1 → waitersOf s o = [] → isRetention s o = false → objValue s o < 2 ^ 24 - 1 →
            seqStands s n (.seqSig n y) = true → ∃ t, exec (.seqSig n y) s = .next (s.after t) ∧ objValue t o = objValue s o + 1 ∧ t.regN (Reg.MA_SEQ_PC n) = pc + 1 ∧
              t = { s with regs := t.regs, arr := t.arr }) ∧
          (waitSatisfied s o = false → seqStands s n (.seqWait n y) = true → ∃ t, exec (.seqWait n y) s = .next (s.after t) ∧ t.regN (Reg.MA_SEQ_PC n) = pc ∧
            waits t (seqAgent n) = true ∧ seqReady t n = false) ∧
          (waitSatisfied s o = true → objType s o ≠ 3 → seqStands s n (.seqWait n y) = true → ∃ t, exec (.seqWait n y) s = .next (s.after t) ∧
            t.regN (Reg.MA_SEQ_PC n) = pc + 1 ∧ objValue t o = (if objType s o = 1 then objValue s o - 1 else objValue s o) ∧
            t.waiters = s.waiters))) ∧
      (s.arrayJob n = none → seqStands s n (.seqPpoint n i) = true → exec (.seqPpoint n i) s = .next s) ∧
      (∀ j la, s.arrayJob n = some (j, la) →
        (j.pausing = true → (s.arrOf n).passes ≠ [] → seqStands s n (.seqPpoint n i) = true → exec (.seqPpoint n i) s = .next s) ∧
        (j.pausing = false → seqStands s n (.seqPpoint n i) = true → ∃ t, exec (.seqPpoint n i) s = .next (s.after t) ∧ t.regN (Reg.MA_SEQ_PC n) = pc + 1 ∧
          t.regN (Reg.MA_SEQ_PPOINT n) = pc * 65536 + i.imm.toNat % 65536 ∧ t = { s with regs := t.regs, arr := t.arr }))) ∧
    (∀ es st, s.phase = .running → s.flag (Fd.MA_STATUS_FROZEN n) = true ∨ s.flag (Fd.MA_STATUS_FENCED n) = true ∨ (s.arrOf n).passes = [] →
      exec (.passDrain n es st) s = .next s) ∧
    (∀ p rest x pm row e, s.phase = .running → s.flag (Fd.MA_STATUS_FROZEN n) = false → s.flag (Fd.MA_STATUS_FENCED n) = false →
      (s.arrOf n).passes = p :: rest → pm = PMode.ofNat p.pmode → p.dq = false → pm.stats = false → pm.pairRows = false →
      p.tile = some x → s.flag (Fd.MA_STATUS_CHK_FENCED n) = false → p.slot = none → s.poison = [] → s.oabPoison = [] → s.upsets = [] →
      row = (lspRead s n (p.addr + p.next * p.stride) pm.actBytes).bytes → e = p.base + p.next * pm.entries →
      ∃ t, exec (.passDrain n [] ⟨0, 0, 0, 0⟩) s = .next (s.after t) ∧
        (∀ j < pm.entries, signed 32 (t.oabAt n (e + j)) =
          satS 32 ((if p.acc then signed 32 (s.oabAt n (e + j)) else 0) + outSum pm (laneOuts pm x [row, []] []) 0 j)) ∧
        (∀ k, k < 32768 * n + e ∨ 32768 * n + e + pm.entries ≤ k → Tbl.get zeroWord32 t.oab k = Tbl.get zeroWord32 s.oab k) ∧
        t.regN (Reg.MA_CHK_MISMATCH n) = s.regN (Reg.MA_CHK_MISMATCH n) ∧ MemKept s t ∧
        (p.next + 1 < p.rows → (t.arrOf n).passes = { p with next := p.next + 1 } :: rest) ∧
        (p.rows ≤ p.next + 1 → (∀ q, rest.head? = some q → 0 < q.rows) → (t.arrOf n).passes = rest ∧
          (t.arrOf n).active = (match rest.head? with | some q => (if q.neww then q.tile else (s.arrOf n).active) | none => (s.arrOf n).active) ∧
          t.regN (Reg.MA_PASSES n) = min (s.regN (Reg.MA_PASSES n) + 1) 0xFFFFFFFF))

/-- Every scalar, branch, transfer and synchronisation instruction of a vector engine has the effect of Table 5.3 or faults (R114; R119;
R120; R121; R122; R123; R124; R125). While engine n issues the instruction that the word at its program counter spells. Scalar
instructions write XD modulo 2^32 and go on, X0 reads 0, SETVL sets VLEN to at most 4,096. Branches go to their target within 0 to 1,023,
else fault. VGET and VPUT with proper operands make a transfer pending, a ninth waits; with others they fault. The oldest transfer
completes first: a VGET's bytes are in the engine's memory, a VPUT's at its virtual address, a translation fault is a job fault. VWAITX
and HALT wait for every transfer. SIG and WAIT act on an object of the job and fault on another's. PPOINT records its address; with a
pause pending it waits for the transfers. A rounding other than nearest, or a set modifier bit outside SIG and WAIT, is a fault. An engine
that does not issue, or whose program has another instruction at its counter, does nothing. -/
def Obligations.EnginesIssueAndTransfer : Prop :=
  ∀ (s : State) (n : Fin 24) (i : VFields) (pc : Nat), pc = s.regN (Reg.VE_PC n) →
    (∀ c, s.phase = .running → veReady s n = false ∨ (veIssues s n ∧ veStands s n c = false) → c ∈ [Instr.veNop n i, .veHalt n i, .setvl n i, .li n i, .veLui n i, .veAddi n i, .veAdd n i,
        .veSub n i, .shli n i, .shri n i, .veJmp n i, .veLoop n i, .veBeqz n i, .bnez n i, .vget n i, .vput n i, .vwaitx n i, .veSig n i,
        .veWait n i, .vePpoint n i] → exec c s = .next s) ∧
    (veIssues s n → scalarBad i = true ∨ pc = 1023 → veStands s n (.veNop n i) = true → ∃ t, exec (.veNop n i) s = .next (s.after t) ∧ jobFault t) ∧
    (veIssues s n → pc < 1023 → i.rnd = 0 →
      (i.mod = 0 →
      (veStands s n (.veNop n i) = true → ∃ t, exec (.veNop n i) s = .next (s.after t) ∧ veWrites [] s t n 0 0) ∧
      (∀ c v, (c = .li n i ∧ v = wrapN 32 i.imm.toInt) ∨ (c = .veLui n i ∧ v = i.imm.toNat * 65536 + xreg s n i.xd % 65536) ∨
          (c = .veAddi n i ∧ v = wrapN 32 ((xreg s n i.xa : Int) + i.imm.toInt)) ∨ (c = .veAdd n i ∧ v = xreg s n i.xa + xreg s n i.xb) ∨
          (c = .veSub n i ∧ v = wrapN 32 ((xreg s n i.xa : Int) - xreg s n i.xb)) ∨
          (c = .shli n i ∧ v = xreg s n i.xa * 2 ^ (i.imm.toNat % 32)) ∨ (c = .shri n i ∧ v = xreg s n i.xa / 2 ^ (i.imm.toNat % 32)) →
        veStands s n c = true → ∃ t, exec c s = .next (s.after t) ∧ veWrites [] s t n i.xd v) ∧
      (veStands s n (.setvl n i) = true → ∃ t, exec (.setvl n i) s = .next (s.after t) ∧ veWrites [Reg.VE_VLEN n] s t n i.xd (min (xreg s n i.xa) 4096) ∧
        t.regN (Reg.VE_VLEN n) = min (xreg s n i.xa) 4096) ∧
      (∀ m : Nat, (m : Int) = (pc : Int) + i.imm.toInt → m ≤ 1023 →
        (∀ c, c = .veJmp n i ∨ (c = .veBeqz n i ∧ xreg s n i.xa = 0) ∨ (c = .bnez n i ∧ xreg s n i.xa ≠ 0) →
          veStands s n c = true → ∃ t, exec c s = .next (s.after t) ∧ t.regN (Reg.VE_PC n) = m ∧ OnlyRegs [Reg.VE_PC n, Reg.VE_STATUS n] s t ∧ veStatusKept s t n) ∧
        (i.xd ≠ 0 → wrapN 32 ((xreg s n i.xd : Int) - 1) ≠ 0 → veStands s n (.veLoop n i) = true → ∃ t, exec (.veLoop n i) s = .next (s.after t) ∧
          xreg t n i.xd = wrapN 32 ((xreg s n i.xd : Int) - 1) ∧ t.regN (Reg.VE_PC n) = m ∧
          OnlyRegs [Reg.VE_PC n, Reg.VE_STATUS n, Reg.VE_X n i.xd.toNat] s t)) ∧
      ((pc : Int) + i.imm.toInt < 0 ∨ 1023 < (pc : Int) + i.imm.toInt → veStands s n (.veJmp n i) = true → ∃ t, exec (.veJmp n i) s = .next (s.after t) ∧ jobFault t) ∧
      (∀ c, (c = .veBeqz n i ∧ xreg s n i.xa ≠ 0) ∨ (c = .bnez n i ∧ xreg s n i.xa = 0) →
        veStands s n c = true → ∃ t, exec c s = .next (s.after t) ∧ veWrites [] s t n 0 0) ∧
      (i.xd = 0 ∨ xreg s n i.xd = 1 → veStands s n (.veLoop n i) = true → ∃ t, exec (.veLoop n i) s = .next (s.after t) ∧ veWrites [] s t n i.xd 0) ∧
      (∀ c put va, (c = .vget n i ∧ put = false) ∨ (c = .vput n i ∧ put = true) → va = xreg s n i.xb % 65536 * 2 ^ 32 + xreg s n i.xa →
        (xferOk (xreg s n i.xd) va (xreg s n i.xc) = false → veStands s n c = true → ∃ t, exec c s = .next (s.after t) ∧ jobFault t) ∧
        (xferOk (xreg s n i.xd) va (xreg s n i.xc) = true →
          (8 ≤ (xfersOf s n).length → veStands s n c = true → ∃ t, exec c s = .next (s.after t) ∧ veHeld s t n) ∧
          ((xfersOf s n).length < 8 → veStands s n c = true → ∃ t, exec c s = .next (s.after t) ∧
            t.veXfers = s.veXfers ++ [⟨n, put, xreg s n i.xd, va, xreg s n i.xc, s.regN Reg.DMMU_EPOCH, pc⟩] ∧
            t.regN (Reg.VE_XFER n) = (xfersOf s n).length + 1 ∧ t.regN (Reg.VE_PC n) = pc + 1 ∧
            t = { s with regs := t.regs, veXfers := t.veXfers }))) ∧
      (xfersOf s n ≠ [] → (veStands s n (.vwaitx n i) = true → ∃ t, exec (.vwaitx n i) s = .next (s.after t) ∧ veHeld s t n) ∧
        (veStands s n (.veHalt n i) = true → ∃ t, exec (.veHalt n i) s = .next (s.after t) ∧ veHeld s t n)) ∧
      (xfersOf s n = [] → (veStands s n (.vwaitx n i) = true → ∃ t, exec (.vwaitx n i) s = .next (s.after t) ∧ veWrites [] s t n 0 0) ∧
        ((∀ j, s.job (engineHandle s n) = some j → j.pausing = false) → veStands s n (.veHalt n i) = true → ∃ t, exec (.veHalt n i) s = .next (s.after t) ∧
          t.flag (Fd.VE_STATUS_DONE n) = true ∧ t.flag (Fd.VE_STATUS_RUN n) = false ∧ t.regN (Reg.VE_PC n) = pc ∧
          t.regBit (Reg.ICN_SH_PEND ((224 + n) / 32)) ((224 + n) % 32) = true ∧ RegsOnly { s with coal := t.coal } t)) ∧
      (∀ j lv, s.engineJob n = some (j, lv) →
        (j.pausing = true → xfersOf s n ≠ [] → veStands s n (.vePpoint n i) = true → ∃ t, exec (.vePpoint n i) s = .next (s.after t) ∧ veHeld s t n) ∧
        (j.pausing = false → veStands s n (.vePpoint n i) = true → ∃ t, exec (.vePpoint n i) s = .next (s.after t) ∧ veWrites [Reg.VE_SEQ_PPOINT n] s t n 0 0 ∧
          t.regN (Reg.VE_SEQ_PPOINT n) = pc * 65536 + i.imm.toNat))) ∧
      (∀ o, o = veObject s n i → i.mod.toNat < 2 →
        (objOfEngine s n o = false → (veStands s n (.veSig n i) = true → ∃ t, exec (.veSig n i) s = .next (s.after t) ∧ jobFault t) ∧
          (veStands s n (.veWait n i) = true → ∃ t, exec (.veWait n i) s = .next (s.after t) ∧ jobFault t)) ∧
        (objOfEngine s n o = true → s.slotOf (96 + n) = none →
          (objType s o = 1 → waitersOf s o = [] → isRetention s o = false → objValue s o < 2 ^ 24 - 1 →
            veStands s n (.veSig n i) = true → ∃ t, exec (.veSig n i) s = .next (s.after t) ∧ objValue t o = objValue s o + 1 ∧ t.regN (Reg.VE_PC n) = pc + 1 ∧ RegsOnly s t) ∧
          (waitSatisfied s o = false → veStands s n (.veWait n i) = true → ∃ t, exec (.veWait n i) s = .next (s.after t) ∧ t.regN (Reg.VE_PC n) = pc ∧
            t.flag (Fd.VE_STATUS_WAIT_SYNC n) = true ∧ waits t (veAgent n) = true ∧ veReady t n = false) ∧
          (waitSatisfied s o = true → objType s o ≠ 3 → veStands s n (.veWait n i) = true → ∃ t, exec (.veWait n i) s = .next (s.after t) ∧
            t.regN (Reg.VE_PC n) = pc + 1 ∧ t.flag (Fd.VE_STATUS_WAIT_SYNC n) = false ∧ t.waiters = s.waiters ∧
            objValue t o = (if objType s o = 1 then objValue s o - 1 else objValue s o))))) ∧
    (s.phase = .running →
      (xfersOf s n = [] → exec (.veTransferComplete n) s = .next s) ∧
      (∀ x rest, xfersOf s n = x :: rest → x.local_ + x.len ≤ veDiagBase →
        (∀ a, x.put = false → a = virtRead s 33 x.va x.len →
          (a.fault.isSome = true → ∃ t, exec (.veTransferComplete n) s = .next (s.after t) ∧ jobFault t) ∧
          (a.fault = none → a.poisoned = false → a.state.flag Fd.BOOT_ZERO_SRAM_BUSY = false →
            ∃ t, exec (.veTransferComplete n) s = .next (s.after t) ∧ t.bytes (veBase n + x.local_) a.bytes.length = a.bytes ∧
              (∀ y, y < veBase n + x.local_ ∨ veBase n + x.local_ + a.bytes.length ≤ y → t.bytes y 1 = a.state.bytes y 1) ∧
              t.veXfers = a.state.veXfers.erase x)) ∧
        (∀ r w, x.put = true → r = portRead s 33 (veBase n + x.local_) x.len → w = virtWrite r.state 33 x.va r.bytes →
          (w.fault.isSome = true → ∃ t, exec (.veTransferComplete n) s = .next (s.after t) ∧ jobFault t) ∧
          (w.fault = none → r.poisoned = false → ∃ t, exec (.veTransferComplete n) s = .next (s.after t) ∧
            MemKept w.state t ∧ t.veXfers = w.state.veXfers.erase x))))

/-- Every vector operation writes the results of Table 5.4 to its destination, counts its events and changes no other byte (R114; R115;
R116; R121; R125; R126; R127; R128; R129; R133; R134; R136). For every valid vector instruction other than VDQ that an engine issues, the
one that the word at its program counter spells: VLEN 0 changes nothing and goes on; operands out of bounds, unaligned or overlapping
fault; a pending transfer on its bytes holds it; else its destinations hold the results of its elements, no other byte changes, it is
counted, each event of its elements is counted, and the engine goes on. VDQ likewise writes the rows and scales of R129; with one row of a
floating-point format exactly that row. Integer sums saturate. A residue mismatch changes no result: it is counted, recorded in RES_LAST,
and opens a decision. A rounding or a MOD bit that is reserved faults. Where a 64-bit type takes a broadcast XB the operand is left open
(the model's choice, log entry 2). -/
def Obligations.VectorOperationsComplete : Prop :=
  ∀ (s : State) (n : Fin 24) (i : VFields) (pc len : Nat), pc = s.regN (Reg.VE_PC n) → len = s.regN (Reg.VE_VLEN n) → veIssues s n → pc < 1023 →
    (∀ c srcs dsts al outs evs, VecForm s n i c srcs dsts al outs evs → veStands s n c = true →
      (len = 0 → ∃ t, exec c s = .next (s.after t) ∧ veWrites [] s t n 0 0) ∧
      (len ≠ 0 → vRangesOk srcs dsts al = false → ∃ t, exec c s = .next (s.after t) ∧ jobFault t) ∧
      (len ≠ 0 → vRangesOk srcs dsts al = true →
        (vHazard s n srcs dsts = true → ∃ t, exec c s = .next (s.after t) ∧ veHeld s t n) ∧
        (vHazard s n srcs dsts = false → (∀ r ∈ srcs, poisoned s (veBase n + r.1) r.2 = false) →
          s.flag Fd.BOOT_ZERO_SRAM_BUSY = false → outs.Pairwise (fun p q => p.1 + p.2.length ≤ q.1 ∨ q.1 + q.2.length ≤ p.1) →
          ∃ t, exec c s = .next (s.after t) ∧ vecWrote s t n outs ∧
            ∀ es, evs = some es → ∀ e, t.regN (evReg n e) =
              if es.count e = 0 then s.regN (evReg n e) else min (s.regN (evReg n e) + es.count e) 0xFFFFFFFF))) ∧
    (∀ a b : Nat, signed 32 (vBin .add 2 2 a b).1 = satS 32 (signed 32 a + signed 32 b) ∧
      signed 32 (vBin .sub 2 2 a b).1 = satS 32 (signed 32 a - signed 32 b) ∧
      signed 32 (vBin .mul 2 2 a b).1 = satS 32 (signed 32 a * signed 32 b)) ∧
    (∀ k : Fin 256, veStands s n (.vadd n i none) = true → vBad i 0x80 = false → vTypes i vtArith = true → len ≠ 0 →
      vRangesOk (vecAB s n i i.st.toNat) [vecAt s n i.xd i.dt.toNat] 64 = true →
      vHazard s n (vecAB s n i i.st.toNat) [vecAt s n i.xd i.dt.toNat] = false → s.poison = [] → s.upsets = [] → s.resStopped.contains n.val = false →
      s.flag (Fd.KAT_VE_DECISION n) = false → s.flag Fd.BOOT_ZERO_SRAM_BUSY = false →
      ∃ t u, exec (.vadd n i (some k)) s = .next (s.after t) ∧ exec (.vadd n i none) s = .next (s.after u) ∧ MemKept u t ∧
        t.regN (Reg.VE_RES_MISMATCH n) = min (s.regN (Reg.VE_RES_MISMATCH n) + 1) 0xFFFFFFFF ∧
        t.regN (Reg.VE_RES_LAST n) = pc * 65536 + k.val ∧ (∃ d ∈ t.decisions, d.unit = n.val ∧ d.ve = true) ∧
        t.regN (Reg.VE_PC n) = pc + 1) ∧
    (∀ r0 r ents srcs dsts scales rows, r0 = dqRecord (s.bytes (veBase n + xreg s n i.xc) 32) →
      r = (if i.rnd = 1 then { r0 with mode := r0.mode ||| 32 } else r0) →
      ents = (if bitOf i.mod.toNat 4 then (len + 1) / 2 else len) → rows = i.mod.toNat % 16 + 1 →
      srcs = (List.range rows).map (fun k => (xreg s n i.xa + k * (i.imm.toNat * 64), vtBytes i.st.toNat len)) ++
        (if bitOf i.mod.toNat 7 then [] else [(xreg s n i.xb, ents)]) ++ [(xreg s n i.xc, 32)] →
      dsts = (List.range rows).map (fun k => (xreg s n i.xd + k * (i.imm.toNat * 64), vdqRowBytes (r.mode % 8) len)) →
      scales = (fun e => if bitOf i.mod.toNat 7 then xreg s n i.xb % 256
        else byteAt (s.bytes (veBase n + xreg s n i.xb) ents) (if bitOf i.mod.toNat 4 then e / 2 else e)) →
      i.mod.toNat &&& 0x60 = 0 → i.rnd.toNat ≤ 1 → i.dt = 0 → (i.st = 12 ∨ i.st = 13) → veStands s n (.vdq n i none) = true →
      (len = 0 → ∃ t, exec (.vdq n i none) s = .next (s.after t) ∧ veWrites [] s t n 0 0) ∧
      (len ≠ 0 → vRangesOk srcs dsts 64 = true → vHazard s n srcs dsts = false → r.ok = false → ∃ t, exec (.vdq n i none) s = .next (s.after t) ∧ jobFault t) ∧
      (len ≠ 0 → vRangesOk srcs dsts 64 = true → r.ok = true → (2 < r.mode % 8 → r.scaleOff + (len + 255) / 256 ≤ veDiagBase ∧
          vHazard s n [] [(r.scaleOff, (len + 255) / 256)] = false) → vHazard s n srcs dsts = false → s.poison = [] → s.upsets = [] →
        ∃ t, exec (.vdq n i none) s = .next (s.after t) ∧ MemKept (vdqRun s n i r scales len rows) t ∧ t.regN (Reg.VE_PC n) = pc + 1 ∧
          (∀ seed, seed = (match s.engineJob n with | some (j, _) => j.seed | none => 0) → rows = 1 → r.mode % 8 ≤ 2 →
            s.flag Fd.BOOT_ZERO_SRAM_BUSY = false →
            vecWrote s t n [(xreg s n i.xd, (vdqRow r (i.rnd == 1) seed scales [] 0 len
              ((vecA s n i i.st.toNat).map (partialVal (i.st.toNat == 13)))).1)]))) ∧
    (vBad i 0x80 = true → ∀ c ∈ [Instr.vadd n i none, .vsub n i none, .vmul n i none, .vfma n i none, .vdiv n i, .vmin n i, .vmax n i,
        .vabs n i, .vneg n i, .vshl n i, .vshra n i, .vand n i, .vor n i, .vxor n i, .vsel n i, .vexp2 n i, .vlog2 n i, .vrcp n i, .vrsq n i,
        .vmov n i, .vsoftmax n i none, .vstats n i none, .vaccx n i none, .vaccc n i none],
      veStands s n c = true → ∃ t, exec c s = .next (s.after t) ∧ jobFault t)

/-- DSP instructions, transforms, front end, PUCCH, fallback reception, decoders, encoder and precoding have their effect or fault (R172;
R173; R175; R176; R177; R178; R179; R181; R183; R184; R186; R192). TAPM takes the port's oldest sample, accumulates 16 lanes saturating at
40 bits and shifts its delay line, an empty port stalls. BLKRPT opens a block of COUNT passes, COUNT 0 skips it. BEXP gives the least
number of redundant sign bits, BNORM shifts by it. A core runs the row that the word at pc spells. Reserved fields, and a taken branch out
of an active block, fault. A transform writes its destination only and sets the exponent; outside the memory or into the season window it
faults. The front end takes the slot's bank, counts and adds a slot's statistics; PUCCH is decided or DTX; the fallback keeps the LLRs of
its layer set under the least scale, PRACH detections, and takes no SRS. A decode counts, combines, and gives the code block its output;
-128 is used as -127 and counted; a translation fault is a job fault. The encoder keeps the coded bits. Precoding queues one frame for
each stream when one frame is enough; at a shaped end of a burst it holds the parts until the symbol is whole. Units of the compute do
nothing while no job runs, those of the fallback while it does not run for the slot. The order of a transform's stages is the
implementation's (the model's choice, log entry 115), as are the ordinary DSP instructions between two distinctive ones (log entry 82). -/
def Obligations.RadioUnitsComplete : Prop :=
  ∀ (s : State), s.phase = .running →
    (∀ (n : Fin 16) (c : Fin 4) (pc : Fin 4096) (path : List (Fin 4096 × Fin 4096)) (i : TapmOp) (vf : Fin 32) (nm1 : Fin 16) (acc : Bool)
        (cr : Bool) (cnt : BitVec 11) (len : BitVec 12) (g : Fin 4) (ge : Fin 32) (r1 : BitVec 14) (r2 : BitVec 8) (k0 k : DspCore)
        (l : List (Nat × Nat × Nat)) (run : List Instr), k0 = s.core n c → k = { k0 with loops := l } →
      run = [Instr.tapm n c ⟨pc, path⟩ i, .blkrpt n c ⟨pc, path⟩ cr cnt len, .bexp n c ⟨pc, path⟩ vf nm1 acc r1,
        .bnorm n c ⟨pc, path⟩ vf nm1 g ge r2] →
      (∀ z ∈ run, coreMeets s n c ⟨pc, path⟩ z = false → exec z s = .next s) ∧
      (∀ b, followPath (distinctive s n.val c.val) k0.pc pc k0.loops path = .leaves b →
        ∀ z ∈ run, coreMeets s n c ⟨pc, path⟩ z = true → ∃ t, exec z s = .next (s.after t) ∧ coreFaulted t n) ∧
      (followPath (distinctive s n.val c.val) k0.pc pc k0.loops path = .arrives l →
        (coreMeets s n c ⟨pc, path⟩ (.tapm n c ⟨pc, path⟩ i) = true →
        (i.rsv ≠ 0 → ∃ t, exec (.tapm n c ⟨pc, path⟩ i) s = .next (s.after t) ∧ coreFaulted t n) ∧
        (∀ fifo cc, fifo = ((Tbl.get (fun _ => []) k.sp i.sp.val) ++ i.arrived.map (fun x => (x.1.toInt, x.2.toInt))).take 64 →
          cc = (k.vec i.vc.val).getD 0 (0, 0) → i.rsv = 0 →
          (fifo = [] → ∃ t, exec (.tapm n c ⟨pc, path⟩ i) s = .next (s.after t) ∧ CoresOnly s t ∧ RegsKept [Reg.DSC_STREAM_STALL n] s t ∧
            t.regN (Reg.DSC_STREAM_STALL n) = min (s.regN (Reg.DSC_STREAM_STALL n) + 1) 0xFFFFFFFF ∧ (t.core n c).a = k.a ∧
            (t.core n c).v = k.v ∧ (t.core n c).pc = pc.val) ∧
          (∀ x rest, fifo = x :: rest → i.conj = false → i.sub = false → ∃ t, exec (.tapm n c ⟨pc, path⟩ i) s = .next (s.after t) ∧
            CoresOnly s t ∧ RegsKept [Reg.DSC_ACC_SAT n] s t ∧ Tbl.get (fun _ => []) (t.core n c).sp i.sp.val = rest ∧
            Tbl.get zeroVec (t.core n c).a i.ad.val = (List.zip (Tbl.get zeroVec k.a i.ad.val) (k.vec i.vx.val)).map (fun p =>
              (satS 40 (p.1.1 + p.2.1 * cc.1 - p.2.2 * cc.2), satS 40 (p.1.2 + p.2.1 * cc.2 + p.2.2 * cc.1))) ∧
            (i.rot = false → (t.core n c).vec i.vx.val = (k.vec i.vx.val).drop 1 ++ [x]) ∧
            (l = [] → (t.core n c).pc = (pc.val + 1) % 4096)))) ∧
        (coreMeets s n c ⟨pc, path⟩ (.blkrpt n c ⟨pc, path⟩ cr cnt len) = true →
        (4 ≤ l.length ∨ len = 0 ∨ (cr = true ∧ 32 ≤ cnt.toNat) → ∃ t, exec (.blkrpt n c ⟨pc, path⟩ cr cnt len) s = .next (s.after t) ∧
          coreFaulted t n) ∧
        (l.length < 4 → len ≠ 0 → cr = false → l.any (fun x => decide (x.2.1 < pc.val + len.toNat)) = false →
          (cnt ≠ 0 → ∃ t, exec (.blkrpt n c ⟨pc, path⟩ cr cnt len) s = .next (s.after t) ∧ CoresOnly s t ∧ t.regs = s.regs ∧
            (t.core n c).loops = (pc.val + 1, pc.val + len.toNat, cnt.toNat) :: l ∧ (t.core n c).pc = (pc.val + 1) % 4096) ∧
          (cnt = 0 → l = [] → ∃ t, exec (.blkrpt n c ⟨pc, path⟩ cr cnt len) s = .next (s.after t) ∧ CoresOnly s t ∧
            t.regs = s.regs ∧ (t.core n c).pc = (pc.val + len.toNat + 1) % 4096))) ∧
        (coreMeets s n c ⟨pc, path⟩ (.bexp n c ⟨pc, path⟩ vf nm1 acc r1) = true →
        (r1 ≠ 0 ∨ 31 < vf.val + nm1.val → ∃ t, exec (.bexp n c ⟨pc, path⟩ vf nm1 acc r1) s = .next (s.after t) ∧ coreFaulted t n) ∧
        (vf.val + nm1.val ≤ 31 → r1 = 0 → ∃ t, exec (.bexp n c ⟨pc, path⟩ vf nm1 acc r1) s = .next (s.after t) ∧ CoresOnly s t ∧
          t.regs = s.regs ∧ (t.core n c).v = k.v ∧
          (∀ j, vf.val ≤ j → j ≤ vf.val + nm1.val → ∀ p ∈ k.vec j, (t.core n c).bx ≤ signBits p.1 ∧ (t.core n c).bx ≤ signBits p.2) ∧
          (acc = true → (t.core n c).bx ≤ k.bx) ∧ (t.core n c).bx ≤ 15)) ∧
        (coreMeets s n c ⟨pc, path⟩ (.bnorm n c ⟨pc, path⟩ vf nm1 g ge r2) = true →
        (r2 ≠ 0 ∨ 31 < vf.val + nm1.val → ∃ t, exec (.bnorm n c ⟨pc, path⟩ vf nm1 g ge r2) s = .next (s.after t) ∧ coreFaulted t n) ∧
        (vf.val + nm1.val ≤ 31 → r2 = 0 → ∃ t, exec (.bnorm n c ⟨pc, path⟩ vf nm1 g ge r2) s = .next (s.after t) ∧ CoresOnly s t ∧
          t.regs = s.regs ∧
          (∀ j, (t.core n c).vec j = if vf.val ≤ j ∧ j ≤ vf.val + nm1.val then
            (k.vec j).map (fun p => (normPart ((k.bx : Int) - g.val) p.1, normPart ((k.bx : Int) - g.val) p.2)) else k.vec j) ∧
          (ge ≠ 0 → (t.core n c).gr ge.val = BitVec.ofInt 32 ((k.gr ge.val).toNat - ((k.bx : Int) - g.val))) ∧ (t.core n c).bx = k.bx)))) ∧
    (∀ (n : Fin 16) (c : Fin 4) (size : Nat) (src dst : BitVec 20) (inv : Bool) (e : BitVec 8) (ok : Bool),
      ok = (dspRangeOk s n src.toNat (4 * size) false && dspRangeOk s n dst.toNat (4 * size) true) →
      (transformOk size = false ∨ (n.val < 12 ∧ computeRunning s = false) → exec (.transform ⟨n, c⟩ size src dst inv e) s = .next s) ∧
      (transformOk size = true → (12 ≤ n.val ∨ computeRunning s = true) →
        (ok = false → ∃ t, exec (.transform ⟨n, c⟩ size src dst inv e) s = .next (s.after t) ∧ coreFaulted t n) ∧
        (∀ r bs y out, r = portRead s (if n.val < 12 then 36 else 21) (dscBase n + src.toNat) (4 * size) → bs = dspBytes s n src.toNat r.bytes →
          y = fft size inv ((List.range size).map (fun i => (signed 16 (leAt bs (4 * i) 2), signed 16 (leAt bs (4 * i + 2) 2)))) e.toInt →
          out = y.1.flatMap (fun p => leBytes 2 (wrapN 16 p.1) ++ leBytes 2 (wrapN 16 p.2)) → ok = true → r.poisoned = false →
          bankOn s (dscBase n + dst.toNat) = true → s.flag Fd.BOOT_ZERO_SRAM_BUSY = false →
          ∃ t, exec (.transform ⟨n, c⟩ size src dst inv e) s = .next (s.after t) ∧ Tbl.get (fun _ => 0) t.fftExp n.val = y.2 ∧
            t.bytes (dscBase n + dst.toNat) out.length = out ∧
            (∀ a, a < dscBase n + dst.toNat ∨ dscBase n + dst.toNat + out.length ≤ a → t.bytes a 1 = s.bytes a 1) ∧
            t.regN (Reg.DSC_FFT_DONE n) = min (s.regN (Reg.DSC_FFT_DONE n) + 1) 0xFFFFFFFF))) ∧
    (∀ (c : Fin 8) (id : BitVec 32), s.slotCtx c id.toNat = none →
      (∀ n a y o, exec (.frontEnd n c id a y o) s = .next s) ∧ (∀ n i o, exec (.pucchDetect n c id i o) s = .next s) ∧
      (∀ n i o, exec (.fallbackReceive n c id i o) s = .next s) ∧ (∀ n b o, exec (.ldpcDecode n c id b o) s = .next s) ∧
      ∀ n i a l, exec (.polarDecode n c id i a l) s = .next s) ∧
    (∀ (c : Fin 8) (id : BitVec 32) (x : SlotCtx), s.slotCtx c id.toNat = some x →
      (∀ (n : Fin 12) (a : Fin 64) (y : Fin 14) (o : FrontOp),
        (x.learned = false ∨ computeRunning s = false → exec (.frontEnd n c id a y o) s = .next s) ∧
        (x.learned = true → computeRunning s = true →
        ∃ t z r, exec (.frontEnd n c id a y o) s = .next (s.after t) ∧ t.slotCtx c id.toNat = some z ∧
          z = { x with radio := z.radio, feSums := z.feSums } ∧
          z.radio.find? (fun q => q.1 == a.val) = some (a.val, (((x.radio.find? (fun q => q.1 == a.val)).map (fun q => q.2)).getD (radioReset 0)).add r) ∧
          r.count = ((antennaSamples x a y).filter (fun p => scAllocated x y p.1)).length ∧
          (∀ q ∈ x.radio, q.1 ≠ a.val → q ∈ z.radio) ∧ t.regN (Reg.DSC_SBANK n) = x.bank % 2 ^ 64 ∧
          t.regN (Reg.DSC_SSEASON n) = x.season % 2 ^ 64)) ∧
      (∀ (n : Fin 16) (i : Fin 255) (al : Alloc) (runs : Bool) (ants : List Nat) (comp : Option (Nat → Comp)), x.allocs[i.val]? = some al →
        runs = (if n.val < 12 then computeRunning s else fallbackRuns s x) → ants = pucchAntennas x n → comp = slotComp s n c x →
        (runs = false → ∀ o, exec (.pucchDetect n c id i o) s = .next s) ∧
        (∀ l b, runs = true → al.type = 2 → al.format = 0 → b = bestEnergy (l.map (shiftEnergy x comp ants)) →
          (belowDtx x b.2 = true → ∃ t, exec (.pucchDetect n c id i (.shifts l)) s = .next (s.after t) ∧
            SlotIs s t c id.toNat { x with uci := x.uci.filter (fun p => p.1 != i.val) ++ [(i.val, none)] } ∧
            t.regN (Reg.DSC_PUCCH_DTX n) = min (s.regN (Reg.DSC_PUCCH_DTX n) + 1) 0xFFFFFFFF) ∧
          (belowDtx x b.2 = false → ∃ t, exec (.pucchDetect n c id i (.shifts l)) s = .next (s.after t) ∧ t.regs = s.regs ∧
            SlotIs s t c id.toNat { x with uci := x.uci.filter (fun p => p.1 != i.val) ++ [(i.val, some [bitOf b.1 0, bitOf b.1 1, bitOf b.1 2])] })) ∧
        (∀ data dmrs r, runs = true → al.type = 2 → al.format = 1 → r = combinePsk x comp ants data dmrs → belowDtx x r.2 = false →
          ∃ t, exec (.pucchDetect n c id i (.psk data dmrs true)) s = .next (s.after t) ∧ t.regs = s.regs ∧
            SlotIs s t c id.toNat { x with uci := x.uci.filter (fun p => p.1 != i.val) ++ [(i.val, some [decide (r.1.1 < 0), decide (r.1.2 < 0)])] }) ∧
        (∀ k l op, runs = true →
          (op = PucchOp.soft k ∧ carriesUci al = true ∧ (al.type ≠ 2 ∨ al.format ≠ 4) ∧ l = Config.softBits (rxInput s n c x al) k) ∨
            (∃ data dmrs, op = PucchOp.spread k data dmrs ∧ al.type = 2 ∧ al.format = 4 ∧ l = spreadSoft x comp ants data dmrs) →
          (3 ≤ k → k ≤ 11 → ∃ t, exec (.pucchDetect n c id i op) s = .next (s.after t) ∧ t.regs = s.regs ∧
            SlotIs s t c id.toNat { x with uci := x.uci.filter (fun p => p.1 != i.val) ++ [(i.val, some ((Config.reedMuller k l).take k))] }) ∧
          (12 ≤ k → 12 ≤ n.val → (polarUci 4 k l).all (fun b => b.2) = true → ∃ t, exec (.pucchDetect n c id i op) s = .next (s.after t) ∧
            SlotIs s t c id.toNat { x with uci := x.uci.filter (fun p => p.1 != i.val) ++ [(i.val, some (uciBits k (polarUci 4 k l)))] }) ∧
          (12 ≤ k → (polarUci 4 k l).all (fun b => b.2) = false ∨ n.val < 12 → exec (.pucchDetect n c id i op) s = .next s))) ∧
      (∀ (n : Fin 4) (i : Fin 255) (o : FallbackOp) (y : SlotCtx) (al : Alloc) (inp : RxInput), al = x.allocs.getD i.val (allocRec []) →
        inp = rxInput s (12 + n.val) c x al → y = fallbackKeep x i inp →
        (fallbackRuns s x = false → exec (.fallbackReceive n c id i o) s = .next s) ∧
        (fallbackRuns s x = true → (∃ t, exec (.fallbackReceive n c id i o) s = .next (s.after t)) ∧
          (o.signals = [] → ∃ t, exec (.fallbackReceive n c id i o) s = .next (s.after t) ∧ SlotIs s t c id.toNat y ∧ t.regs = s.regs) ∧
          y = { x with fbSums := y.fbSums, fbLlrs := y.fbLlrs, prach := y.prach } ∧ (∀ q ∈ x.fbSums, q.1 ≠ i.val → q ∈ y.fbSums) ∧
          (al.type ≠ 1 → al.type ≠ 3 → y = x) ∧ (al.type = 3 → (i.val, Config.receivedPrach inp) ∈ y.prach) ∧
          (al.type = 1 → (i.val, Config.receivedSinr inp, Config.receivedEvm inp) ∈ y.fbSums) ∧
          (al.type = 1 → ∀ q ∈ Config.receivedLlrs inp, x.cbs.any (fun b => b.num == q.num && b.alloc == i.val && inLayerSet x b) = true →
            (q.num, scaleLlrs q) ∈ y.fbLlrs ∧ ∀ v ∈ (scaleLlrs q).2, -127 ≤ v ∧ v ≤ 127))) ∧
      (∀ (n : Fin 16) (k : Fin 2048) (o : DecodeOp) (b : CodeBlock) (a : Alloc), x.cbs.find? (fun q => q.num == k.val) = some b →
        a = x.allocs.getD b.alloc (allocRec []) →
        (n.val < 12 → x.learned = false ∨ computeRunning s = false → exec (.ldpcDecode n c id k o) s = .next s) ∧
        (∀ r, n.val < 12 → x.learned = true → computeRunning s = true →
          r = virtRead s 37 (a.softbuf + b.inTb * softStride o.ncb) (softStride o.ncb) →
          (r.fault.isSome = true ∨ r.poisoned = true → ∃ t, exec (.ldpcDecode n c id k o) s = .next (s.after t) ∧ jobFault t) ∧
          (r.fault = none → r.poisoned = false → ∃ t, exec (.ldpcDecode n c id k o) s = .next (s.after t) ∧
            (jobFault t ∨ t.regN (Reg.DEC_LDPC_CB_DONE n) = min (s.regN (Reg.DEC_LDPC_CB_DONE n) + 1) 0xFFFFFFFF))) ∧
        (12 ≤ n.val → fallbackRuns s x = false → exec (.ldpcDecode n c id k o) s = .next s) ∧
        (∀ l d ls key, 12 ≤ n.val → fallbackRuns s x = true → x.fbLlrs.find? (fun q => q.1 == k.val) = some l → b.released = none → ls = l.2.2 →
          key = (⟨c.val, a.ue, a.harq, b.inTb⟩ : SoftKey) →
          d = decodeCb (s.fld (Fd.DEC_LDPC_CFG_MAX_ITER n)) n a o.ncb (fbSoftOf s key o.ncb).1 l.2.1 (ls.map (fun q => max (-127) q)) →
          ∃ t y, exec (.ldpcDecode n c id k o) s = .next (s.after t) ∧ t.slotCtx c id.toNat = some y ∧
            (∃ q ∈ y.cbs, q.num = k.val ∧ q.fallback = some d.out ∧ q.fbAt = nowT s ∧ q.learned = b.learned ∧ q.doubt = b.doubt) ∧
            t.regN (Reg.DEC_LDPC_CB_DONE n) = min (s.regN (Reg.DEC_LDPC_CB_DONE n) + 1) 0xFFFFFFFF ∧
            t.regN (Reg.DEC_LDPC_LLR_M128 n) = min (s.regN (Reg.DEC_LDPC_LLR_M128 n) + countM128 ls) 0xFFFFFFFF ∧
            (∀ p bs, (claimPlace s key).1 = some p → fwAllows s 22 (fbPlaceAddr s p) true = true → bankOn s (fbPlaceAddr s p) = true →
              s.flag Fd.BOOT_ZERO_SRAM_BUSY = false →
              bs = softBytes o.ncb (cbShape a.tbs (a.code % 2 + 1)).zc (a.code % 2 + 1) d.scale d.q →
              t.bytes (fbPlaceAddr s p) bs.length = bs ∧ t.fbSoft[p]? = some key))) ∧
      (∀ (n : Fin 4) (i : Fin 255) (al : Alloc) (a : Nat) (ls : List (BitVec 8)) (segs : List (List Bool × Bool)), x.allocs[i.val]? = some al →
        (computeRunning s = false ∨ carriesUci al = false ∨ a < 12 → exec (.polarDecode n c id i a ls) s = .next s) ∧
        (computeRunning s = true → carriesUci al = true → 12 ≤ a → segs = polarUci 8 a ((ls.map (fun q => q.toInt)).map llrUsed) →
        ∃ t, exec (.polarDecode n c id i a ls) s = .next (s.after t) ∧
          t.regN (Reg.DEC_POL_CB_DONE n) = min (s.regN (Reg.DEC_POL_CB_DONE n) + segs.length) 0xFFFFFFFF ∧
          (segs.all (fun b => b.2) = true → SlotIs s t c id.toNat
            { x with uci := x.uci.filter (fun p => p.1 != i.val) ++ [(i.val, some (uciBits a segs))] }) ∧
          (segs.all (fun b => b.2) = false → t = { s with regs := t.regs } ∧ t.regN (Reg.DEC_POL_CRC_FAIL n) =
            min (s.regN (Reg.DEC_POL_CRC_FAIL n) + (segs.filter (fun b => !b.2)).length) 0xFFFFFFFF)))) ∧
    (∀ (n : Fin 8) (o : EncodeOp) (r : Access), r = virtRead s 37 o.dataVa ((o.tbs + 7) / 8) →
      (computeRunning s = false → exec (.ldpcEncode n o) s = .next s) ∧
      (computeRunning s = true →
        (r.fault.isSome = true ∨ r.poisoned = true → ∃ t, exec (.ldpcEncode n o) s = .next (s.after t) ∧ jobFault t) ∧
        (r.fault = none → r.poisoned = false → ∃ t, exec (.ldpcEncode n o) s = .next (s.after t) ∧
          Tbl.get (fun _ => []) t.coded n.val = (encodeTb o r.bytes).1 ∧ t = { r.state with regs := t.regs, coded := t.coded } ∧
          t.regN (Reg.DEC_LENC_CB_ENC n) = min (r.state.regN (Reg.DEC_LENC_CB_ENC n) + (encodeTb o r.bytes).2) 0xFFFFFFFF))) ∧
    (∀ (n : Fin 12) (g : PrbGroup) (cat : Bool), cat = s.flag (Fd.FHP0_CAR_CFG_CAT g.carrier.val) →
      (computeRunning s = false ∨ groupAlloc s g = none → exec (.precoding n g) s = .next s) ∧
      (∀ d a, computeRunning s = true → groupAlloc s g = some (d, a) →
        (∀ (whole : Bool) (held : List HeldPart), cat = true → whole = decide (shapedAt s d g.sym.val = (false, false)) →
          held = d.held ++ (layerGrid a.layers (12 * g.nprb) (groupPoints s a g).1).zipIdx.map (fun q =>
            ⟨g.sym.val, g.alloc, a.layer0 + q.2, g.prb0, g.nprb, q.1.flatMap (fun p => [p.1, p.2])⟩) →
          ∃ t, exec (.precoding n g) s = .next (s.after t) ∧
          t = { s with regs := t.regs, launch := t.launch, launchWait := t.launchWait, freeCtr := t.freeCtr, dlSlots := t.dlSlots } ∧
          (whole = true → t.dlSlots = s.dlSlots) ∧
          (whole = true → 0 < g.nprb → g.nprb ≤ prbsPerFrame s g.carrier →
            framesAt t (carMac s g.carrier) = framesAt s (carMac s g.carrier) + a.layers) ∧
          (whole = false → symbolWhole d g.sym.val held = false →
            t.dlSlots = (s.setHeld d held).dlSlots ∧ framesAt t (carMac s g.carrier) = framesAt s (carMac s g.carrier)) ∧
          (∀ m, m ≠ carMac s g.carrier → framesAt t m = framesAt s m)) ∧
        (∀ p r, cat = false → p = groupPoints s a g →
          r = precodePorts p.2 g.carrier g.prb0 d.pshift a (layerGrid a.layers (12 * g.nprb) p.1) g.nprb →
          (r.1.fault.isSome = true ∨ r.1.poisoned = true → ∃ t, exec (.precoding n g) s = .next (s.after t) ∧ jobFault t) ∧
          (r.1.fault = none → r.1.poisoned = false → ∃ t, exec (.precoding n g) s = .next (s.after t) ∧
            t.regN (Reg.DSC_PRECODE_SAT n) = min (r.1.state.regN (Reg.DSC_PRECODE_SAT n) + r.2.2) 0xFFFFFFFF ∧
            (shapedAt s d g.sym.val = (false, false) → 0 < g.nprb → g.nprb ≤ prbsPerFrame s g.carrier → framesAt t (carMac s g.carrier) =
              framesAt s (carMac s g.carrier) + s.fld (Fd.FHP0_CAR_CFG_NANT g.carrier.val)) ∧
            (∀ m, m ≠ carMac s g.carrier → framesAt t m = framesAt s m)))))

/-- Slots tick, release and reply; frames arrive, launch and count; an UPLANE frame of another message type is counted and not delivered
(R360). A TAIL write by another origin, for an unbound carrier or beyond the ring is ignored and recorded. In deterministic mode a tick
only takes its place among those whose tick beat comes. Else a tick that finds no entry counts NOCFG; the slot's own entry is consumed and
latched. A code block is released learned only without doubt, fallback only when it holds the fallback's output, and once. A slot whose
code blocks are released is answered once in its bound queue. A frame of a bad length or FCS only counts; UPLANE frames enter their queue
while they fit, HOST frames the ring, or count. A frame in a queue whose eCPRI message type is not 0 is counted in ECPRI_BAD by the next
step, and neither a slot nor FFD gets anything of it. A window that closes counts each section that is missing; before it closes nothing
counts. Launch and TX_ON events happen at their time, late frames count. A link change shows and raises its source. -/
def Obligations.SlotsAndFronthaul : Prop :=
  ∀ (s : State), s.phase = .running →
    (∀ (c : Fin 8) (o : Fin 64) (v : Word32), writePasses s o.val (Reg.SLOT_TAIL c.val) = true →
      ((s.car c).job = 0 ∨ o.val ≠ 5 + (s.car c).port.val ∨ slotRingSize s c ≤ v.toNat % 64 →
        ∃ t, exec (.slotTailWrite c o v) s = .next (s.after t) ∧ logged t 0x02 o.val (ctlBase + Reg.SLOT_TAIL c.val) v.toNat true ∧
          OnlyRegs logRegs { s with mainLog := t.mainLog } t) ∧
      ((s.car c).job ≠ 0 → o.val = 5 + (s.car c).port.val → v.toNat % 64 < slotRingSize s c →
        ∃ t, exec (.slotTailWrite c o v) s = .next (s.after t) ∧ t.fld (Fd.SLOT_TAIL_INDEX c) = v.toNat % 64 ∧
          t = { s with regs := t.regs, launch := t.launch, launchWait := t.launchWait, txq := t.txq, burstEnd := t.burstEnd, dlSlots := t.dlSlots })) ∧
    (∀ (c : Fin 8) (abs : Nat), abs = absSlot s c s.devTime →
      (s.flag (Fd.TSU_CAR_V c) = false ∨ (∃ a, (s.car c).lastAbs = some a ∧ abs ≤ a) → exec (.slotTick c) s = .next s) ∧
      (s.flag (Fd.TSU_CAR_V c) = true → (∀ a, (s.car c).lastAbs = some a → a < abs) → s.det = true →
        ∃ t, exec (.slotTick c) s = .next (s.after t) ∧ (t.car c).lastAbs = some abs ∧ (t.car c).ticks = (s.car c).ticks ∧
          (t.car c).slots = (s.car c).slots ∧
          t.tickPend = s.tickPend ++ [⟨beatInstant s (tickBeat s), c, abs, tickBeat s, tickAwaited s c⟩] ∧
          t = { s with cars := t.cars, rxTicks := t.rxTicks, rxEarly := t.rxEarly, tickPend := t.tickPend }) ∧
      (s.flag (Fd.TSU_CAR_V c) = true → (∀ a, (s.car c).lastAbs = some a → a < abs) → s.det = false →
        s.flag Fd.CAL_STATUS_COMMIT_PENDING = false → s.safePend = none → s.safeLate = [] → forcePending s = [] →
        (s.car c).held.length < 64 →
        ((s.car c).job = 0 ∨ s.fld (Fd.SLOT_HEAD_INDEX c) = s.fld (Fd.SLOT_TAIL_INDEX c) → (s.car c).objs = [] →
          ∃ t, exec (.slotTick c) s = .next (s.after t) ∧ (t.car c).ticks = (s.car c).ticks + 1 ∧ (t.car c).lastAbs = some abs ∧
            (t.car c).slots = (s.car c).slots ∧ t.regN (Reg.SLOT_NOCFG c) = min (s.regN (Reg.SLOT_NOCFG c) + 1) 0xFFFFFFFF ∧
            t = { s with regs := t.regs, cars := t.cars, rxTicks := t.rxTicks, rxEarly := t.rxEarly, kvActive := t.kvActive,
                         standIns := t.standIns, dlSlots := t.dlSlots, txq := t.txq }) ∧
        (∀ h, (s.car c).job ≠ 0 → s.fld (Fd.SLOT_HEAD_INDEX c) ≠ s.fld (Fd.SLOT_TAIL_INDEX c) →
          h = entryHdr (busRead s 7 (slotEntryAddr s c (s.fld (Fd.SLOT_HEAD_INDEX c))) 64).bytes → entryStale s c h abs false = false →
          entryAhead s c h abs = 0 → (s.car c).objs = [] → s.rxEarly = [] →
          ∃ t x, exec (.slotTick c) s = .next (s.after t) ∧ (t.car c).slots = (s.car c).slots ++ [x] ∧ x.id = (s.car c).ticks + 1 ∧
            x.abs = abs ∧ x.t0 = nowT s ∧ x.sfn = h.sfn ∧ x.slot = h.slot ∧ x.seq = h.seq ∧ x.replied = false ∧
            (t.car c).out = (s.car c).out ++ [⟨x.id, none⟩] ∧ (t.car c).seq = ((s.car c).seq + 1) % 2 ^ 32 ∧ MemKept s t ∧
            t.fld (Fd.SLOT_HEAD_INDEX c) = (s.fld (Fd.SLOT_HEAD_INDEX c) + 1) % slotRingSize s c % 64 ∧
            t.regN (Reg.SLOT_CONSUMED c) = (s.regN (Reg.SLOT_CONSUMED c) + 1) % 2 ^ 32))) ∧
    (∀ (c : Nat) (x : SlotCtx) (b : CodeBlock) (r : Release) (m : Bool), releaseOf s c x b = some (r, m) → b.released = none ∧
      (b.doubt = 0 ↔ r = .learned) ∧ (r = .learned → b.learned.isSome = true ∧ m = false) ∧ (r = .fallback → b.fallback.isSome = true)) ∧
    (∀ (c : Fin 8) (id : BitVec 32) (k : Fin 2048),
      (s.slotCtx c id.toNat = none → exec (.codeBlockRelease c id k) s = .next s ∧ ∀ y, exec (.rxWindowClose c id y) s = .next s) ∧
      (∀ x, s.slotCtx c id.toNat = some x →
        (∀ b, x.cbs.find? (fun q => q.num == k.val) = some b →
          (releaseOf s c x b = none → exec (.codeBlockRelease c id k) s = .next s) ∧
          (∀ r m, releaseOf s c x b = some (r, m) → ∃ t y, exec (.codeBlockRelease c id k) s = .next (s.after t) ∧ SlotIs s t c id.toNat y ∧
            y = { x with cbs := x.cbs.map (fun q => if q.num = k.val then { q with released := some r } else q), deadline := x.deadline || m } ∧
            (r = .learned → t.regN Reg.SAF_LEARNED_REL = min (s.regN Reg.SAF_LEARNED_REL + 1) 0xFFFFFFFF) ∧
            (r = .fallback → t.regN Reg.SAF_FB_REL = min (s.regN Reg.SAF_FB_REL + 1) 0xFFFFFFFF) ∧
            (r = .notDecoded → t.regN Reg.SAF_NOT_DECODED = min (s.regN Reg.SAF_NOT_DECODED + 1) 0xFFFFFFFF))) ∧
        (∀ y : Fin 14, symbolClosed s c x.abs y.val = false → exec (.rxWindowClose c id y) s = .next s) ∧
        (∀ y : Fin 14, symbolClosed s c x.abs y.val = true → ∃ t z, exec (.rxWindowClose c id y) s = .next (s.after t) ∧ SlotIs s t c id.toNat z ∧
          z = { x with due := x.due.filter (fun d => d.2.2.1 != y.val), cbs := z.cbs } ∧
          (s.flag Fd.FFD_STATUS_RUN = false → t.regs = s.regs ∧ z.cbs = x.cbs) ∧
          (s.flag Fd.FFD_STATUS_RUN = true → x.due.filter (fun d => d.2.2.1 == y.val) ≠ [] → t.regN Reg.FFD_MISSING =
            min (s.regN Reg.FFD_MISSING + (x.due.filter (fun d => d.2.2.1 == y.val)).length) 0xFFFFFFFF)))) ∧
    (∀ c : Fin 8,
      ((s.car c).out.find? (fun o => o.ready.isNone) = none → exec (.slotReply c) s = .next s) ∧
      (∀ o x, (s.car c).out.find? (fun o => o.ready.isNone) = some o → s.slotCtx c o.id = some x →
        (x.cbs.all (fun b => b.released.isSome) = false → exec (.slotReply c) s = .next s) ∧
        (∀ st r0 r1 r, (st, r0, r1) = slotResult x → r = slotReply x.route c st x.seq r0 r1 → x.cbs = [] → slotUes x = [] → x.ul = false →
          (s.car c).out = [o] → (s.car c).held = [] → (s.car c).blocked = false → mustHold s r = false → hasHeld s r.port r.queue = false →
          ∃ t, exec (.slotReply c) s = .next (s.after t) ∧ (t.car c).out = [] ∧ (t.car c).held = [] ∧
            t.regN (Reg.SLOT_REPLIED c) = (s.regN (Reg.SLOT_REPLIED c) + 1) % 2 ^ 32 ∧ MemKept s t ∧
            t.hostBytes r.port (s.fld (Fd.Q_RQ_BASE_ADDR r.port r.queue) * 64 + 32 * s.fld (Fd.Q_RQ_TAIL_INDEX r.port r.queue)) 32 =
              replyBytes r (s.fld (Fd.Q_RQ_TAIL_PHASE r.port r.queue)) s.time64))) ∧
    (∀ (p m : Fin 4) (on : Bool),
      (macCount s p ≤ m.val ∨ s.regBit (Reg.FHP_STATUS p) m = on → exec (.ethLinkChange p m on) s = .next s) ∧
      (m.val < macCount s p → s.regBit (Reg.FHP_STATUS p) m ≠ on → ∃ t, exec (.ethLinkChange p m on) s = .next (s.after t) ∧
        t.regBit (Reg.FHP_STATUS p) m = on ∧ t.regBit (Reg.ICN_SH_PEND ((272 + p) / 32)) ((272 + p) % 32) = true ∧
        RegsOnly { s with coal := t.coal } t) ∧
      (∀ bs f good, f = bs.take (bs.length - 4) →
        good = (decide (18 ≤ bs.length) && decide (bs.length ≤ 9216) && crc32 f == leNat (bs.drop (bs.length - 4))) →
        (macCount s p ≤ m.val ∨ s.regBit (Reg.FHP_STATUS p) m = false → exec (.ethFrameReceive p m bs) s = .next s) ∧
        (m.val < macCount s p → s.regBit (Reg.FHP_STATUS p) m = true →
          (good = false → exec (.ethFrameReceive p m bs) s = .next (s.after (s.bump (Reg.FHP_RX_FCS p)))) ∧
          (good = true → s.flag (Fd.FHP_CFG_CLS_EN p) = false →
            exec (.ethFrameReceive p m bs) s = .next (s.after ((s.bump (Reg.FHP_RX_FRAMES p)).bump (Reg.FHP_CLS_NOMATCH p)))) ∧
          (∀ a, good = true → s.flag (Fd.FHP_CFG_CLS_EN p) = true → (classify p f 16 (s.bump (Reg.FHP_RX_FRAMES p)) 0).1 = some a →
            (a % 8 = 0 → heldBytes (ingressQ s p) + bs.length ≤ 524288 → ∃ t, exec (.ethFrameReceive p m bs) s = .next (s.after t) ∧
              ingressQ t p = ingressQ s p ++ [⟨a / 8 % 8, nowT s, bs.length, f.drop (etherAt f + 2)⟩] ∧
              t = { s with regs := t.regs, ingress := t.ingress, freeCtr := t.freeCtr }) ∧
            (a % 8 = 0 → 524288 < heldBytes (ingressQ s p) + bs.length → s.flag (Fd.FHP_CFG_DROP p) = false →
              ∃ t, exec (.ethFrameReceive p m bs) s = .next (s.after t) ∧
                t.regN (Reg.FHP_RX_DROP p) = min (s.regN (Reg.FHP_RX_DROP p) + 1) 0xFFFFFFFF ∧ t = { s with regs := t.regs, freeCtr := t.freeCtr }) ∧
            (a % 8 = 3 → (s.fld (Fd.FHP_HR_HEAD_INDEX p) + 1) % 256 ≠ s.fld (Fd.FHP_HR_TAIL_INDEX p) →
              ∃ t, exec (.ethFrameReceive p m bs) s = .next (s.after t) ∧
                t.fld (Fd.FHP_HR_HEAD_INDEX p) = (s.fld (Fd.FHP_HR_HEAD_INDEX p) + 1) % 256) ∧
            (a % 8 = 3 → (s.fld (Fd.FHP_HR_HEAD_INDEX p) + 1) % 256 = s.fld (Fd.FHP_HR_TAIL_INDEX p) →
              ∃ t, exec (.ethFrameReceive p m bs) s = .next (s.after t) ∧
                t.regN (Reg.FHP_HOST_DROP p) = min (s.regN (Reg.FHP_HOST_DROP p) + 1) 0xFFFFFFFF ∧ MemKept s t))))) ∧
    (∀ (p : Fin 4) (f : RxFrame), s.pending = [] → s.tickPend = [] → s.winOut = [] → s.standIns = [] → s.resume = [] → s.paths = [] → ingressQ s p = [f] →
      (∀ q < 4, q ≠ p.val → ingressQ s q = []) → 4 ≤ f.body.length → bitOf (leAt f.body 0 1) 0 = false → leAt f.body 1 1 ≠ 0 →
      ∃ t, step s = .next t ∧ t.regN (Reg.FHP_ECPRI_BAD p) = min (s.regN (Reg.FHP_ECPRI_BAD p) + 1) 0xFFFFFFFF ∧
        t.cars = s.cars ∧ t.rxEarly = s.rxEarly ∧ t.ffdHist = s.ffdHist ∧ t.ffdSeq = s.ffdSeq ∧ ingressQ t p = []) ∧
    (∀ m : Fin 16,
      (launchQ s m = [] → exec (.frameLaunch m) s = .next s) ∧
      (∀ e q, launchQ s m = e :: q →
        (e.late = false → s.devTime < e.time → exec (.frameLaunch m) s = .next s) ∧
        (e.late = true → ∃ t, exec (.frameLaunch m) s = .next (s.after t) ∧ framesAt t m + 1 = framesAt s m ∧ t.wire = s.wire ∧
          t.regN Reg.TSU_LATE_LAUNCH = min (s.regN Reg.TSU_LATE_LAUNCH + 1) 0xFFFFFFFF) ∧
        (e.late = false → e.time ≤ s.devTime → ∃ t, exec (.frameLaunch m) s = .next (s.after t) ∧ framesAt t m + 1 = framesAt s m ∧
          Tbl.get (fun _ => none) t.wire m.val = some e.frame ∧
          t.regN (Reg.FHP_TX_FRAMES (m / 4)) = min (s.regN (Reg.FHP_TX_FRAMES (m / 4)) + 1) 0xFFFFFFFF))) ∧
    (∀ n : Fin 8,
      (txEvents s n = [] → exec (.txonEvent n) s = .next s) ∧
      (∀ e q, txEvents s n = e :: q →
        (e.late = false → s.devTime < e.time → exec (.txonEvent n) s = .next s) ∧
        (e.late = true ∨ e.time ≤ s.devTime → ∃ t, exec (.txonEvent n) s = .next (s.after t) ∧ txEvents t n = q ∧
          (e.kind = .txonRise → bitOf t.txOn n.val = true) ∧ (e.kind = .txonFall → bitOf t.txOn n.val = false) ∧
          (e.kind = .paRise ∨ e.kind = .paFall → Tbl.get envelopeReset t.paenv n.val = { Tbl.get envelopeReset s.paenv n.val with
            on := decide (e.kind = .paRise), len := e.len, floor := e.floor, carrier := s.fld (Fd.TSU_TXON_CARRIER n),
            start := if e.late then s.devTime else e.time }) ∧
          (e.late = false → t.regs = s.regs) ∧
          t = { s with regs := t.regs, txq := t.txq, txOn := t.txOn, paenv := t.paenv })))

/-- Streams arm, run their descriptors, miss deadlines and end; requests return; attention steps and gather batches run and record (R147;
R149; R158; R239; R240; R241; R242; R243; R244; R245; R408; R409). STREAM_ARM starts the next generation at index 0; STREAM_CANCEL ends a
stream at rest with a SUPERSEDED record. A COPY from a host issues its request with a tag; FENCE, SIG, LOOP and a satisfied WAIT move the
PC, an unsatisfied WAIT waits, END writes the FINAL record. A request that returns gives its tag back: its bytes are in memory, poisoned
ones with the poison code; a timeout ends the stream. A missed deadline is recorded and counts. CR_TAIL moves, and a record that waited is
written with the time of its writing. A COPY into a season window is a job fault. A step keeps the descriptor that it took. A step begins,
and one of a head without blocks is recorded; a batch records its STATUS and OOR. -/
def Obligations.StreamsStepsAndBatches : Prop :=
  ∀ (s : State),
    (∀ (p : Pkt) (b : State) (j : Job) (n : Nat), n = p.p0.toNat % 128 → b = begun s 0x20 p → hostReady s 0x20 p = true →
      editJob b (cmdOf 0x20 p) = .ok j →
      (b.jobState j ≠ 2 → b.jobState j ≠ 3 → b.stream n = none → exec (.streamArm p) s = .next (s.after (answered b 0x20 p St.badParam 8 0 0))) ∧
      (b.jobState j = 2 ∨ b.jobState j = 3 → b.stream n = none → extraBits p.p0 0xFFFFFFFF0000007F = false → p.p1.toNat < 2 ^ 48 →
        p.p1.toNat % 64 = 0 → p.p2.toNat < 2 ^ 52 → addrBits p.p2 % 32 = 0 → addrSpace p.p2 ≠ 3 → 4 ≤ p.p3.toNat → p.p3.toNat ≤ 12 →
        unusedFrom p 4 = none → bitsOf p.p0.toNat 63 32 = 0 →
        ∃ u, exec (.streamArm p) s = .next (s.after (answered u 0x20 p St.ok 0 0 0)) ∧
          u.stream n = some ⟨Fin.ofNat 128 n, [], [], 0, none, [], [], 0, none, false, false, none⟩ ∧
          u.regN (Reg.SDE_CTX_GEN (n / 4) (n % 4)) = (s.regN (Reg.SDE_CTX_GEN (n / 4) (n % 4)) + 1) % 2 ^ 32 ∧ streamPc u n = 0 ∧
          u.fld (Fd.SDE_CTX_PROG_ADDR (n / 4) (n % 4)) = p.p1.toNat ∧ u.fld (Fd.SDE_CTX_CR_CFG_LOG2N (n / 4) (n % 4)) = p.p3.toNat ∧
          u.flag (Fd.SDE_CTX_STATE_RUN (n / 4) (n % 4)) = true ∧ u = { b with regs := u.regs, streams := u.streams, streamOk := u.streamOk })) ∧
    (∀ (p : Pkt) (b : State) (j : Job) (n : Nat), n = p.p0.toNat → b = begun s 0x21 p → hostReady s 0x21 p = true →
      editJob b (cmdOf 0x21 p) = .ok j → n < 128 → unusedFrom p 1 = none →
      (b.stream n = none → exec (.streamCancel p) s = .next (s.after (answered b 0x21 p St.ok 0 0 0))) ∧
      (∀ x h a, b.stream n = some x → noneWaits s → x.runs = [] → x.reqs = [] → x.records = [] → x.final = false → x.cur = none → x.stop = none →
        x.pendingArm = none → h < 2 → ringAt s n h a →
        ∃ u, exec (.streamCancel p) s = .next (s.after (answered u 0x21 p St.ok 0 0 0)) ∧ u.stream n = none ∧
          u.regN (Reg.SDE_CTX_STATE (n / 4) (n % 4)) = 0 ∧ MemKept s u ∧
          u.hostBytes h a 32 = recordBytes s n St.ok (streamPc s n) 0 0 0xC s.time64.toNat)) ∧
    (∀ n : Fin 128, s.phase = .running → (computeRunning s = false ∨ s.stream n = none) →
      ∀ c ∈ [Instr.streamCopy n, .streamWait n, .streamSig n, .streamLoop n, .streamEnd n, .streamFence n], exec c s = .next s) ∧
    (∀ (n : Fin 128) (x : Stream) (d : List Byte) (u : State), streamBegins s n x d u → descBad d (s.slotOf (1000 + n)).isSome = false →
      (dOp d = 6 → dRec d = false → ∃ t, exec (.streamFence n) s = .next (s.after t) ∧ streamMoves s t n x (streamPc s n + 1)) ∧
      (∀ h < 2, ∀ a, dOp d = 6 → dRec d = true → ringAt s n h a → ∃ t, exec (.streamFence n) s = .next (s.after t) ∧
        streamMoves s t n x (streamPc s n + 1) ∧
        t.hostBytes h a 32 = recordBytes s n St.ok (streamPc s n) (leAt d 0x34 4) 0 0 s.time64.toNat) ∧
      (∀ k, dOp d = 4 → dRec d = false → k = loopCount x (streamPc s n) → ∃ t, exec (.streamLoop n) s = .next (s.after t) ∧
        (k < leAt d 2 2 → streamMoves s t n { x with loops := (streamPc s n, k + 1) :: x.loops.filter (fun y => y.1 != streamPc s n) }
          (leAt d 6 2)) ∧
        (leAt d 2 2 ≤ k → streamMoves s t n { x with loops := x.loops.filter (fun y => y.1 != streamPc s n) } (streamPc s n + 1))) ∧
      (∀ o, o = dObj d → dOp d = 3 → dRec d = false → jobObject s o = true → s.slotOf (1000 + n) = none → objType s o = 1 → waitersOf s o = [] →
        isRetention s o = false → objValue s o < 2 ^ 24 - 1 → ∃ t, exec (.streamSig n) s = .next (s.after t) ∧
          objValue t o = objValue s o + 1 ∧ streamMoves s t n x (streamPc s n + 1)) ∧
      (∀ o, o = dObj d → dOp d = 2 → dRec d = false → jobObject s o = true → s.streamOk.contains n = false → waits s (streamAgent n) = false →
        (waitSatisfied s o = false → ∃ t, exec (.streamWait n) s = .next (s.after t) ∧ streamPc t n = streamPc s n ∧ MemKept s t ∧
          t.flag (Fd.SDE_CTX_STATE_WAITING (n / 4) (n % 4)) = true ∧ waits t (streamAgent n) = true ∧
          t.stream n = some { x with runs := [begunRun s n x d], nextRun := x.nextRun + 1, cur := some x.nextRun }) ∧
        (waitSatisfied s o = true → objType s o ≠ 3 → ∃ t, exec (.streamWait n) s = .next (s.after t) ∧ t.waiters = s.waiters ∧
          streamMoves s t n x (streamPc s n + 1) ∧ t.flag (Fd.SDE_CTX_STATE_WAITING (n / 4) (n % 4)) = false ∧
          objValue t o = (if objType s o = 1 then objValue s o - 1 else objValue s o))) ∧
      (∀ h < 2, ∀ a, dOp d = 5 → x.pendingArm = none → noneWaits s → ringAt s n h a →
        ∃ t, exec (.streamEnd n) s = .next (s.after t) ∧ t.stream n = none ∧ t.regN (Reg.SDE_CTX_STATE (n / 4) (n % 4)) = 0 ∧ MemKept s t ∧
          t.hostBytes h a 32 = recordBytes s n St.ok (streamPc s n) (leAt d 0x34 4) 0 8 s.time64.toNat ∧
          t.regBit (Reg.ICN_SH_PEND (n / 32)) (n % 32) = true) ∧
      (∀ h < 2, dOp d = 1 → bitsOf (leAt d 0 4) 12 11 = 1 + h → bitsOf (leAt d 0 4) 14 13 = 3 → portQuiet s h = false →
        s.fld (Fd.SDE_TAGS_FREE (n / 4)) ≠ 0 → readsFull s (1 + h) = false → 0 < dTotal d → requestLen d 0 = dTotal d →
        (meetsSeason s (copyAddr d 0 true) (dTotal d) = true → ∃ t, exec (.streamCopy n) s = .next (s.after t) ∧ jobFault t) ∧
        (meetsSeason s (copyAddr d 0 true) (dTotal d) = false →
        ∃ t q, exec (.streamCopy n) s = .next (s.after t) ∧ q = (⟨x.nextRun, [.host h (copyAddr d 0 false) (dTotal d)],
            [.phys (copyAddr d 0 true) (dTotal d)], s.nextReq, 0, [], false⟩ : SdeReq) ∧
          t.stream n = some { x with runs := [{ begunRun s n x d with issued := dTotal d }], nextRun := x.nextRun + 1, cur := some x.nextRun,
                                     reqs := [q] } ∧
          t.fld (Fd.SDE_TAGS_FREE (n / 4)) = s.fld (Fd.SDE_TAGS_FREE (n / 4)) - 1 ∧ MemKept s t ∧ t.host0 = s.host0 ∧ t.host1 = s.host1))) ∧
    (∀ (n : Fin 128) (k : Fin 256), s.phase = .running → (s.stream n).bind (fun x => x.reqs[k.val]?) = none →
      (∀ e, exec (.sdeRequestComplete n k e) s = .next s) ∧ (∀ bad, exec (.hostCompletion n k bad) s = .next s) ∧
      exec (.completionTimeout n k) s = .next s) ∧
    (∀ (n : Fin 128) (x : Stream) (r : StreamRun) (q : SdeReq) (p a b m : Nat), copyInFlight s n x r q p a b m →
      (∀ c, c = Instr.sdeRequestComplete n 0 .ok ∨ c = .hostCompletion n 0 false ∨ c = .hostCompletion n 0 true → mayStore s sdeOrigin b →
        ∃ t, exec c s = .next (s.after t) ∧ t.bytes b m = s.hostBytes p a m ∧ (∀ y, y < b ∨ b + m ≤ y → t.bytes y 1 = s.bytes y 1) ∧
          t.stream n = some { x with runs := [], cur := none, reqs := [] } ∧ streamPc t n = (r.index + 1) % 65536 ∧
          t.fld (Fd.SDE_TAGS_FREE (n / 4)) = (s.fld (Fd.SDE_TAGS_FREE (n / 4)) + 1) % 512 ∧
          t.regN (Reg.SDE_BYTES (n / 4)) = min (s.regN (Reg.SDE_BYTES (n / 4)) + (m + 63) / 64) 0xFFFFFFFF ∧
          (c = .hostCompletion n 0 true → t.regN (Reg.PORT_RX_POISONED p) = min (s.regN (Reg.PORT_RX_POISONED p) + 1) 0xFFFFFFFF ∧
            (0 < m → b / poisonSpan b * poisonSpan b ∈ t.poison))) ∧
      (∀ h < 2, ∀ e, x.pendingArm = none → noneWaits s → ringAt s n h e → ∃ t, exec (.completionTimeout n 0) s = .next (s.after t) ∧
        t.stream n = none ∧ MemKept s t ∧ t.fld (Fd.SDE_TAGS_FREE (n / 4)) = (s.fld (Fd.SDE_TAGS_FREE (n / 4)) + 1) % 512 ∧
        t.regN (Reg.PORT_CPL_TIMEOUT p) = min (s.regN (Reg.PORT_CPL_TIMEOUT p) + 1) 0xFFFFFFFF ∧
        t.hostBytes h e 32 = recordBytes s n St.deadlineMissed (streamPc s n) r.user r.done 8 s.time64.toNat) ∧
      ∃ t, exec (.sdeRequestComplete n 0 .uncorrectable) s = .next (s.after t) ∧ jobFault t) ∧
    (∀ (n : Fin 128) (x : Stream), s.phase = .running → s.stream n = some x → s.streamOk.contains n.val = false →
      (x.runs.find? (fun r => dDlV r.desc && !r.missed && runDue s r) = none → exec (.streamDeadline n) s = .next s) ∧
      (∀ r, ∀ h < 2, ∀ a, x.runs = [r] → x.cur = some r.id → x.reqs = [] → x.stop = none → x.abort = false → x.records = [] → x.final = false →
        dOp r.desc = 2 → dDlV r.desc = true → r.missed = false → runDue s r = true → s.det = false → (∀ w ∈ s.waiters, w.agent ≠ streamAgent n) →
        noneWaits s → ringAt s n h a → ∃ t, exec (.streamDeadline n) s = .next (s.after t) ∧ MemKept s t ∧
          t.hostBytes h a 32 = recordBytes s n St.deadlineMissed r.index r.user r.done (if dSkip r.desc then 2 else 0) s.time64.toNat ∧
          t.regN (Reg.SDE_DL_MISS (n / 4)) = min (s.regN (Reg.SDE_DL_MISS (n / 4)) + 1) 0xFFFFFFFF ∧
          (dSkip r.desc = false → t.stream n = some { x with runs := [{ r with missed := true, skip := false }] }) ∧
          (dSkip r.desc = true → t.stream n = some { x with runs := [], cur := none } ∧ streamPc t n = (r.index + 1) % 65536))) ∧
    (∀ (n : Fin 128) (o : Fin 64) (v : Word32), s.phase = .running → writePasses s o.val (Reg.SDE_CTX_CR_TAIL (n / 4) (n % 4)) = true →
      (∀ x, s.stream n = some x → x.final = false) → s.crHeld.find? (fun h => h.stream == n.val) = none →
      ((∀ x, s.stream n = some x → x.records = []) → ∃ t, exec (.crTailWrite n o v) s = .next (s.after t) ∧
        t.fld (Fd.SDE_CTX_CR_TAIL_INDEX (n / 4) (n % 4)) = v.toNat % 4096 ∧ OnlyRegs [Reg.SDE_CTX_CR_TAIL (n / 4) (n % 4)] s t) ∧
      (∀ x bs, ∀ h < 2, ∀ i a, s.stream n = some x → x.records = [bs] → bs.length = 32 → portQuiet s h = false → s.fld (Fd.SDE_CTX_CR_CFG_SPACE (n / 4) (n % 4)) = 1 + h →
        i = s.fld (Fd.SDE_CTX_CR_HEAD_INDEX (n / 4) (n % 4)) → a = s.fld (Fd.SDE_CTX_CR_BASE_ADDR (n / 4) (n % 4)) + 32 * i →
        (i + 1) % 2 ^ s.fld (Fd.SDE_CTX_CR_CFG_LOG2N (n / 4) (n % 4)) ≠ v.toNat % 4096 →
        ∃ t, exec (.crTailWrite n o v) s = .next (s.after t) ∧ t.hostBytes h a 32 = stampRecord s bs ∧ t.stream n = some { x with records := [] } ∧
          MemKept s t ∧ t.flag (Fd.SDE_CTX_STATE_CR_FULL (n / 4) (n % 4)) = false ∧
          t.fld (Fd.SDE_CTX_CR_HEAD_INDEX (n / 4) (n % 4)) = (i + 1) % 2 ^ s.fld (Fd.SDE_CTX_CR_CFG_LOG2N (n / 4) (n % 4)) % 4096)) ∧
    (∀ (n : Fin 8) (r : BusRead) (d : StepDesc) (g : Access) (x : SeqHead) (e : Nat), r = aeTaken s n →
      d = stepDesc r.bytes → g = virtRead r.state (aeOrigin n) (seqDescVa s d.seq) 256 → x = seqHead g.bytes d.head → e = aeDescAddr s n + 0x30 →
      (s.phase = .running → s.flag (Fd.AE_STATUS_RUN n) = false → exec (.attentionStep n) s = .next s) ∧
      (aeReady s n → aeStageOf s n = 2 → s.flag (Fd.AE_STATUS_EDIT_HELD n) = false → r.poisoned = false → g.fault = none → g.poisoned = false →
        (stepRefused d x = false → d.seq ∈ s.kvActive ∨ s.kvActive.length < 1024 → headBusy s n d = false →
          ∃ t, exec (.attentionStep n) s = .next (s.after t) ∧ aeStageOf t n = 3 ∧ t.flag (Fd.AE_STATUS_WALKING n) = true ∧
            t.regN (Reg.AE_CUR n) = 2 ^ 31 + d.head * 2 ^ 14 + d.seq ∧ d.seq ∈ t.kvActive ∧ MemKept s t) ∧
        (stepRefused d x = true → d.sig = none → mayStore s (aeOrigin n) e → ∃ t, exec (.attentionStep n) s = .next (s.after t) ∧
          aeStageOf t n = 0 ∧ t.bytes e 16 = stepRecord St.badParam 1 0 0 [] ∧ (∀ y, y < e ∨ e + 16 ≤ y → t.bytes y 1 = s.bytes y 1) ∧
          t.regN (Reg.AE_STEP_BAD n) = min (s.regN (Reg.AE_STEP_BAD n) + 1) 0xFFFFFFFF)) ∧
      (∀ q o u, aeReady s n → aeStageOf s n = 3 → g.fault = none → g.poisoned = false → x.next ≤ x.first → d.napp = 0 → d.sig = none →
        q = virtRead g.state (aeOrigin n) d.q (132 * d.rows) → q.fault = none → q.poisoned = false →
        o = writeOutputs q.state n d x.dim (List.replicate d.rows (RowAcc.start x.dim)) → o.fault = none →
        u = (putSeqHead o.state (aeOrigin n) d.seq d.head { x with cand := 0xFFFFFFFF }).state → mayStore s (aeOrigin n) e →
        ∃ t, exec (.attentionStep n) s = .next (s.after t) ∧ t.bytes e 16 = stepRecord St.ok 1 0 0 (List.replicate d.rows 1) ∧
          (∀ y, y < e ∨ e + 16 ≤ y → t.bytes y 1 = u.bytes y 1) ∧ aeStageOf t n = 0 ∧ t.regN (Reg.AE_CUR n) = 0 ∧
          t.flag (Fd.AE_STATUS_WALKING n) = false ∧ t.regN (Reg.AE_STEPS n) = min (s.regN (Reg.AE_STEPS n) + 1) 0xFFFFFFFF ∧
          t.regN (Reg.AE_ALL_MASKED n) = min (s.regN (Reg.AE_ALL_MASKED n) + d.rows) 0xFFFFFFFF ∧
          t.regN (Reg.AE_RING_HEAD n) = (s.fld (Fd.AE_RING_HEAD_INDEX n) + 1) % 2 ^ (s.fld (Fd.AE_RING_CFG_SIZE n) + 4))) ∧
    (∀ (n : Fin 4) (r : BusRead) (b : Batch) (a : Access) (e : Nat), r = busRead s eguOrigin (eguDescAddr s n) 64 → b = batchOf r.bytes →
      e = eguDescAddr s n →
      (s.phase = .running → s.flag (Fd.EGU_STATUS_RUN n) = false → exec (.gatherBatch n) s = .next s) ∧
      (eguReady s n → eguStageOf s n = 2 → r.poisoned = false → b.sig = none → mayStore s eguOrigin (e + 0x2C) → mayStore s eguOrigin (e + 0x30) →
        (b.bad = true → ∃ t, exec (.gatherBatch n) s = .next (s.after t) ∧ t.bytes (e + 0x2C) 1 = [BitVec.ofNat 8 St.badParam] ∧
          t.bytes (e + 0x30) 4 = leBytes 4 0 ∧
          (∀ y, y ≠ e + 0x2C → y < e + 0x30 ∨ e + 0x34 ≤ y → t.bytes y 1 = s.bytes y 1) ∧ eguStageOf t n = 0 ∧ t.regN (Reg.EGU_BATCH_BAD n) = min (s.regN (Reg.EGU_BATCH_BAD n) + 1) 0xFFFFFFFF) ∧
        (∀ g, b.bad = false → a = virtRead r.state eguOrigin b.idx (4 * b.nidx) → a.fault = none → a.poisoned = false →
          g = ((List.range b.nidx).map (fun i => (leAt a.bytes (4 * i) 4, i))).foldl (gatherRow b) ⟨a.state, 0, none, false⟩ →
          g.fault = none → g.poisoned = false → ∃ t, exec (.gatherBatch n) s = .next (s.after t) ∧ t.bytes (e + 0x2C) 1 = [0] ∧
            t.bytes (e + 0x30) 4 = leBytes 4 g.oor ∧
            (∀ y, y ≠ e + 0x2C → y < e + 0x30 ∨ e + 0x34 ≤ y → t.bytes y 1 = g.st.bytes y 1) ∧ eguStageOf t n = 0 ∧
            t.regN (Reg.EGU_GATHERS n) = min (s.regN (Reg.EGU_GATHERS n) + b.nidx) 0xFFFFFFFF ∧
            t.regN (Reg.EGU_OOR n) = min (s.regN (Reg.EGU_OOR n) + g.oor) 0xFFFFFFFF ∧
            t.regN (Reg.EGU_RING_HEAD n) = (s.fld (Fd.EGU_RING_HEAD_INDEX n) + 1) % 2 ^ (s.fld (Fd.EGU_RING_CFG_SIZE n) + 4))))
end

