-- ==== Sys2Proof/Laws/Exec.lean ====
section
/-! SUPPORT. Every ordinary command is an effect on a device that runs: one lemma for all of them, from one line for each. -/

namespace Sys2Proof.Machine

/-- An outcome is an effect on a device that runs. -/
def Ordinary (s : State) (o : Host.Outcome State Fault Refusal) : Prop := ∃ f, o = up s f

theorem ordinary_up (s : State) (f : State → State) : Ordinary s (up s f) := ⟨f, rfl⟩

theorem ordinary_commandFetch  (s : State) : Ordinary s (exec (.commandFetch ) s) := by
  show Ordinary s (execCommandFetch  s)
  unfold execCommandFetch
  exact ordinary_up _ _
theorem ordinary_sqTailDoorbell (port : Fin 2) (queue : Fin 32) (origin : Fin 64) (value : Word32) (s : State) : Ordinary s (exec (.sqTailDoorbell port queue origin value) s) := by
  show Ordinary s (execSqTailDoorbell port queue origin value s)
  unfold execSqTailDoorbell
  exact ordinary_up _ _
theorem ordinary_queueCfgWrite (port : Fin 2) (queue : Fin 32) (origin : Fin 64) (value : Word32) (s : State) : Ordinary s (exec (.queueCfgWrite port queue origin value) s) := by
  show Ordinary s (execQueueCfgWrite port queue origin value s)
  unfold execQueueCfgWrite
  exact ordinary_up _ _
theorem ordinary_rqHeadWrite (port : Fin 2) (queue : Fin 32) (origin : Fin 64) (value : Word32) (s : State) : Ordinary s (exec (.rqHeadWrite port queue origin value) s) := by
  show Ordinary s (execRqHeadWrite port queue origin value s)
  unfold execRqHeadWrite
  exact ordinary_up _ _
theorem ordinary_nop (p : Pkt) (s : State) : Ordinary s (exec (.nop p) s) := by
  show Ordinary s (execNop p s)
  unfold execNop
  exact ordinary_up _ _
theorem ordinary_queryCaps (p : Pkt) (s : State) : Ordinary s (exec (.queryCaps p) s) := by
  show Ordinary s (execQueryCaps p s)
  unfold execQueryCaps
  exact ordinary_up _ _
theorem ordinary_jobLoad (p : Pkt) (img : JobImage) (s : State) : Ordinary s (exec (.jobLoad p img) s) := by
  show Ordinary s (execJobLoad p img s)
  unfold execJobLoad
  exact ordinary_up _ _
theorem ordinary_jobStart (p : Pkt) (s : State) : Ordinary s (exec (.jobStart p) s) := by
  show Ordinary s (execJobStart p s)
  unfold execJobStart
  exact ordinary_up _ _
theorem ordinary_referenceBeat  (s : State) : Ordinary s (exec (.referenceBeat ) s) := by
  show Ordinary s (execReferenceBeat  s)
  unfold execReferenceBeat
  exact ordinary_up _ _
theorem ordinary_jobPause (p : Pkt) (s : State) : Ordinary s (exec (.jobPause p) s) := by
  show Ordinary s (execJobPause p s)
  unfold execJobPause
  exact ordinary_up _ _
theorem ordinary_pauseDeadline  (s : State) : Ordinary s (exec (.pauseDeadline ) s) := by
  show Ordinary s (execPauseDeadline  s)
  unfold execPauseDeadline
  exact ordinary_up _ _
theorem ordinary_jobResume (p : Pkt) (s : State) : Ordinary s (exec (.jobResume p) s) := by
  show Ordinary s (execJobResume p s)
  unfold execJobResume
  exact ordinary_up _ _
theorem ordinary_jobKill (p : Pkt) (s : State) : Ordinary s (exec (.jobKill p) s) := by
  show Ordinary s (execJobKill p s)
  unfold execJobKill
  exact ordinary_up _ _
theorem ordinary_jobSave (p : Pkt) (s : State) : Ordinary s (exec (.jobSave p) s) := by
  show Ordinary s (execJobSave p s)
  unfold execJobSave
  exact ordinary_up _ _
theorem ordinary_jobRestore (p : Pkt) (s : State) : Ordinary s (exec (.jobRestore p) s) := by
  show Ordinary s (execJobRestore p s)
  unfold execJobRestore
  exact ordinary_up _ _
theorem ordinary_streamArm (p : Pkt) (s : State) : Ordinary s (exec (.streamArm p) s) := by
  show Ordinary s (execStreamArm p s)
  unfold execStreamArm
  exact ordinary_up _ _
theorem ordinary_streamCancel (p : Pkt) (s : State) : Ordinary s (exec (.streamCancel p) s) := by
  show Ordinary s (execStreamCancel p s)
  unfold execStreamCancel
  exact ordinary_up _ _
theorem ordinary_mapPages (p : Pkt) (s : State) : Ordinary s (exec (.mapPages p) s) := by
  show Ordinary s (execMapPages p s)
  unfold execMapPages
  exact ordinary_up _ _
theorem ordinary_unmapPages (p : Pkt) (s : State) : Ordinary s (exec (.unmapPages p) s) := by
  show Ordinary s (execUnmapPages p s)
  unfold execUnmapPages
  exact ordinary_up _ _
theorem ordinary_seqPageEditReset (p : Pkt) (s : State) : Ordinary s (exec (.seqPageEditReset p) s) := by
  show Ordinary s (execSeqPageEditReset p s)
  unfold execSeqPageEditReset
  exact ordinary_up _ _
theorem ordinary_seqPageEditConfig (p : Pkt) (s : State) : Ordinary s (exec (.seqPageEditConfig p) s) := by
  show Ordinary s (execSeqPageEditConfig p s)
  unfold execSeqPageEditConfig
  exact ordinary_up _ _
theorem ordinary_seqPageEditTrim (p : Pkt) (s : State) : Ordinary s (exec (.seqPageEditTrim p) s) := by
  show Ordinary s (execSeqPageEditTrim p s)
  unfold execSeqPageEditTrim
  exact ordinary_up _ _
theorem ordinary_seqPageEditMove (p : Pkt) (s : State) : Ordinary s (exec (.seqPageEditMove p) s) := by
  show Ordinary s (execSeqPageEditMove p s)
  unfold execSeqPageEditMove
  exact ordinary_up _ _
theorem ordinary_poolAdd (p : Pkt) (s : State) : Ordinary s (exec (.poolAdd p) s) := by
  show Ordinary s (execPoolAdd p s)
  unfold execPoolAdd
  exact ordinary_up _ _
theorem ordinary_poolRemove (p : Pkt) (s : State) : Ordinary s (exec (.poolRemove p) s) := by
  show Ordinary s (execPoolRemove p s)
  unfold execPoolRemove
  exact ordinary_up _ _
theorem ordinary_heldEditApply  (s : State) : Ordinary s (exec (.heldEditApply ) s) := by
  show Ordinary s (execHeldEditApply  s)
  unfold execHeldEditApply
  exact ordinary_up _ _
theorem ordinary_frameRetire  (s : State) : Ordinary s (exec (.frameRetire ) s) := by
  show Ordinary s (execFrameRetire  s)
  unfold execFrameRetire
  exact ordinary_up _ _
theorem ordinary_seasonStage (p : Pkt) (s : State) : Ordinary s (exec (.seasonStage p) s) := by
  show Ordinary s (execSeasonStage p s)
  unfold execSeasonStage
  exact ordinary_up _ _
theorem ordinary_shadowCheck  (s : State) : Ordinary s (exec (.shadowCheck ) s) := by
  show Ordinary s (execShadowCheck  s)
  unfold execShadowCheck
  exact ordinary_up _ _
theorem ordinary_seasonCommit (p : Pkt) (s : State) : Ordinary s (exec (.seasonCommit p) s) := by
  show Ordinary s (execSeasonCommit p s)
  unfold execSeasonCommit
  exact ordinary_up _ _
theorem ordinary_commitWithdrawal  (s : State) : Ordinary s (exec (.commitWithdrawal ) s) := by
  show Ordinary s (execCommitWithdrawal  s)
  unfold execCommitWithdrawal
  exact ordinary_up _ _
theorem ordinary_candidateBuild  (s : State) : Ordinary s (exec (.candidateBuild ) s) := by
  show Ordinary s (execCandidateBuild  s)
  unfold execCandidateBuild
  exact ordinary_up _ _
theorem ordinary_adaptStep (p : Pkt) (g : GradOp) (s : State) : Ordinary s (exec (.adaptStep p g) s) := by
  show Ordinary s (execAdaptStep p g s)
  unfold execAdaptStep
  exact ordinary_up _ _
theorem ordinary_groupSumTimeout  (s : State) : Ordinary s (exec (.groupSumTimeout ) s) := by
  show Ordinary s (execGroupSumTimeout  s)
  unfold execGroupSumTimeout
  exact ordinary_up _ _
theorem ordinary_digestReport (p : Pkt) (s : State) : Ordinary s (exec (.digestReport p) s) := by
  show Ordinary s (execDigestReport p s)
  unfold execDigestReport
  exact ordinary_up _ _
theorem ordinary_digestVerdict (ds : List (BitVec 12 × List Byte)) (s : State) : Ordinary s (exec (.digestVerdict ds) s) := by
  show Ordinary s (execDigestVerdict ds s)
  unfold execDigestVerdict
  exact ordinary_up _ _
theorem ordinary_digestVerdictReceive (v : Option (Option (List Byte) × Bool)) (s : State) : Ordinary s (exec (.digestVerdictReceive v) s) := by
  show Ordinary s (execDigestVerdictReceive v s)
  unfold execDigestVerdictReceive
  exact ordinary_up _ _
theorem ordinary_windowOpen (p : Pkt) (s : State) : Ordinary s (exec (.windowOpen p) s) := by
  show Ordinary s (execWindowOpen p s)
  unfold execWindowOpen
  exact ordinary_up _ _
theorem ordinary_windowClose (p : Pkt) (s : State) : Ordinary s (exec (.windowClose p) s) := by
  show Ordinary s (execWindowClose p s)
  unfold execWindowClose
  exact ordinary_up _ _
theorem ordinary_fabricJoin (p : Pkt) (s : State) : Ordinary s (exec (.fabricJoin p) s) := by
  show Ordinary s (execFabricJoin p s)
  unfold execFabricJoin
  exact ordinary_up _ _
theorem ordinary_fabricLeave (p : Pkt) (s : State) : Ordinary s (exec (.fabricLeave p) s) := by
  show Ordinary s (execFabricLeave p s)
  unfold execFabricLeave
  exact ordinary_up _ _
theorem ordinary_syncInit (p : Pkt) (s : State) : Ordinary s (exec (.syncInit p) s) := by
  show Ordinary s (execSyncInit p s)
  unfold execSyncInit
  exact ordinary_up _ _
theorem ordinary_syncSignal (p : Pkt) (s : State) : Ordinary s (exec (.syncSignal p) s) := by
  show Ordinary s (execSyncSignal p s)
  unfold execSyncSignal
  exact ordinary_up _ _
theorem ordinary_syncWait (p : Pkt) (s : State) : Ordinary s (exec (.syncWait p) s) := by
  show Ordinary s (execSyncWait p s)
  unfold execSyncWait
  exact ordinary_up _ _
theorem ordinary_syncWaitTimeout (port : Fin 2) (queue : Fin 32) (tag : BitVec 16) (s : State) : Ordinary s (exec (.syncWaitTimeout port queue tag) s) := by
  show Ordinary s (execSyncWaitTimeout port queue tag s)
  unfold execSyncWaitTimeout
  exact ordinary_up _ _
theorem ordinary_syncQuery (p : Pkt) (s : State) : Ordinary s (exec (.syncQuery p) s) := by
  show Ordinary s (execSyncQuery p s)
  unfold execSyncQuery
  exact ordinary_up _ _
theorem ordinary_syncDeadline (a : Agent) (obj : Fin 16384) (s : State) : Ordinary s (exec (.syncDeadline a obj) s) := by
  show Ordinary s (execSyncDeadline a obj s)
  unfold execSyncDeadline
  exact ordinary_up _ _
theorem ordinary_katRun (p : Pkt) (s : State) : Ordinary s (exec (.katRun p) s) := by
  show Ordinary s (execKatRun p s)
  unfold execKatRun
  exact ordinary_up _ _
theorem ordinary_fenceUnit (p : Pkt) (s : State) : Ordinary s (exec (.fenceUnit p) s) := by
  show Ordinary s (execFenceUnit p s)
  unfold execFenceUnit
  exact ordinary_up _ _
theorem ordinary_unfenceUnit (p : Pkt) (s : State) : Ordinary s (exec (.unfenceUnit p) s) := by
  show Ordinary s (execUnfenceUnit p s)
  unfold execUnfenceUnit
  exact ordinary_up _ _
theorem ordinary_logRead (p : Pkt) (s : State) : Ordinary s (exec (.logRead p) s) := by
  show Ordinary s (execLogRead p s)
  unfold execLogRead
  exact ordinary_up _ _
theorem ordinary_safetyConfig (p : Pkt) (s : State) : Ordinary s (exec (.safetyConfig p) s) := by
  show Ordinary s (execSafetyConfig p s)
  unfold execSafetyConfig
  exact ordinary_up _ _
theorem ordinary_fallbackForce (p : Pkt) (s : State) : Ordinary s (exec (.fallbackForce p) s) := by
  show Ordinary s (execFallbackForce p s)
  unfold execFallbackForce
  exact ordinary_up _ _
theorem ordinary_timeSet (p : Pkt) (s : State) : Ordinary s (exec (.timeSet p) s) := by
  show Ordinary s (execTimeSet p s)
  unfold execTimeSet
  exact ordinary_up _ _
theorem ordinary_timeAdjust (p : Pkt) (s : State) : Ordinary s (exec (.timeAdjust p) s) := by
  show Ordinary s (execTimeAdjust p s)
  unfold execTimeAdjust
  exact ordinary_up _ _
theorem ordinary_fwLoad (p : Pkt) (f : FwFacts) (s : State) : Ordinary s (exec (.fwLoad p f) s) := by
  show Ordinary s (execFwLoad p f s)
  unfold execFwLoad
  exact ordinary_up _ _
theorem ordinary_firmwareReady (ok : Bool) (s : State) : Ordinary s (exec (.firmwareReady ok) s) := by
  show Ordinary s (execFirmwareReady ok s)
  unfold execFirmwareReady
  exact ordinary_up _ _
theorem ordinary_attest (p : Pkt) (s : State) : Ordinary s (exec (.attest p) s) := by
  show Ordinary s (execAttest p s)
  unfold execAttest
  exact ordinary_up _ _
theorem ordinary_powerStateRun (p : Pkt) (s : State) : Ordinary s (exec (.powerStateRun p) s) := by
  show Ordinary s (execPowerStateRun p s)
  unfold execPowerStateRun
  exact ordinary_up _ _
theorem ordinary_powerStateIdle (p : Pkt) (s : State) : Ordinary s (exec (.powerStateIdle p) s) := by
  show Ordinary s (execPowerStateIdle p s)
  unfold execPowerStateIdle
  exact ordinary_up _ _
theorem ordinary_powerStateRetain (p : Pkt) (s : State) : Ordinary s (exec (.powerStateRetain p) s) := by
  show Ordinary s (execPowerStateRetain p s)
  unfold execPowerStateRetain
  exact ordinary_up _ _
theorem ordinary_warmReset (p : Pkt) (s : State) : Ordinary s (exec (.warmReset p) s) := by
  show Ordinary s (execWarmReset p s)
  unfold execWarmReset
  exact ordinary_up _ _
theorem ordinary_slotTailWrite (carrier : Fin 8) (origin : Fin 64) (value : Word32) (s : State) : Ordinary s (exec (.slotTailWrite carrier origin value) s) := by
  show Ordinary s (execSlotTailWrite carrier origin value s)
  unfold execSlotTailWrite
  exact ordinary_up _ _
theorem ordinary_slotTick (carrier : Fin 8) (s : State) : Ordinary s (exec (.slotTick carrier) s) := by
  show Ordinary s (execSlotTick carrier s)
  unfold execSlotTick
  exact ordinary_up _ _
theorem ordinary_codeBlockRelease (carrier : Fin 8) (tick : BitVec 32) (cb : Fin 2048) (s : State) : Ordinary s (exec (.codeBlockRelease carrier tick cb) s) := by
  show Ordinary s (execCodeBlockRelease carrier tick cb s)
  unfold execCodeBlockRelease
  exact ordinary_up _ _
theorem ordinary_slotReply (carrier : Fin 8) (s : State) : Ordinary s (exec (.slotReply carrier) s) := by
  show Ordinary s (execSlotReply carrier s)
  unfold execSlotReply
  exact ordinary_up _ _
theorem ordinary_supervisorWindowClose (carrier : Fin 8) (tick : BitVec 32) (sup : Fin 256) (finish : Bool) (s : State) : Ordinary s (exec (.supervisorWindowClose carrier tick sup finish) s) := by
  show Ordinary s (execSupervisorWindowClose carrier tick sup finish s)
  unfold execSupervisorWindowClose
  exact ordinary_up _ _
theorem ordinary_fallbackSelfTest (passed : Bool) (unit : Fin 256) (s : State) : Ordinary s (exec (.fallbackSelfTest passed unit) s) := by
  show Ordinary s (execFallbackSelfTest passed unit s)
  unfold execFallbackSelfTest
  exact ordinary_up _ _
theorem ordinary_seqNop (n : Fin 96) (i : FmtA) (s : State) : Ordinary s (exec (.seqNop n i) s) := by
  show Ordinary s (execSeqNop n i s)
  unfold execSeqNop
  exact ordinary_up _ _
theorem ordinary_seqHalt (n : Fin 96) (i : FmtA) (s : State) : Ordinary s (exec (.seqHalt n i) s) := by
  show Ordinary s (execSeqHalt n i s)
  unfold execSeqHalt
  exact ordinary_up _ _
theorem ordinary_seqLdi (n : Fin 96) (i : FmtI) (s : State) : Ordinary s (exec (.seqLdi n i) s) := by
  show Ordinary s (execSeqLdi n i s)
  unfold execSeqLdi
  exact ordinary_up _ _
theorem ordinary_seqLui (n : Fin 96) (i : FmtI) (s : State) : Ordinary s (exec (.seqLui n i) s) := by
  show Ordinary s (execSeqLui n i s)
  unfold execSeqLui
  exact ordinary_up _ _
theorem ordinary_seqAddi (n : Fin 96) (i : FmtI) (s : State) : Ordinary s (exec (.seqAddi n i) s) := by
  show Ordinary s (execSeqAddi n i s)
  unfold execSeqAddi
  exact ordinary_up _ _
theorem ordinary_seqAdd (n : Fin 96) (i : FmtA) (s : State) : Ordinary s (exec (.seqAdd n i) s) := by
  show Ordinary s (execSeqAdd n i s)
  unfold execSeqAdd
  exact ordinary_up _ _
theorem ordinary_seqSub (n : Fin 96) (i : FmtA) (s : State) : Ordinary s (exec (.seqSub n i) s) := by
  show Ordinary s (execSeqSub n i s)
  unfold execSeqSub
  exact ordinary_up _ _
theorem ordinary_seqJmp (n : Fin 96) (i : FmtI) (s : State) : Ordinary s (exec (.seqJmp n i) s) := by
  show Ordinary s (execSeqJmp n i s)
  unfold execSeqJmp
  exact ordinary_up _ _
theorem ordinary_seqLoop (n : Fin 96) (i : FmtI) (s : State) : Ordinary s (exec (.seqLoop n i) s) := by
  show Ordinary s (execSeqLoop n i s)
  unfold execSeqLoop
  exact ordinary_up _ _
theorem ordinary_seqBeqz (n : Fin 96) (i : FmtI) (s : State) : Ordinary s (exec (.seqBeqz n i) s) := by
  show Ordinary s (execSeqBeqz n i s)
  unfold execSeqBeqz
  exact ordinary_up _ _
theorem ordinary_seqMode (n : Fin 96) (i : FmtI) (s : State) : Ordinary s (exec (.seqMode n i) s) := by
  show Ordinary s (execSeqMode n i s)
  unfold execSeqMode
  exact ordinary_up _ _
theorem ordinary_seqScales (n : Fin 96) (i : FmtA) (s : State) : Ordinary s (exec (.seqScales n i) s) := by
  show Ordinary s (execSeqScales n i s)
  unfold execSeqScales
  exact ordinary_up _ _
theorem ordinary_seqWload (n : Fin 96) (i : FmtA) (s : State) : Ordinary s (exec (.seqWload n i) s) := by
  show Ordinary s (execSeqWload n i s)
  unfold execSeqWload
  exact ordinary_up _ _
theorem ordinary_seqPass (n : Fin 96) (i : FmtA) (s : State) : Ordinary s (exec (.seqPass n i) s) := by
  show Ordinary s (execSeqPass n i s)
  unfold execSeqPass
  exact ordinary_up _ _
theorem ordinary_seqDqcfg (n : Fin 96) (i : FmtA) (s : State) : Ordinary s (exec (.seqDqcfg n i) s) := by
  show Ordinary s (execSeqDqcfg n i s)
  unfold execSeqDqcfg
  exact ordinary_up _ _
theorem ordinary_seqDqout (n : Fin 96) (i : FmtA) (s : State) : Ordinary s (exec (.seqDqout n i) s) := by
  show Ordinary s (execSeqDqout n i s)
  unfold execSeqDqout
  exact ordinary_up _ _
theorem ordinary_seqSpill (n : Fin 96) (i : FmtA) (s : State) : Ordinary s (exec (.seqSpill n i) s) := by
  show Ordinary s (execSeqSpill n i s)
  unfold execSeqSpill
  exact ordinary_up _ _
theorem ordinary_seqFence (n : Fin 96) (i : FmtA) (s : State) : Ordinary s (exec (.seqFence n i) s) := by
  show Ordinary s (execSeqFence n i s)
  unfold execSeqFence
  exact ordinary_up _ _
theorem ordinary_seqSig (n : Fin 96) (i : FmtS) (s : State) : Ordinary s (exec (.seqSig n i) s) := by
  show Ordinary s (execSeqSig n i s)
  unfold execSeqSig
  exact ordinary_up _ _
theorem ordinary_seqWait (n : Fin 96) (i : FmtS) (s : State) : Ordinary s (exec (.seqWait n i) s) := by
  show Ordinary s (execSeqWait n i s)
  unfold execSeqWait
  exact ordinary_up _ _
theorem ordinary_seqPpoint (n : Fin 96) (i : FmtI) (s : State) : Ordinary s (exec (.seqPpoint n i) s) := by
  show Ordinary s (execSeqPpoint n i s)
  unfold execSeqPpoint
  exact ordinary_up _ _
theorem ordinary_passDrain (n : Fin 96) (errors : List GridError) (stalls : Stalls) (s : State) : Ordinary s (exec (.passDrain n errors stalls) s) := by
  show Ordinary s (execPassDrain n errors stalls s)
  unfold execPassDrain
  exact ordinary_up _ _
theorem ordinary_veNop (n : Fin 24) (i : VFields) (s : State) : Ordinary s (exec (.veNop n i) s) := by
  show Ordinary s (execVeNop n i s)
  unfold execVeNop
  exact ordinary_up _ _
theorem ordinary_veHalt (n : Fin 24) (i : VFields) (s : State) : Ordinary s (exec (.veHalt n i) s) := by
  show Ordinary s (execVeHalt n i s)
  unfold execVeHalt
  exact ordinary_up _ _
theorem ordinary_setvl (n : Fin 24) (i : VFields) (s : State) : Ordinary s (exec (.setvl n i) s) := by
  show Ordinary s (execSetvl n i s)
  unfold execSetvl
  exact ordinary_up _ _
theorem ordinary_li (n : Fin 24) (i : VFields) (s : State) : Ordinary s (exec (.li n i) s) := by
  show Ordinary s (execLi n i s)
  unfold execLi
  exact ordinary_up _ _
theorem ordinary_veLui (n : Fin 24) (i : VFields) (s : State) : Ordinary s (exec (.veLui n i) s) := by
  show Ordinary s (execVeLui n i s)
  unfold execVeLui
  exact ordinary_up _ _
theorem ordinary_veAddi (n : Fin 24) (i : VFields) (s : State) : Ordinary s (exec (.veAddi n i) s) := by
  show Ordinary s (execVeAddi n i s)
  unfold execVeAddi
  exact ordinary_up _ _
theorem ordinary_veAdd (n : Fin 24) (i : VFields) (s : State) : Ordinary s (exec (.veAdd n i) s) := by
  show Ordinary s (execVeAdd n i s)
  unfold execVeAdd
  exact ordinary_up _ _
theorem ordinary_veSub (n : Fin 24) (i : VFields) (s : State) : Ordinary s (exec (.veSub n i) s) := by
  show Ordinary s (execVeSub n i s)
  unfold execVeSub
  exact ordinary_up _ _
theorem ordinary_shli (n : Fin 24) (i : VFields) (s : State) : Ordinary s (exec (.shli n i) s) := by
  show Ordinary s (execShli n i s)
  unfold execShli
  exact ordinary_up _ _
theorem ordinary_shri (n : Fin 24) (i : VFields) (s : State) : Ordinary s (exec (.shri n i) s) := by
  show Ordinary s (execShri n i s)
  unfold execShri
  exact ordinary_up _ _
theorem ordinary_veJmp (n : Fin 24) (i : VFields) (s : State) : Ordinary s (exec (.veJmp n i) s) := by
  show Ordinary s (execVeJmp n i s)
  unfold execVeJmp
  exact ordinary_up _ _
theorem ordinary_veLoop (n : Fin 24) (i : VFields) (s : State) : Ordinary s (exec (.veLoop n i) s) := by
  show Ordinary s (execVeLoop n i s)
  unfold execVeLoop
  exact ordinary_up _ _
theorem ordinary_veBeqz (n : Fin 24) (i : VFields) (s : State) : Ordinary s (exec (.veBeqz n i) s) := by
  show Ordinary s (execVeBeqz n i s)
  unfold execVeBeqz
  exact ordinary_up _ _
theorem ordinary_bnez (n : Fin 24) (i : VFields) (s : State) : Ordinary s (exec (.bnez n i) s) := by
  show Ordinary s (execBnez n i s)
  unfold execBnez
  exact ordinary_up _ _
theorem ordinary_vget (n : Fin 24) (i : VFields) (s : State) : Ordinary s (exec (.vget n i) s) := by
  show Ordinary s (execVget n i s)
  unfold execVget
  exact ordinary_up _ _
theorem ordinary_vput (n : Fin 24) (i : VFields) (s : State) : Ordinary s (exec (.vput n i) s) := by
  show Ordinary s (execVput n i s)
  unfold execVput
  exact ordinary_up _ _
theorem ordinary_veTransferComplete (n : Fin 24) (s : State) : Ordinary s (exec (.veTransferComplete n) s) := by
  show Ordinary s (execVeTransferComplete n s)
  unfold execVeTransferComplete
  exact ordinary_up _ _
theorem ordinary_vwaitx (n : Fin 24) (i : VFields) (s : State) : Ordinary s (exec (.vwaitx n i) s) := by
  show Ordinary s (execVwaitx n i s)
  unfold execVwaitx
  exact ordinary_up _ _
theorem ordinary_veSig (n : Fin 24) (i : VFields) (s : State) : Ordinary s (exec (.veSig n i) s) := by
  show Ordinary s (execVeSig n i s)
  unfold execVeSig
  exact ordinary_up _ _
theorem ordinary_veWait (n : Fin 24) (i : VFields) (s : State) : Ordinary s (exec (.veWait n i) s) := by
  show Ordinary s (execVeWait n i s)
  unfold execVeWait
  exact ordinary_up _ _
theorem ordinary_vePpoint (n : Fin 24) (i : VFields) (s : State) : Ordinary s (exec (.vePpoint n i) s) := by
  show Ordinary s (execVePpoint n i s)
  unfold execVePpoint
  exact ordinary_up _ _
theorem ordinary_vadd (n : Fin 24) (i : VFields) (residue : Option (Fin 256)) (s : State) : Ordinary s (exec (.vadd n i residue) s) := by
  show Ordinary s (execVadd n i residue s)
  unfold execVadd
  first | unfold vecBin | unfold vecUn | unfold vecLogic
  exact ordinary_up _ _
theorem ordinary_vsub (n : Fin 24) (i : VFields) (residue : Option (Fin 256)) (s : State) : Ordinary s (exec (.vsub n i residue) s) := by
  show Ordinary s (execVsub n i residue s)
  unfold execVsub
  first | unfold vecBin | unfold vecUn | unfold vecLogic
  exact ordinary_up _ _
theorem ordinary_vmul (n : Fin 24) (i : VFields) (residue : Option (Fin 256)) (s : State) : Ordinary s (exec (.vmul n i residue) s) := by
  show Ordinary s (execVmul n i residue s)
  unfold execVmul
  first | unfold vecBin | unfold vecUn | unfold vecLogic
  exact ordinary_up _ _
theorem ordinary_vfma (n : Fin 24) (i : VFields) (residue : Option (Fin 256)) (s : State) : Ordinary s (exec (.vfma n i residue) s) := by
  show Ordinary s (execVfma n i residue s)
  unfold execVfma
  exact ordinary_up _ _
theorem ordinary_vdiv (n : Fin 24) (i : VFields) (s : State) : Ordinary s (exec (.vdiv n i) s) := by
  show Ordinary s (execVdiv n i s)
  unfold execVdiv
  first | unfold vecBin | unfold vecUn | unfold vecLogic
  exact ordinary_up _ _
theorem ordinary_vmin (n : Fin 24) (i : VFields) (s : State) : Ordinary s (exec (.vmin n i) s) := by
  show Ordinary s (execVmin n i s)
  unfold execVmin
  first | unfold vecBin | unfold vecUn | unfold vecLogic
  exact ordinary_up _ _
theorem ordinary_vmax (n : Fin 24) (i : VFields) (s : State) : Ordinary s (exec (.vmax n i) s) := by
  show Ordinary s (execVmax n i s)
  unfold execVmax
  first | unfold vecBin | unfold vecUn | unfold vecLogic
  exact ordinary_up _ _
theorem ordinary_vabs (n : Fin 24) (i : VFields) (s : State) : Ordinary s (exec (.vabs n i) s) := by
  show Ordinary s (execVabs n i s)
  unfold execVabs
  first | unfold vecBin | unfold vecUn | unfold vecLogic
  exact ordinary_up _ _
theorem ordinary_vneg (n : Fin 24) (i : VFields) (s : State) : Ordinary s (exec (.vneg n i) s) := by
  show Ordinary s (execVneg n i s)
  unfold execVneg
  first | unfold vecBin | unfold vecUn | unfold vecLogic
  exact ordinary_up _ _
theorem ordinary_vshl (n : Fin 24) (i : VFields) (s : State) : Ordinary s (exec (.vshl n i) s) := by
  show Ordinary s (execVshl n i s)
  unfold execVshl
  first | unfold vecBin | unfold vecUn | unfold vecLogic
  exact ordinary_up _ _
theorem ordinary_vshra (n : Fin 24) (i : VFields) (s : State) : Ordinary s (exec (.vshra n i) s) := by
  show Ordinary s (execVshra n i s)
  unfold execVshra
  first | unfold vecBin | unfold vecUn | unfold vecLogic
  exact ordinary_up _ _
theorem ordinary_vand (n : Fin 24) (i : VFields) (s : State) : Ordinary s (exec (.vand n i) s) := by
  show Ordinary s (execVand n i s)
  unfold execVand
  first | unfold vecBin | unfold vecUn | unfold vecLogic
  exact ordinary_up _ _
theorem ordinary_vor (n : Fin 24) (i : VFields) (s : State) : Ordinary s (exec (.vor n i) s) := by
  show Ordinary s (execVor n i s)
  unfold execVor
  first | unfold vecBin | unfold vecUn | unfold vecLogic
  exact ordinary_up _ _
theorem ordinary_vxor (n : Fin 24) (i : VFields) (s : State) : Ordinary s (exec (.vxor n i) s) := by
  show Ordinary s (execVxor n i s)
  unfold execVxor
  first | unfold vecBin | unfold vecUn | unfold vecLogic
  exact ordinary_up _ _
theorem ordinary_vcmp (n : Fin 24) (i : VFields) (s : State) : Ordinary s (exec (.vcmp n i) s) := by
  show Ordinary s (execVcmp n i s)
  unfold execVcmp
  exact ordinary_up _ _
theorem ordinary_vsel (n : Fin 24) (i : VFields) (s : State) : Ordinary s (exec (.vsel n i) s) := by
  show Ordinary s (execVsel n i s)
  unfold execVsel
  exact ordinary_up _ _
theorem ordinary_vexp2 (n : Fin 24) (i : VFields) (s : State) : Ordinary s (exec (.vexp2 n i) s) := by
  show Ordinary s (execVexp2 n i s)
  unfold execVexp2
  first | unfold vecBin | unfold vecUn | unfold vecLogic
  exact ordinary_up _ _
theorem ordinary_vlog2 (n : Fin 24) (i : VFields) (s : State) : Ordinary s (exec (.vlog2 n i) s) := by
  show Ordinary s (execVlog2 n i s)
  unfold execVlog2
  first | unfold vecBin | unfold vecUn | unfold vecLogic
  exact ordinary_up _ _
theorem ordinary_vrcp (n : Fin 24) (i : VFields) (s : State) : Ordinary s (exec (.vrcp n i) s) := by
  show Ordinary s (execVrcp n i s)
  unfold execVrcp
  first | unfold vecBin | unfold vecUn | unfold vecLogic
  exact ordinary_up _ _
theorem ordinary_vrsq (n : Fin 24) (i : VFields) (s : State) : Ordinary s (exec (.vrsq n i) s) := by
  show Ordinary s (execVrsq n i s)
  unfold execVrsq
  first | unfold vecBin | unfold vecUn | unfold vecLogic
  exact ordinary_up _ _
theorem ordinary_vmov (n : Fin 24) (i : VFields) (s : State) : Ordinary s (exec (.vmov n i) s) := by
  show Ordinary s (execVmov n i s)
  unfold execVmov
  first | unfold vecBin | unfold vecUn | unfold vecLogic
  exact ordinary_up _ _
theorem ordinary_vscan (n : Fin 24) (i : VFields) (residue : Option (Fin 256)) (s : State) : Ordinary s (exec (.vscan n i residue) s) := by
  show Ordinary s (execVscan n i residue s)
  unfold execVscan
  exact ordinary_up _ _
theorem ordinary_vred (n : Fin 24) (i : VFields) (residue : Option (Fin 256)) (s : State) : Ordinary s (exec (.vred n i residue) s) := by
  show Ordinary s (execVred n i residue s)
  unfold execVred
  exact ordinary_up _ _
theorem ordinary_vtopk (n : Fin 24) (i : VFields) (s : State) : Ordinary s (exec (.vtopk n i) s) := by
  show Ordinary s (execVtopk n i s)
  unfold execVtopk
  exact ordinary_up _ _
theorem ordinary_vsoftmax (n : Fin 24) (i : VFields) (residue : Option (Fin 256)) (s : State) : Ordinary s (exec (.vsoftmax n i residue) s) := by
  show Ordinary s (execVsoftmax n i residue s)
  unfold execVsoftmax
  exact ordinary_up _ _
theorem ordinary_vstats (n : Fin 24) (i : VFields) (residue : Option (Fin 256)) (s : State) : Ordinary s (exec (.vstats n i residue) s) := by
  show Ordinary s (execVstats n i residue s)
  unfold execVstats
  exact ordinary_up _ _
theorem ordinary_vaccx (n : Fin 24) (i : VFields) (residue : Option (Fin 256)) (s : State) : Ordinary s (exec (.vaccx n i residue) s) := by
  show Ordinary s (execVaccx n i residue s)
  unfold execVaccx
  exact ordinary_up _ _
theorem ordinary_vaccc (n : Fin 24) (i : VFields) (residue : Option (Fin 256)) (s : State) : Ordinary s (exec (.vaccc n i residue) s) := by
  show Ordinary s (execVaccc n i residue s)
  unfold execVaccc
  exact ordinary_up _ _
theorem ordinary_vdq (n : Fin 24) (i : VFields) (residue : Option (Fin 256)) (s : State) : Ordinary s (exec (.vdq n i residue) s) := by
  show Ordinary s (execVdq n i residue s)
  unfold execVdq
  exact ordinary_up _ _
theorem ordinary_vcvt (n : Fin 24) (i : VFields) (s : State) : Ordinary s (exec (.vcvt n i) s) := by
  show Ordinary s (execVcvt n i s)
  unfold execVcvt
  exact ordinary_up _ _
theorem ordinary_tapm (n : Fin 16) (c : Fin 4) (pc : CoreAt) (i : TapmOp) (s : State) : Ordinary s (exec (.tapm n c pc i) s) := by
  show Ordinary s (execTapm n c pc i s)
  unfold execTapm
  exact ordinary_up _ _
theorem ordinary_blkrpt (n : Fin 16) (c : Fin 4) (pc : CoreAt) (cr : Bool) (cnt : BitVec 11) (len : BitVec 12) (s : State) : Ordinary s (exec (.blkrpt n c pc cr cnt len) s) := by
  show Ordinary s (execBlkrpt n c pc cr cnt len s)
  unfold execBlkrpt
  exact ordinary_up _ _
theorem ordinary_bexp (n : Fin 16) (c : Fin 4) (pc : CoreAt) (vf : Fin 32) (nm1 : Fin 16) (acc : Bool) (rsv : BitVec 14) (s : State) : Ordinary s (exec (.bexp n c pc vf nm1 acc rsv) s) := by
  show Ordinary s (execBexp n c pc vf nm1 acc rsv s)
  unfold execBexp
  exact ordinary_up _ _
theorem ordinary_bnorm (n : Fin 16) (c : Fin 4) (pc : CoreAt) (vf : Fin 32) (nm1 : Fin 16) (guard : Fin 4) (ge : Fin 32) (rsv : BitVec 8) (s : State) : Ordinary s (exec (.bnorm n c pc vf nm1 guard ge rsv) s) := by
  show Ordinary s (execBnorm n c pc vf nm1 guard ge rsv s)
  unfold execBnorm
  exact ordinary_up _ _
theorem ordinary_transform (n : CoreId) (size : Nat) (src dst : BitVec 20) (inverse : Bool) (exp : BitVec 8) (s : State) : Ordinary s (exec (.transform n size src dst inverse exp) s) := by
  show Ordinary s (execTransform n size src dst inverse exp s)
  unfold execTransform
  exact ordinary_up _ _
theorem ordinary_frontEnd (n : Fin 12) (carrier : Fin 8) (tick : BitVec 32) (ant : Fin 64) (sym : Fin 14) (o : FrontOp) (s : State) : Ordinary s (exec (.frontEnd n carrier tick ant sym o) s) := by
  show Ordinary s (execFrontEnd n carrier tick ant sym o s)
  unfold execFrontEnd
  exact ordinary_up _ _
theorem ordinary_pucchDetect (n : Fin 16) (carrier : Fin 8) (tick : BitVec 32) (alloc : Fin 255) (o : PucchOp) (s : State) : Ordinary s (exec (.pucchDetect n carrier tick alloc o) s) := by
  show Ordinary s (execPucchDetect n carrier tick alloc o s)
  unfold execPucchDetect
  exact ordinary_up _ _
theorem ordinary_fallbackReceive (n : Fin 4) (carrier : Fin 8) (tick : BitVec 32) (alloc : Fin 255) (o : FallbackOp) (s : State) : Ordinary s (exec (.fallbackReceive n carrier tick alloc o) s) := by
  show Ordinary s (execFallbackReceive n carrier tick alloc o s)
  unfold execFallbackReceive
  exact ordinary_up _ _
theorem ordinary_ldpcDecode (n : Fin 16) (carrier : Fin 8) (tick : BitVec 32) (cb : Fin 2048) (o : DecodeOp) (s : State) : Ordinary s (exec (.ldpcDecode n carrier tick cb o) s) := by
  show Ordinary s (execLdpcDecode n carrier tick cb o s)
  unfold execLdpcDecode
  exact ordinary_up _ _
theorem ordinary_polarDecode (n : Fin 4) (carrier : Fin 8) (tick : BitVec 32) (alloc : Fin 255) (bits : Nat) (llrs : List (BitVec 8)) (s : State) : Ordinary s (exec (.polarDecode n carrier tick alloc bits llrs) s) := by
  show Ordinary s (execPolarDecode n carrier tick alloc bits llrs s)
  unfold execPolarDecode
  exact ordinary_up _ _
theorem ordinary_ldpcEncode (n : Fin 8) (o : EncodeOp) (s : State) : Ordinary s (exec (.ldpcEncode n o) s) := by
  show Ordinary s (execLdpcEncode n o s)
  unfold execLdpcEncode
  exact ordinary_up _ _
theorem ordinary_precoding (n : Fin 12) (g : PrbGroup) (s : State) : Ordinary s (exec (.precoding n g) s) := by
  show Ordinary s (execPrecoding n g s)
  unfold execPrecoding
  exact ordinary_up _ _
theorem ordinary_attentionStep (n : Fin 8) (s : State) : Ordinary s (exec (.attentionStep n) s) := by
  show Ordinary s (execAttentionStep n s)
  unfold execAttentionStep
  exact ordinary_up _ _
theorem ordinary_streamCopy (n : Fin 128) (s : State) : Ordinary s (exec (.streamCopy n) s) := by
  show Ordinary s (execStreamCopy n s)
  unfold execStreamCopy
  exact ordinary_up _ _
theorem ordinary_streamWait (n : Fin 128) (s : State) : Ordinary s (exec (.streamWait n) s) := by
  show Ordinary s (execStreamWait n s)
  unfold execStreamWait
  exact ordinary_up _ _
theorem ordinary_streamSig (n : Fin 128) (s : State) : Ordinary s (exec (.streamSig n) s) := by
  show Ordinary s (execStreamSig n s)
  unfold execStreamSig
  exact ordinary_up _ _
theorem ordinary_streamLoop (n : Fin 128) (s : State) : Ordinary s (exec (.streamLoop n) s) := by
  show Ordinary s (execStreamLoop n s)
  unfold execStreamLoop
  exact ordinary_up _ _
theorem ordinary_streamEnd (n : Fin 128) (s : State) : Ordinary s (exec (.streamEnd n) s) := by
  show Ordinary s (execStreamEnd n s)
  unfold execStreamEnd
  exact ordinary_up _ _
theorem ordinary_streamFence (n : Fin 128) (s : State) : Ordinary s (exec (.streamFence n) s) := by
  show Ordinary s (execStreamFence n s)
  unfold execStreamFence
  exact ordinary_up _ _
theorem ordinary_sdeRequestComplete (n : Fin 128) (k : Fin 256) (e : ReqEnd) (s : State) : Ordinary s (exec (.sdeRequestComplete n k e) s) := by
  show Ordinary s (execSdeRequestComplete n k e s)
  unfold execSdeRequestComplete
  exact ordinary_up _ _
theorem ordinary_streamDeadline (n : Fin 128) (s : State) : Ordinary s (exec (.streamDeadline n) s) := by
  show Ordinary s (execStreamDeadline n s)
  unfold execStreamDeadline
  exact ordinary_up _ _
theorem ordinary_crTailWrite (n : Fin 128) (origin : Fin 64) (value : Word32) (s : State) : Ordinary s (exec (.crTailWrite n origin value) s) := by
  show Ordinary s (execCrTailWrite n origin value s)
  unfold execCrTailWrite
  exact ordinary_up _ _
theorem ordinary_gatherBatch (n : Fin 4) (s : State) : Ordinary s (exec (.gatherBatch n) s) := by
  show Ordinary s (execGatherBatch n s)
  unfold execGatherBatch
  exact ordinary_up _ _
theorem ordinary_crossingRelease (consumer : Fin 160) (entries : List CrossEntry) (s : State) : Ordinary s (exec (.crossingRelease consumer entries) s) := by
  show Ordinary s (execCrossingRelease consumer entries s)
  unfold execCrossingRelease
  exact ordinary_up _ _
theorem ordinary_scrub (unit : ScrubUnit) (bank : Fin 16) (s : State) : Ordinary s (exec (.scrub unit bank) s) := by
  show Ordinary s (execScrub unit bank s)
  unfold execScrub
  exact ordinary_up _ _
theorem ordinary_ledgerCheck (storage : Option (Fin 7)) (s : State) : Ordinary s (exec (.ledgerCheck storage) s) := by
  show Ordinary s (execLedgerCheck storage s)
  unfold execLedgerCheck
  exact ordinary_up _ _
theorem ordinary_sramZeroComplete  (s : State) : Ordinary s (exec (.sramZeroComplete ) s) := by
  show Ordinary s (execSramZeroComplete  s)
  unfold execSramZeroComplete
  exact ordinary_up _ _
theorem ordinary_granuleZero  (s : State) : Ordinary s (exec (.granuleZero ) s) := by
  show Ordinary s (execGranuleZero  s)
  unfold execGranuleZero
  exact ordinary_up _ _
theorem ordinary_katSlice (kind : Fin 10) (inst : Fin 96) (r : SliceResult) (s : State) : Ordinary s (exec (.katSlice kind inst r) s) := by
  show Ordinary s (execKatSlice kind inst r s)
  unfold execKatSlice
  exact ordinary_up _ _
theorem ordinary_katOverdue (pa : Fin 96) (s : State) : Ordinary s (exec (.katOverdue pa) s) := by
  show Ordinary s (execKatOverdue pa s)
  unfold execKatOverdue
  exact ordinary_up _ _
theorem ordinary_overdueOther (kind : Fin 10) (inst : Fin 32) (s : State) : Ordinary s (exec (.overdueOther kind inst) s) := by
  show Ordinary s (execOverdueOther kind inst s)
  unfold execOverdueOther
  exact ordinary_up _ _
theorem ordinary_ethFrameReceive (fhp mac : Fin 4) (bytes : List Byte) (s : State) : Ordinary s (exec (.ethFrameReceive fhp mac bytes) s) := by
  show Ordinary s (execEthFrameReceive fhp mac bytes s)
  unfold execEthFrameReceive
  exact ordinary_up _ _
theorem ordinary_rxWindowClose (carrier : Fin 8) (tick : BitVec 32) (sym : Fin 14) (s : State) : Ordinary s (exec (.rxWindowClose carrier tick sym) s) := by
  show Ordinary s (execRxWindowClose carrier tick sym s)
  unfold execRxWindowClose
  exact ordinary_up _ _
theorem ordinary_frameLaunch (mac : Fin 16) (s : State) : Ordinary s (exec (.frameLaunch mac) s) := by
  show Ordinary s (execFrameLaunch mac s)
  unfold execFrameLaunch
  exact ordinary_up _ _
theorem ordinary_txonEvent (n : Fin 8) (s : State) : Ordinary s (exec (.txonEvent n) s) := by
  show Ordinary s (execTxonEvent n s)
  unfold execTxonEvent
  exact ordinary_up _ _
theorem ordinary_ethLinkChange (fhp mac : Fin 4) (linkUp : Bool) (s : State) : Ordinary s (exec (.ethLinkChange fhp mac linkUp) s) := by
  show Ordinary s (execEthLinkChange fhp mac linkUp s)
  unfold execEthLinkChange
  exact ordinary_up _ _
theorem ordinary_iferikWrite (h : IlpHdr) (w : BitVec 12) (off : BitVec 40) (tag : BitVec 12) (payload : List Byte) (s : State) : Ordinary s (exec (.iferikWrite h w off tag payload) s) := by
  show Ordinary s (execIferikWrite h w off tag payload s)
  unfold execIferikWrite
  exact ordinary_up _ _
theorem ordinary_iferikReadReq (h : IlpHdr) (w : BitVec 12) (off : BitVec 40) (tag : BitVec 12) (len : BitVec 13) (s : State) : Ordinary s (exec (.iferikReadReq h w off tag len) s) := by
  show Ordinary s (execIferikReadReq h w off tag len s)
  unfold execIferikReadReq
  exact ordinary_up _ _
theorem ordinary_iferikReadRsp (h : IlpHdr) (tag : BitVec 12) (st : RspStatus) (payload : List Byte) (s : State) : Ordinary s (exec (.iferikReadRsp h tag st payload) s) := by
  show Ordinary s (execIferikReadRsp h tag st payload s)
  unfold execIferikReadRsp
  exact ordinary_up _ _
theorem ordinary_iferikWriteRsp (h : IlpHdr) (tag : BitVec 12) (st : RspStatus) (s : State) : Ordinary s (exec (.iferikWriteRsp h tag st) s) := by
  show Ordinary s (execIferikWriteRsp h tag st s)
  unfold execIferikWriteRsp
  exact ordinary_up _ _
theorem ordinary_iferikReduce (h : IlpHdr) (r : ReduceOp) (s : State) : Ordinary s (exec (.iferikReduce h r) s) := by
  show Ordinary s (execIferikReduce h r s)
  unfold execIferikReduce
  exact ordinary_up _ _
theorem ordinary_iferikNop (h : IlpHdr) (s : State) : Ordinary s (exec (.iferikNop h) s) := by
  show Ordinary s (execIferikNop h s)
  unfold execIferikNop
  exact ordinary_up _ _
theorem ordinary_ctrlOpen (h : IlpHdr) (grants : List (BitVec 14)) (s : State) : Ordinary s (exec (.ctrlOpen h grants) s) := by
  show Ordinary s (execCtrlOpen h grants s)
  unfold execCtrlOpen
  exact ordinary_up _ _
theorem ordinary_ctrlClose (h : IlpHdr) (s : State) : Ordinary s (exec (.ctrlClose h) s) := by
  show Ordinary s (execCtrlClose h s)
  unfold execCtrlClose
  exact ordinary_up _ _
theorem ordinary_ctrlAnnounce (h : IlpHdr) (w : BitVec 12) (len : BitVec 40) (read write : Bool) (s : State) : Ordinary s (exec (.ctrlAnnounce h w len read write) s) := by
  show Ordinary s (execCtrlAnnounce h w len read write s)
  unfold execCtrlAnnounce
  exact ordinary_up _ _
theorem ordinary_announceAccept (h : IlpHdr) (w : BitVec 12) (ok : Bool) (s : State) : Ordinary s (exec (.announceAccept h w ok) s) := by
  show Ordinary s (execAnnounceAccept h w ok s)
  unfold execAnnounceAccept
  exact ordinary_up _ _
theorem ordinary_ctrlRevoke (h : IlpHdr) (w : BitVec 12) (s : State) : Ordinary s (exec (.ctrlRevoke h w) s) := by
  show Ordinary s (execCtrlRevoke h w s)
  unfold execCtrlRevoke
  exact ordinary_up _ _
theorem ordinary_ctrlJoin (h : IlpHdr) (o : JoinOp) (s : State) : Ordinary s (exec (.ctrlJoin h o) s) := by
  show Ordinary s (execCtrlJoin h o s)
  unfold execCtrlJoin
  exact ordinary_up _ _
theorem ordinary_ctrlLeave (h : IlpHdr) (group : BitVec 16) (s : State) : Ordinary s (exec (.ctrlLeave h group) s) := by
  show Ordinary s (execCtrlLeave h group s)
  unfold execCtrlLeave
  exact ordinary_up _ _
theorem ordinary_rtoExpiry (port : Fin 4) (peer : BitVec 12) (s : State) : Ordinary s (exec (.rtoExpiry port peer) s) := by
  show Ordinary s (execRtoExpiry port peer s)
  unfold execRtoExpiry
  exact ordinary_up _ _
theorem ordinary_ackTimer (port : Fin 4) (peer : BitVec 12) (s : State) : Ordinary s (exec (.ackTimer port peer) s) := by
  show Ordinary s (execAckTimer port peer s)
  unfold execAckTimer
  exact ordinary_up _ _
theorem ordinary_ctrlTimeout (wait : CtrlWait) (s : State) : Ordinary s (exec (.ctrlTimeout wait) s) := by
  show Ordinary s (execCtrlTimeout wait s)
  unfold execCtrlTimeout
  exact ordinary_up _ _
theorem ordinary_ilpLinkDown (port : Fin 4) (s : State) : Ordinary s (exec (.ilpLinkDown port) s) := by
  show Ordinary s (execIlpLinkDown port s)
  unfold execIlpLinkDown
  exact ordinary_up _ _
theorem ordinary_tsuOffsetWrite (origin : Fin 64) (value : Word) (s : State) : Ordinary s (exec (.tsuOffsetWrite origin value) s) := by
  show Ordinary s (execTsuOffsetWrite origin value s)
  unfold execTsuOffsetWrite
  exact ordinary_up _ _
theorem ordinary_holdoverEntry  (s : State) : Ordinary s (exec (.holdoverEntry ) s) := by
  show Ordinary s (execHoldoverEntry  s)
  unfold execHoldoverEntry
  exact ordinary_up _ _
theorem ordinary_rateSample  (s : State) : Ordinary s (exec (.rateSample ) s) := by
  show Ordinary s (execRateSample  s)
  unfold execRateSample
  exact ordinary_up _ _
theorem ordinary_ppsInEdge  (s : State) : Ordinary s (exec (.ppsInEdge ) s) := by
  show Ordinary s (execPpsInEdge  s)
  unfold execPpsInEdge
  exact ordinary_up _ _
theorem ordinary_ppsOutEdge  (s : State) : Ordinary s (exec (.ppsOutEdge ) s) := by
  show Ordinary s (execPpsOutEdge  s)
  unfold execPpsOutEdge
  exact ordinary_up _ _
theorem ordinary_todMessageSend  (s : State) : Ordinary s (exec (.todMessageSend ) s) := by
  show Ordinary s (execTodMessageSend  s)
  unfold execTodMessageSend
  exact ordinary_up _ _
theorem ordinary_todMessageReceive (msg : List Byte) (s : State) : Ordinary s (exec (.todMessageReceive msg) s) := by
  show Ordinary s (execTodMessageReceive msg s)
  unfold execTodMessageReceive
  exact ordinary_up _ _
theorem ordinary_bar2Access (port : Fin 2) (op : Bar2Op) (s : State) : Ordinary s (exec (.bar2Access port op) s) := by
  show Ordinary s (execBar2Access port op s)
  unfold execBar2Access
  exact ordinary_up _ _
theorem ordinary_hostCompletion (n : Fin 128) (k : Fin 256) (poisoned : Bool) (s : State) : Ordinary s (exec (.hostCompletion n k poisoned) s) := by
  show Ordinary s (execHostCompletion n k poisoned s)
  unfold execHostCompletion
  exact ordinary_up _ _
theorem ordinary_completionTimeout (n : Fin 128) (k : Fin 256) (s : State) : Ordinary s (exec (.completionTimeout n k) s) := by
  show Ordinary s (execCompletionTimeout n k s)
  unfold execCompletionTimeout
  exact ordinary_up _ _
theorem ordinary_semClaim (origin : Fin 64) (index : Fin 64) (tie : Bool) (s : State) : Ordinary s (exec (.semClaim origin index tie) s) := by
  show Ordinary s (execSemClaim origin index tie s)
  unfold execSemClaim
  exact ordinary_up _ _
theorem ordinary_semRelease (origin : Fin 64) (index : Fin 64) (value : Word32) (s : State) : Ordinary s (exec (.semRelease origin index value) s) := by
  show Ordinary s (execSemRelease origin index value s)
  unfold execSemRelease
  exact ordinary_up _ _
theorem ordinary_interruptDelivery (target : Fin 7) (s : State) : Ordinary s (exec (.interruptDelivery target) s) := by
  show Ordinary s (execInterruptDelivery target s)
  unfold execInterruptDelivery
  exact ordinary_up _ _
theorem ordinary_coalesceTimeout (target : Fin 7) (level : Fin 16) (s : State) : Ordinary s (exec (.coalesceTimeout target level) s) := by
  show Ordinary s (execCoalesceTimeout target level s)
  unfold execCoalesceTimeout
  exact ordinary_up _ _
theorem ordinary_eoi (target : Fin 7) (origin : Fin 64) (value : Word32) (s : State) : Ordinary s (exec (.eoi target origin value) s) := by
  show Ordinary s (execEoi target origin value s)
  unfold execEoi
  exact ordinary_up _ _
theorem ordinary_stackClr (target : Fin 7) (origin : Fin 64) (value : Word32) (s : State) : Ordinary s (exec (.stackClr target origin value) s) := by
  show Ordinary s (execStackClr target origin value s)
  unfold execStackClr
  exact ordinary_up _ _
theorem ordinary_swset (origin : Fin 64) (value : Word32) (s : State) : Ordinary s (exec (.swset origin value) s) := by
  show Ordinary s (execSwset origin value s)
  unfold execSwset
  exact ordinary_up _ _
theorem ordinary_pendingClear (word : IcnWord) (origin : Fin 64) (value : Word) (s : State) : Ordinary s (exec (.pendingClear word origin value) s) := by
  show Ordinary s (execPendingClear word origin value s)
  unfold execPendingClear
  exact ordinary_up _ _
theorem ordinary_interruptEnable (word : IcnWord) (origin : Fin 64) (value : Word) (s : State) : Ordinary s (exec (.interruptEnable word origin value) s) := by
  show Ordinary s (execInterruptEnable word origin value s)
  unfold execInterruptEnable
  exact ordinary_up _ _
theorem ordinary_routeWrite (source : Fin 2048) (origin : Fin 64) (value : Word32) (s : State) : Ordinary s (exec (.routeWrite source origin value) s) := by
  show Ordinary s (execRouteWrite source origin value s)
  unfold execRouteWrite
  exact ordinary_up _ _
theorem ordinary_stickyClr (origin : Fin 64) (value : Word32) (s : State) : Ordinary s (exec (.stickyClr origin value) s) := by
  show Ordinary s (execStickyClr origin value s)
  unfold execStickyClr
  exact ordinary_up _ _
theorem ordinary_wake (origin : Fin 64) (value : Word32) (us : BitVec 16) (s : State) : Ordinary s (exec (.wake origin value us) s) := by
  show Ordinary s (execWake origin value us s)
  unfold execWake
  exact ordinary_up _ _
theorem ordinary_fbOffArm (origin : Fin 64) (value : Word32) (s : State) : Ordinary s (exec (.fbOffArm origin value) s) := by
  show Ordinary s (execFbOffArm origin value s)
  unfold execFbOffArm
  exact ordinary_up _ _
theorem ordinary_fwLock (origin : Fin 64) (value : Word32) (s : State) : Ordinary s (exec (.fwLock origin value) s) := by
  show Ordinary s (execFwLock origin value s)
  unfold execFwLock
  exact ordinary_up _ _
theorem ordinary_rcRead (origin : Fin 64) (offset : BitVec 26) (len : BitVec 13) (s : State) : Ordinary s (exec (.rcRead origin offset len) s) := by
  show Ordinary s (execRcRead origin offset len s)
  unfold execRcRead
  exact ordinary_up _ _
theorem ordinary_latchingRead (origin : Fin 64) (offset : BitVec 26) (len : BitVec 13) (s : State) : Ordinary s (exec (.latchingRead origin offset len) s) := by
  show Ordinary s (execLatchingRead origin offset len s)
  unfold execLatchingRead
  exact ordinary_up _ _
theorem ordinary_registerWrite (origin : Fin 64) (offset : BitVec 26) (len : BitVec 13) (value : Word) (s : State) : Ordinary s (exec (.registerWrite origin offset len value) s) := by
  show Ordinary s (execRegisterWrite origin offset len value s)
  unfold execRegisterWrite
  exact ordinary_up _ _
theorem ordinary_brownoutHold (sram : Bool) (mv : BitVec 10) (s : State) : Ordinary s (exec (.brownoutHold sram mv) s) := by
  show Ordinary s (execBrownoutHold sram mv s)
  unfold execBrownoutHold
  exact ordinary_up _ _
theorem ordinary_holdEnd (core sram : BitVec 10) (s : State) : Ordinary s (exec (.holdEnd core sram) s) := by
  show Ordinary s (execHoldEnd core sram s)
  unfold execHoldEnd
  exact ordinary_up _ _
theorem ordinary_holdEscalation  (s : State) : Ordinary s (exec (.holdEscalation ) s) := by
  show Ordinary s (execHoldEscalation  s)
  unfold execHoldEscalation
  exact ordinary_up _ _
theorem ordinary_overvoltage (sram : Bool) (mv : BitVec 10) (s : State) : Ordinary s (exec (.overvoltage sram mv) s) := by
  show Ordinary s (execOvervoltage sram mv s)
  unfold execOvervoltage
  exact ordinary_up _ _
theorem ordinary_avsTargetStep (raise : Bool) (s : State) : Ordinary s (exec (.avsTargetStep raise) s) := by
  show Ordinary s (execAvsTargetStep raise s)
  unfold execAvsTargetStep
  exact ordinary_up _ _
theorem ordinary_thermalAlarm (temp : BitVec 16) (s : State) : Ordinary s (exec (.thermalAlarm temp) s) := by
  show Ordinary s (execThermalAlarm temp s)
  unfold execThermalAlarm
  exact ordinary_up _ _
theorem ordinary_tempAlert (temp : BitVec 16) (s : State) : Ordinary s (exec (.tempAlert temp) s) := by
  show Ordinary s (execTempAlert temp s)
  unfold execTempAlert
  exact ordinary_up _ _
theorem ordinary_loadBalancerMove (m : BalanceMove) (s : State) : Ordinary s (exec (.loadBalancerMove m) s) := by
  show Ordinary s (execLoadBalancerMove m s)
  unfold execLoadBalancerMove
  exact ordinary_up _ _
theorem ordinary_pcieConfigWrite (port : Fin 2) (w : CfgWrite) (s : State) : Ordinary s (exec (.pcieConfigWrite port w) s) := by
  show Ordinary s (execPcieConfigWrite port w s)
  unfold execPcieConfigWrite
  exact ordinary_up _ _
theorem ordinary_msixTableWrite (port : Fin 2) (vector : Fin 16) (dword : Fin 4) (value : Word32) (s : State) : Ordinary s (exec (.msixTableWrite port vector dword value) s) := by
  show Ordinary s (execMsixTableWrite port vector dword value s)
  unfold execMsixTableWrite
  exact ordinary_up _ _
theorem ordinary_ilpLinkUp (port : Fin 4) (s : State) : Ordinary s (exec (.ilpLinkUp port) s) := by
  show Ordinary s (execIlpLinkUp port s)
  unfold execIlpLinkUp
  exact ordinary_up _ _
theorem ordinary_pfcPauseFrame (port : Fin 4) (enable : BitVec 8) (quanta : List (BitVec 16)) (s : State) : Ordinary s (exec (.pfcPauseFrame port enable quanta) s) := by
  show Ordinary s (execPfcPauseFrame port enable quanta s)
  unfold execPfcPauseFrame
  exact ordinary_up _ _
theorem ordinary_revokeAcknowledge (h : IlpHdr) (w : BitVec 12) (s : State) : Ordinary s (exec (.revokeAcknowledge h w) s) := by
  show Ordinary s (execRevokeAcknowledge h w s)
  unfold execRevokeAcknowledge
  exact ordinary_up _ _
theorem ordinary_leaveAcknowledge (h : IlpHdr) (group : BitVec 16) (s : State) : Ordinary s (exec (.leaveAcknowledge h group) s) := by
  show Ordinary s (execLeaveAcknowledge h group s)
  unfold execLeaveAcknowledge
  exact ordinary_up _ _
theorem ordinary_groupEpochAnnounce (h : IlpHdr) (group : BitVec 16) (news : GroupNews) (s : State) : Ordinary s (exec (.groupEpochAnnounce h group news) s) := by
  show Ordinary s (execGroupEpochAnnounce h group news s)
  unfold execGroupEpochAnnounce
  exact ordinary_up _ _
theorem ordinary_clk10mServoUpdate (cycles : Word32) (s : State) : Ordinary s (exec (.clk10mServoUpdate cycles) s) := by
  show Ordinary s (execClk10mServoUpdate cycles s)
  unfold execClk10mServoUpdate
  exact ordinary_up _ _

/-- An ordinary command is an effect on a device that runs (`up`). -/
theorem exec_ordinary (c : Instr) (s : State) (ho : ordinary c = true) : ∃ f, exec c s = up s f := by
  cases c with
  | commandFetch => exact ordinary_commandFetch  s
  | sqTailDoorbell port queue origin value => exact ordinary_sqTailDoorbell port queue origin value s
  | queueCfgWrite port queue origin value => exact ordinary_queueCfgWrite port queue origin value s
  | rqHeadWrite port queue origin value => exact ordinary_rqHeadWrite port queue origin value s
  | nop p => exact ordinary_nop p s
  | queryCaps p => exact ordinary_queryCaps p s
  | jobLoad p img => exact ordinary_jobLoad p img s
  | jobStart p => exact ordinary_jobStart p s
  | referenceBeat => exact ordinary_referenceBeat  s
  | jobPause p => exact ordinary_jobPause p s
  | pauseDeadline => exact ordinary_pauseDeadline  s
  | jobResume p => exact ordinary_jobResume p s
  | jobKill p => exact ordinary_jobKill p s
  | jobSave p => exact ordinary_jobSave p s
  | jobRestore p => exact ordinary_jobRestore p s
  | streamArm p => exact ordinary_streamArm p s
  | streamCancel p => exact ordinary_streamCancel p s
  | mapPages p => exact ordinary_mapPages p s
  | unmapPages p => exact ordinary_unmapPages p s
  | seqPageEditReset p => exact ordinary_seqPageEditReset p s
  | seqPageEditConfig p => exact ordinary_seqPageEditConfig p s
  | seqPageEditTrim p => exact ordinary_seqPageEditTrim p s
  | seqPageEditMove p => exact ordinary_seqPageEditMove p s
  | poolAdd p => exact ordinary_poolAdd p s
  | poolRemove p => exact ordinary_poolRemove p s
  | heldEditApply => exact ordinary_heldEditApply  s
  | frameRetire => exact ordinary_frameRetire  s
  | seasonStage p => exact ordinary_seasonStage p s
  | shadowCheck => exact ordinary_shadowCheck  s
  | seasonCommit p => exact ordinary_seasonCommit p s
  | commitWithdrawal => exact ordinary_commitWithdrawal  s
  | candidateBuild => exact ordinary_candidateBuild  s
  | adaptStep p g => exact ordinary_adaptStep p g s
  | groupSumTimeout => exact ordinary_groupSumTimeout  s
  | digestReport p => exact ordinary_digestReport p s
  | digestVerdict ds => exact ordinary_digestVerdict ds s
  | digestVerdictReceive v => exact ordinary_digestVerdictReceive v s
  | windowOpen p => exact ordinary_windowOpen p s
  | windowClose p => exact ordinary_windowClose p s
  | fabricJoin p => exact ordinary_fabricJoin p s
  | fabricLeave p => exact ordinary_fabricLeave p s
  | syncInit p => exact ordinary_syncInit p s
  | syncSignal p => exact ordinary_syncSignal p s
  | syncWait p => exact ordinary_syncWait p s
  | syncWaitTimeout port queue tag => exact ordinary_syncWaitTimeout port queue tag s
  | syncQuery p => exact ordinary_syncQuery p s
  | syncDeadline a obj => exact ordinary_syncDeadline a obj s
  | katRun p => exact ordinary_katRun p s
  | fenceUnit p => exact ordinary_fenceUnit p s
  | unfenceUnit p => exact ordinary_unfenceUnit p s
  | logRead p => exact ordinary_logRead p s
  | safetyConfig p => exact ordinary_safetyConfig p s
  | fallbackForce p => exact ordinary_fallbackForce p s
  | timeSet p => exact ordinary_timeSet p s
  | timeAdjust p => exact ordinary_timeAdjust p s
  | fwLoad p f => exact ordinary_fwLoad p f s
  | firmwareReady ok => exact ordinary_firmwareReady ok s
  | attest p => exact ordinary_attest p s
  | powerStateRun p => exact ordinary_powerStateRun p s
  | powerStateIdle p => exact ordinary_powerStateIdle p s
  | powerStateRetain p => exact ordinary_powerStateRetain p s
  | warmReset p => exact ordinary_warmReset p s
  | slotTailWrite carrier origin value => exact ordinary_slotTailWrite carrier origin value s
  | slotTick carrier => exact ordinary_slotTick carrier s
  | codeBlockRelease carrier tick cb => exact ordinary_codeBlockRelease carrier tick cb s
  | slotReply carrier => exact ordinary_slotReply carrier s
  | supervisorWindowClose carrier tick sup finish => exact ordinary_supervisorWindowClose carrier tick sup finish s
  | fallbackSelfTest passed unit => exact ordinary_fallbackSelfTest passed unit s
  | seqNop n i => exact ordinary_seqNop n i s
  | seqHalt n i => exact ordinary_seqHalt n i s
  | seqLdi n i => exact ordinary_seqLdi n i s
  | seqLui n i => exact ordinary_seqLui n i s
  | seqAddi n i => exact ordinary_seqAddi n i s
  | seqAdd n i => exact ordinary_seqAdd n i s
  | seqSub n i => exact ordinary_seqSub n i s
  | seqJmp n i => exact ordinary_seqJmp n i s
  | seqLoop n i => exact ordinary_seqLoop n i s
  | seqBeqz n i => exact ordinary_seqBeqz n i s
  | seqMode n i => exact ordinary_seqMode n i s
  | seqScales n i => exact ordinary_seqScales n i s
  | seqWload n i => exact ordinary_seqWload n i s
  | seqPass n i => exact ordinary_seqPass n i s
  | seqDqcfg n i => exact ordinary_seqDqcfg n i s
  | seqDqout n i => exact ordinary_seqDqout n i s
  | seqSpill n i => exact ordinary_seqSpill n i s
  | seqFence n i => exact ordinary_seqFence n i s
  | seqSig n i => exact ordinary_seqSig n i s
  | seqWait n i => exact ordinary_seqWait n i s
  | seqPpoint n i => exact ordinary_seqPpoint n i s
  | passDrain n errors stalls => exact ordinary_passDrain n errors stalls s
  | veNop n i => exact ordinary_veNop n i s
  | veHalt n i => exact ordinary_veHalt n i s
  | setvl n i => exact ordinary_setvl n i s
  | li n i => exact ordinary_li n i s
  | veLui n i => exact ordinary_veLui n i s
  | veAddi n i => exact ordinary_veAddi n i s
  | veAdd n i => exact ordinary_veAdd n i s
  | veSub n i => exact ordinary_veSub n i s
  | shli n i => exact ordinary_shli n i s
  | shri n i => exact ordinary_shri n i s
  | veJmp n i => exact ordinary_veJmp n i s
  | veLoop n i => exact ordinary_veLoop n i s
  | veBeqz n i => exact ordinary_veBeqz n i s
  | bnez n i => exact ordinary_bnez n i s
  | vget n i => exact ordinary_vget n i s
  | vput n i => exact ordinary_vput n i s
  | veTransferComplete n => exact ordinary_veTransferComplete n s
  | vwaitx n i => exact ordinary_vwaitx n i s
  | veSig n i => exact ordinary_veSig n i s
  | veWait n i => exact ordinary_veWait n i s
  | vePpoint n i => exact ordinary_vePpoint n i s
  | vadd n i residue => exact ordinary_vadd n i residue s
  | vsub n i residue => exact ordinary_vsub n i residue s
  | vmul n i residue => exact ordinary_vmul n i residue s
  | vfma n i residue => exact ordinary_vfma n i residue s
  | vdiv n i => exact ordinary_vdiv n i s
  | vmin n i => exact ordinary_vmin n i s
  | vmax n i => exact ordinary_vmax n i s
  | vabs n i => exact ordinary_vabs n i s
  | vneg n i => exact ordinary_vneg n i s
  | vshl n i => exact ordinary_vshl n i s
  | vshra n i => exact ordinary_vshra n i s
  | vand n i => exact ordinary_vand n i s
  | vor n i => exact ordinary_vor n i s
  | vxor n i => exact ordinary_vxor n i s
  | vcmp n i => exact ordinary_vcmp n i s
  | vsel n i => exact ordinary_vsel n i s
  | vexp2 n i => exact ordinary_vexp2 n i s
  | vlog2 n i => exact ordinary_vlog2 n i s
  | vrcp n i => exact ordinary_vrcp n i s
  | vrsq n i => exact ordinary_vrsq n i s
  | vmov n i => exact ordinary_vmov n i s
  | vscan n i residue => exact ordinary_vscan n i residue s
  | vred n i residue => exact ordinary_vred n i residue s
  | vtopk n i => exact ordinary_vtopk n i s
  | vsoftmax n i residue => exact ordinary_vsoftmax n i residue s
  | vstats n i residue => exact ordinary_vstats n i residue s
  | vaccx n i residue => exact ordinary_vaccx n i residue s
  | vaccc n i residue => exact ordinary_vaccc n i residue s
  | vdq n i residue => exact ordinary_vdq n i residue s
  | vcvt n i => exact ordinary_vcvt n i s
  | tapm n c pc i => exact ordinary_tapm n c pc i s
  | blkrpt n c pc cr cnt len => exact ordinary_blkrpt n c pc cr cnt len s
  | bexp n c pc vf nm1 acc rsv => exact ordinary_bexp n c pc vf nm1 acc rsv s
  | bnorm n c pc vf nm1 guard ge rsv => exact ordinary_bnorm n c pc vf nm1 guard ge rsv s
  | transform n size src dst inverse exp => exact ordinary_transform n size src dst inverse exp s
  | frontEnd n carrier tick ant sym o => exact ordinary_frontEnd n carrier tick ant sym o s
  | pucchDetect n carrier tick alloc o => exact ordinary_pucchDetect n carrier tick alloc o s
  | fallbackReceive n carrier tick alloc o => exact ordinary_fallbackReceive n carrier tick alloc o s
  | ldpcDecode n carrier tick cb o => exact ordinary_ldpcDecode n carrier tick cb o s
  | polarDecode n carrier tick alloc bits llrs => exact ordinary_polarDecode n carrier tick alloc bits llrs s
  | ldpcEncode n o => exact ordinary_ldpcEncode n o s
  | precoding n g => exact ordinary_precoding n g s
  | attentionStep n => exact ordinary_attentionStep n s
  | streamCopy n => exact ordinary_streamCopy n s
  | streamWait n => exact ordinary_streamWait n s
  | streamSig n => exact ordinary_streamSig n s
  | streamLoop n => exact ordinary_streamLoop n s
  | streamEnd n => exact ordinary_streamEnd n s
  | streamFence n => exact ordinary_streamFence n s
  | sdeRequestComplete n k e => exact ordinary_sdeRequestComplete n k e s
  | streamDeadline n => exact ordinary_streamDeadline n s
  | crTailWrite n origin value => exact ordinary_crTailWrite n origin value s
  | gatherBatch n => exact ordinary_gatherBatch n s
  | crossingRelease consumer entries => exact ordinary_crossingRelease consumer entries s
  | scrub unit bank => exact ordinary_scrub unit bank s
  | ledgerCheck storage => exact ordinary_ledgerCheck storage s
  | sramZeroComplete => exact ordinary_sramZeroComplete  s
  | granuleZero => exact ordinary_granuleZero  s
  | katSlice kind inst r => exact ordinary_katSlice kind inst r s
  | katOverdue pa => exact ordinary_katOverdue pa s
  | overdueOther kind inst => exact ordinary_overdueOther kind inst s
  | ethFrameReceive fhp mac bytes => exact ordinary_ethFrameReceive fhp mac bytes s
  | rxWindowClose carrier tick sym => exact ordinary_rxWindowClose carrier tick sym s
  | frameLaunch mac => exact ordinary_frameLaunch mac s
  | txonEvent n => exact ordinary_txonEvent n s
  | ethLinkChange fhp mac linkUp => exact ordinary_ethLinkChange fhp mac linkUp s
  | iferikWrite h w off tag payload => exact ordinary_iferikWrite h w off tag payload s
  | iferikReadReq h w off tag len => exact ordinary_iferikReadReq h w off tag len s
  | iferikReadRsp h tag st payload => exact ordinary_iferikReadRsp h tag st payload s
  | iferikWriteRsp h tag st => exact ordinary_iferikWriteRsp h tag st s
  | iferikReduce h r => exact ordinary_iferikReduce h r s
  | iferikNop h => exact ordinary_iferikNop h s
  | ctrlOpen h grants => exact ordinary_ctrlOpen h grants s
  | ctrlClose h => exact ordinary_ctrlClose h s
  | ctrlAnnounce h w len read write => exact ordinary_ctrlAnnounce h w len read write s
  | announceAccept h w ok => exact ordinary_announceAccept h w ok s
  | ctrlRevoke h w => exact ordinary_ctrlRevoke h w s
  | ctrlJoin h o => exact ordinary_ctrlJoin h o s
  | ctrlLeave h group => exact ordinary_ctrlLeave h group s
  | rtoExpiry port peer => exact ordinary_rtoExpiry port peer s
  | ackTimer port peer => exact ordinary_ackTimer port peer s
  | ctrlTimeout wait => exact ordinary_ctrlTimeout wait s
  | ilpLinkDown port => exact ordinary_ilpLinkDown port s
  | tsuOffsetWrite origin value => exact ordinary_tsuOffsetWrite origin value s
  | holdoverEntry => exact ordinary_holdoverEntry  s
  | rateSample => exact ordinary_rateSample  s
  | ppsInEdge => exact ordinary_ppsInEdge  s
  | ppsOutEdge => exact ordinary_ppsOutEdge  s
  | todMessageSend => exact ordinary_todMessageSend  s
  | todMessageReceive msg => exact ordinary_todMessageReceive msg s
  | portReset p k l =>
    cases k
    · cases ho
    all_goals exact ⟨_, if_neg (fun x => by simp at x)⟩
  | perstRelease port link => cases ho
  | bar2Access port op => exact ordinary_bar2Access port op s
  | hostCompletion n k poisoned => exact ordinary_hostCompletion n k poisoned s
  | completionTimeout n k => exact ordinary_completionTimeout n k s
  | semClaim origin index tie => exact ordinary_semClaim origin index tie s
  | semRelease origin index value => exact ordinary_semRelease origin index value s
  | interruptDelivery target => exact ordinary_interruptDelivery target s
  | coalesceTimeout target level => exact ordinary_coalesceTimeout target level s
  | eoi target origin value => exact ordinary_eoi target origin value s
  | stackClr target origin value => exact ordinary_stackClr target origin value s
  | swset origin value => exact ordinary_swset origin value s
  | pendingClear word origin value => exact ordinary_pendingClear word origin value s
  | interruptEnable word origin value => exact ordinary_interruptEnable word origin value s
  | routeWrite source origin value => exact ordinary_routeWrite source origin value s
  | stickyClr origin value => exact ordinary_stickyClr origin value s
  | wake origin value us => exact ordinary_wake origin value us s
  | fbOffArm origin value => exact ordinary_fbOffArm origin value s
  | fwLock origin value => exact ordinary_fwLock origin value s
  | rcRead origin offset len => exact ordinary_rcRead origin offset len s
  | latchingRead origin offset len => exact ordinary_latchingRead origin offset len s
  | registerWrite origin offset len value => exact ordinary_registerWrite origin offset len value s
  | brownoutHold sram mv => exact ordinary_brownoutHold sram mv s
  | holdEnd core sram => exact ordinary_holdEnd core sram s
  | holdEscalation => exact ordinary_holdEscalation  s
  | supplyReset sram mv => cases ho
  | overvoltage sram mv => exact ordinary_overvoltage sram mv s
  | avsTargetStep raise => exact ordinary_avsTargetStep raise s
  | thermalAlarm temp => exact ordinary_thermalAlarm temp s
  | tempAlert temp => exact ordinary_tempAlert temp s
  | smbusRead op => cases ho
  | powerOnReset f => cases ho
  | coldReset perst => cases ho
  | extest => cases ho
  | samplePreload sampled preload => cases ho
  | idcode => cases ho
  | clamp => cases ho
  | highz => cases ho
  | extestPulse => cases ho
  | extestTrain => cases ho
  | bypass code => cases ho
  | loadBalancerMove m => exact ordinary_loadBalancerMove m s
  | refclkStop => cases ho
  | supplyRemoval => cases ho
  | coldResetRelease f => cases ho
  | pcieConfigWrite port w => exact ordinary_pcieConfigWrite port w s
  | msixTableWrite port vector dword value => exact ordinary_msixTableWrite port vector dword value s
  | ilpLinkUp port => exact ordinary_ilpLinkUp port s
  | pfcPauseFrame port enable quanta => exact ordinary_pfcPauseFrame port enable quanta s
  | revokeAcknowledge h w => exact ordinary_revokeAcknowledge h w s
  | leaveAcknowledge h group => exact ordinary_leaveAcknowledge h group s
  | groupEpochAnnounce h group news => exact ordinary_groupEpochAnnounce h group news s
  | clk10mServoUpdate cycles => exact ordinary_clk10mServoUpdate cycles s
  | tapReset => cases ho

end Sys2Proof.Machine
end

