-- ==== Sys2Proof/Laws/Tbl.lean ====
section
/-! SUPPORT. The sparse tables: a read after a write, and the canonical form that every operation keeps. -/

namespace Sys2Proof.Machine

variable {α : Type}

/-- The keys of a table. -/
def Tbl.keys (m : List (Nat × α)) : List Nat := m.map Prod.fst

theorem Tbl.get_erase_ne (d : Nat → α) (m : List (Nat × α)) {k j : Nat} (h : j ≠ k) :
    Tbl.get d (Tbl.erase m k) j = Tbl.get d m j := by
  induction m with
  | nil => rfl
  | cons p m ih =>
    obtain ⟨a, v⟩ := p
    by_cases hk : a = k
    · subst hk
      have : Tbl.erase ((a, v) :: m) a = Tbl.erase m a := by simp [Tbl.erase]
      rw [this, ih]; simp [Tbl.get, Ne.symm h]
    · have : Tbl.erase ((a, v) :: m) k = (a, v) :: Tbl.erase m k := by simp [Tbl.erase, hk]
      rw [this]; simp [Tbl.get, ih]

theorem Tbl.get_erase_self (d : Nat → α) (m : List (Nat × α)) (k : Nat) : Tbl.get d (Tbl.erase m k) k = d k := by
  induction m with
  | nil => rfl
  | cons p m ih =>
    obtain ⟨a, v⟩ := p
    by_cases hk : a = k
    · subst hk
      have : Tbl.erase ((a, v) :: m) a = Tbl.erase m a := by simp [Tbl.erase]
      rw [this, ih]
    · have : Tbl.erase ((a, v) :: m) k = (a, v) :: Tbl.erase m k := by simp [Tbl.erase, hk]
      rw [this]; simp [Tbl.get, hk, ih]

theorem Tbl.get_insert_ne (d : Nat → α) (m : List (Nat × α)) {k j : Nat} (v : α) (h : j ≠ k) :
    Tbl.get d (Tbl.insert m k v) j = Tbl.get d m j := by
  induction m with
  | nil => simp [Tbl.insert, Tbl.get, Ne.symm h]
  | cons p m ih =>
    obtain ⟨a, w⟩ := p
    unfold Tbl.insert
    split
    · simp [Tbl.get, Ne.symm h]
    · simp [Tbl.get, ih]

theorem Tbl.get_insert_self (d : Nat → α) (m : List (Nat × α)) {k : Nat} (v : α) (h : ∀ p ∈ m, p.1 ≠ k) :
    Tbl.get d (Tbl.insert m k v) k = v := by
  induction m with
  | nil => simp [Tbl.insert, Tbl.get]
  | cons p m ih =>
    obtain ⟨a, w⟩ := p
    have ha : a ≠ k := h (a, w) (by simp)
    unfold Tbl.insert
    split
    · simp [Tbl.get]
    · simp [Tbl.get, ha, ih (fun q hq => h q (by simp [hq]))]

theorem Tbl.key_ne_of_erase (m : List (Nat × α)) (k : Nat) : ∀ p ∈ Tbl.erase m k, p.1 ≠ k := by
  intro p hp
  simpa using (List.mem_filter.1 hp).2

/-- A read after a write to the same key gives the value written. -/
@[simp] theorem Tbl.get_set_self [DecidableEq α] (d : Nat → α) (m : List (Nat × α)) (k : Nat) (v : α) :
    Tbl.get d (Tbl.set d m k v) k = v := by
  unfold Tbl.set
  split
  · rename_i h; rw [Tbl.get_erase_self, h]
  · exact Tbl.get_insert_self d _ v (Tbl.key_ne_of_erase m k)

/-- A write leaves every other key alone. -/
theorem Tbl.get_set_ne [DecidableEq α] (d : Nat → α) (m : List (Nat × α)) {k j : Nat} (v : α) (h : j ≠ k) :
    Tbl.get d (Tbl.set d m k v) j = Tbl.get d m j := by
  unfold Tbl.set
  split
  · exact Tbl.get_erase_ne d m h
  · rw [Tbl.get_insert_ne d _ v h, Tbl.get_erase_ne d m h]

theorem Tbl.get_set [DecidableEq α] (d : Nat → α) (m : List (Nat × α)) (k j : Nat) (v : α) :
    Tbl.get d (Tbl.set d m k v) j = if j = k then v else Tbl.get d m j := by
  split
  · rename_i h; subst h; simp
  · rename_i h; exact Tbl.get_set_ne d m v h

/-- Clearing a range makes its keys read as unlisted and leaves the others. -/
theorem Tbl.get_clearRange (d : Nat → α) (m : List (Nat × α)) (lo hi j : Nat) :
    Tbl.get d (Tbl.clearRange m lo hi) j = if lo ≤ j ∧ j < hi then d j else Tbl.get d m j := by
  induction m with
  | nil => simp [Tbl.clearRange, Tbl.get]
  | cons p m ih =>
    obtain ⟨a, v⟩ := p
    by_cases h : lo ≤ a ∧ a < hi
    · have : Tbl.clearRange ((a, v) :: m) lo hi = Tbl.clearRange m lo hi := by simp [Tbl.clearRange, h]
      rw [this, ih]
      by_cases haj : a = j
      · subst haj; simp [h]
      · simp [Tbl.get, haj]
    · have : Tbl.clearRange ((a, v) :: m) lo hi = (a, v) :: Tbl.clearRange m lo hi := by
        simp only [Tbl.clearRange, List.filter_cons]
        simp only [Bool.not_eq_true', Bool.and_eq_false_iff, decide_eq_false_iff_not]
        rw [if_pos]; by_cases h1 : lo ≤ a
        · right; exact fun h2 => h ⟨h1, h2⟩
        · left; exact h1
      rw [this]
      by_cases haj : a = j
      · subst haj; simp [Tbl.get, h]
      · simp [Tbl.get, haj, ih]

/-! ### The canonical form -/

theorem Tbl.sorted_cons (a : Nat) (v : α) (m : List (Nat × α)) :
    Tbl.sorted ((a, v) :: m) = true ↔ (∀ p ∈ m, a < p.1) ∧ Tbl.sorted m = true := by
  induction m generalizing a v with
  | nil => simp [Tbl.sorted]
  | cons p m ih =>
    obtain ⟨b, w⟩ := p
    constructor
    · intro h
      have h1 : a < b ∧ Tbl.sorted ((b, w) :: m) = true := by
        simpa [Tbl.sorted] using h
      refine ⟨?_, h1.2⟩
      intro q hq
      rcases List.mem_cons.1 hq with rfl | hq
      · exact h1.1
      · exact Nat.lt_trans h1.1 (((ih b w).1 h1.2).1 q hq)
    · intro h
      have : a < b := h.1 (b, w) (by simp)
      have h2 := h.2
      unfold Tbl.sorted
      simp [this, h2]

theorem Tbl.sorted_filter (m : List (Nat × α)) (f : Nat × α → Bool) (h : Tbl.sorted m = true) :
    Tbl.sorted (m.filter f) = true := by
  induction m with
  | nil => rfl
  | cons p m ih =>
    obtain ⟨a, v⟩ := p
    have h' := (Tbl.sorted_cons a v m).1 h
    rw [List.filter_cons]
    split
    · exact (Tbl.sorted_cons a v _).2 ⟨fun q hq => h'.1 q (List.mem_filter.1 hq).1, ih h'.2⟩
    · exact ih h'.2

theorem Tbl.mem_insert (m : List (Nat × α)) (k : Nat) (v : α) (p : Nat × α) :
    p ∈ Tbl.insert m k v ↔ p = (k, v) ∨ p ∈ m := by
  induction m with
  | nil => simp [Tbl.insert]
  | cons q m ih =>
    obtain ⟨a, w⟩ := q
    unfold Tbl.insert
    split
    · simp
    · simp [ih, or_left_comm]

theorem Tbl.sorted_insert (m : List (Nat × α)) (k : Nat) (v : α) (h : Tbl.sorted m = true) (hk : ∀ p ∈ m, p.1 ≠ k) :
    Tbl.sorted (Tbl.insert m k v) = true := by
  induction m with
  | nil => simp [Tbl.insert, Tbl.sorted]
  | cons p m ih =>
    obtain ⟨a, w⟩ := p
    have h' := (Tbl.sorted_cons a w m).1 h
    have ha : a ≠ k := hk (a, w) (by simp)
    unfold Tbl.insert
    split
    · rename_i hlt
      refine (Tbl.sorted_cons k v _).2 ⟨?_, h⟩
      intro q hq
      rcases List.mem_cons.1 hq with rfl | hq
      · exact hlt
      · exact Nat.lt_trans hlt (h'.1 q hq)
    · rename_i hlt
      refine (Tbl.sorted_cons a w _).2 ⟨?_, ih h'.2 (fun q hq => hk q (by simp [hq]))⟩
      intro q hq
      rcases (Tbl.mem_insert m k v q).1 hq with rfl | hq
      · exact Nat.lt_of_le_of_ne (Nat.le_of_not_lt hlt) ha
      · exact h'.1 q hq

/-- Every write keeps the canonical form. -/
theorem Tbl.wf_set [DecidableEq α] (d : Nat → α) (m : List (Nat × α)) (k : Nat) (v : α) (h : Tbl.wf d m = true) :
    Tbl.wf d (Tbl.set d m k v) = true := by
  simp only [Tbl.wf, Bool.and_eq_true, Tbl.lean, List.all_eq_true, decide_eq_true_eq] at h ⊢
  have hs : Tbl.sorted (Tbl.erase m k) = true := Tbl.sorted_filter m _ h.1
  have hl : ∀ p ∈ Tbl.erase m k, p.2 ≠ d p.1 := fun p hp => h.2 p (List.mem_filter.1 hp).1
  unfold Tbl.set
  split
  · exact ⟨hs, hl⟩
  · rename_i hv
    refine ⟨Tbl.sorted_insert _ k v hs (Tbl.key_ne_of_erase m k), ?_⟩
    intro p hp
    rcases (Tbl.mem_insert _ k v p).1 hp with rfl | hp
    · exact hv
    · exact hl p hp

/-- Taking entries out keeps the canonical form. -/
theorem Tbl.wf_filter [DecidableEq α] (d : Nat → α) (m : List (Nat × α)) (f : Nat × α → Bool) (h : Tbl.wf d m = true) :
    Tbl.wf d (m.filter f) = true := by
  simp only [Tbl.wf, Bool.and_eq_true, Tbl.lean, List.all_eq_true, decide_eq_true_eq] at h ⊢
  exact ⟨Tbl.sorted_filter m f h.1, fun p hp => h.2 p (List.mem_filter.1 hp).1⟩

/-- Clearing a range keeps the canonical form. -/
theorem Tbl.wf_clearRange [DecidableEq α] (d : Nat → α) (m : List (Nat × α)) (lo hi : Nat) (h : Tbl.wf d m = true) :
    Tbl.wf d (Tbl.clearRange m lo hi) = true := Tbl.wf_filter d m _ h

end Sys2Proof.Machine
end

