-- ==== Sys2Proof/Laws/State.lean ====
section
/-! SUPPORT. Reads and writes of the registers, and what they leave alone: one lemma for each field of the state. -/

namespace Sys2Proof.Machine

variable (s : State) (o j : Nat) (v w : Word)

/-! ### A register read after a register write -/

theorem reg_setReg : (s.setReg o v).reg j = if j = o then v else s.reg j := Tbl.get_set regReset s.regs o j v

@[simp] theorem reg_setReg_self : (s.setReg o v).reg o = v := by simp [reg_setReg]

theorem reg_setReg_ne {o j : Nat} (v : Word) (h : j ≠ o) : (s.setReg o v).reg j = s.reg j := by simp [reg_setReg, h]

/-! ### Every register write is a `setReg` -/

theorem setRegN_eq (n : Nat) : s.setRegN o n = s.setReg o (BitVec.ofNat 64 n) := rfl

theorem setFld_eq (f : Fld) (x : Nat) : s.setFld f x = s.setReg f.off (fieldPut (s.reg f.off) f.hi f.lo x) := rfl

theorem setRegBit_eq (i : Nat) (b : Bool) : s.setRegBit o i b = s.setReg o (fieldPut (s.reg o) i i (b2n b)) := rfl

theorem bumpBy_eq (n : Nat) : s.bumpBy o n = s.setRegN o (min (s.regN o + n) 0xFFFFFFFF) := rfl

theorem bump_eq : s.bump o = s.setRegN o (min (s.regN o + 1) 0xFFFFFFFF) := rfl

theorem countMod_eq (x n : Nat) : s.countMod o x n = s.setRegN o ((s.regN o + n) % 2 ^ x) := rfl

theorem countDown_eq (n : Nat) : s.countDown o n = s.setRegN o (s.regN o - n) := rfl

/-- The registers of a state with other registers put in. -/
theorem reg_of_regs {s t : State} (h : t.regs = s.regs) : t.reg o = s.reg o := by simp [State.reg, h]

/-! ### The other fields after a register write -/

@[simp] theorem setReg_pending : (s.setReg o v).pending = s.pending := rfl
@[simp] theorem setReg_phase : (s.setReg o v).phase = s.phase := rfl
@[simp] theorem setReg_mem : (s.setReg o v).mem = s.mem := rfl
@[simp] theorem setReg_oab : (s.setReg o v).oab = s.oab := rfl
@[simp] theorem setReg_oabPoison : (s.setReg o v).oabPoison = s.oabPoison := rfl
@[simp] theorem setReg_host0 : (s.setReg o v).host0 = s.host0 := rfl
@[simp] theorem setReg_host1 : (s.setReg o v).host1 = s.host1 := rfl
@[simp] theorem setReg_poison : (s.setReg o v).poison = s.poison := rfl
@[simp] theorem setReg_zeroing : (s.setReg o v).zeroing = s.zeroing := rfl
@[simp] theorem setReg_latched : (s.setReg o v).latched = s.latched := rfl
@[simp] theorem setReg_mainLog : (s.setReg o v).mainLog = s.mainLog := rfl
@[simp] theorem setReg_stickyLog : (s.setReg o v).stickyLog = s.stickyLog := rfl
@[simp] theorem setReg_cmds : (s.setReg o v).cmds = s.cmds := rfl
@[simp] theorem setReg_held : (s.setReg o v).held = s.held := rfl
@[simp] theorem setReg_fetchPort : (s.setReg o v).fetchPort = s.fetchPort := rfl
@[simp] theorem setReg_fetchQueue : (s.setReg o v).fetchQueue = s.fetchQueue := rfl
@[simp] theorem setReg_waiters : (s.setReg o v).waiters = s.waiters := rfl
@[simp] theorem setReg_devTime : (s.setReg o v).devTime = s.devTime := rfl
@[simp] theorem setReg_freeCtr : (s.setReg o v).freeCtr = s.freeCtr := rfl
@[simp] theorem setReg_resp : (s.setReg o v).resp = s.resp := rfl
@[simp] theorem setReg_coal : (s.setReg o v).coal = s.coal := rfl
@[simp] theorem setReg_msixOn : (s.setReg o v).msixOn = s.msixOn := rfl
@[simp] theorem setReg_pba : (s.setReg o v).pba = s.pba := rfl
@[simp] theorem setReg_holdQueues : (s.setReg o v).holdQueues = s.holdQueues := rfl
@[simp] theorem setReg_cars : (s.setReg o v).cars = s.cars := rfl
@[simp] theorem setReg_unitSlot : (s.setReg o v).unitSlot = s.unitSlot := rfl
@[simp] theorem setReg_slotSigs : (s.setReg o v).slotSigs = s.slotSigs := rfl
@[simp] theorem setReg_slotFresh : (s.setReg o v).slotFresh = s.slotFresh := rfl
@[simp] theorem setReg_safe : (s.setReg o v).safe = s.safe := rfl
@[simp] theorem setReg_safePend : (s.setReg o v).safePend = s.safePend := rfl
@[simp] theorem setReg_safeLate : (s.setReg o v).safeLate = s.safeLate := rfl
@[simp] theorem setReg_jobs : (s.setReg o v).jobs = s.jobs := rfl
@[simp] theorem setReg_lastHandle : (s.setReg o v).lastHandle = s.lastHandle := rfl
@[simp] theorem setReg_lostHandles : (s.setReg o v).lostHandles = s.lostHandles := rfl
@[simp] theorem setReg_aeStage : (s.setReg o v).aeStage = s.aeStage := rfl
@[simp] theorem setReg_aeDesc : (s.setReg o v).aeDesc = s.aeDesc := rfl
@[simp] theorem setReg_editHeld : (s.setReg o v).editHeld = s.editHeld := rfl
@[simp] theorem setReg_eguStage : (s.setReg o v).eguStage = s.eguStage := rfl
@[simp] theorem setReg_streamOk : (s.setReg o v).streamOk = s.streamOk := rfl
@[simp] theorem setReg_arr : (s.setReg o v).arr = s.arr := rfl
@[simp] theorem setReg_veXfers : (s.setReg o v).veXfers = s.veXfers := rfl
@[simp] theorem setReg_streams : (s.setReg o v).streams = s.streams := rfl
@[simp] theorem setReg_decisions : (s.setReg o v).decisions = s.decisions := rfl
@[simp] theorem setReg_pcOut : (s.setReg o v).pcOut = s.pcOut := rfl
@[simp] theorem setReg_tb : (s.setReg o v).tb = s.tb := rfl
@[simp] theorem setReg_imports : (s.setReg o v).imports = s.imports := rfl
@[simp] theorem setReg_resStopped : (s.setReg o v).resStopped = s.resStopped := rfl
@[simp] theorem setReg_checkJobs : (s.setReg o v).checkJobs = s.checkJobs := rfl
@[simp] theorem setReg_kvFree : (s.setReg o v).kvFree = s.kvFree := rfl
@[simp] theorem setReg_kvPages : (s.setReg o v).kvPages = s.kvPages := rfl
@[simp] theorem setReg_kvRetiring : (s.setReg o v).kvRetiring = s.kvRetiring := rfl
@[simp] theorem setReg_kvActive : (s.setReg o v).kvActive = s.kvActive := rfl
@[simp] theorem setReg_aeEpoch : (s.setReg o v).aeEpoch = s.aeEpoch := rfl
@[simp] theorem setReg_banks : (s.setReg o v).banks = s.banks := rfl
@[simp] theorem setReg_originEdge : (s.setReg o v).originEdge = s.originEdge := rfl
@[simp] theorem setReg_keys : (s.setReg o v).keys = s.keys := rfl
@[simp] theorem setReg_seasonAt : (s.setReg o v).seasonAt = s.seasonAt := rfl
@[simp] theorem setReg_comp : (s.setReg o v).comp = s.comp := rfl
@[simp] theorem setReg_calRecs : (s.setReg o v).calRecs = s.calRecs := rfl
@[simp] theorem setReg_calRadio : (s.setReg o v).calRadio = s.calRadio := rfl
@[simp] theorem setReg_calSlots : (s.setReg o v).calSlots = s.calSlots := rfl
@[simp] theorem setReg_candidate : (s.setReg o v).candidate = s.candidate := rfl
@[simp] theorem setReg_rangePass : (s.setReg o v).rangePass = s.rangePass := rfl
@[simp] theorem setReg_shadowRecs : (s.setReg o v).shadowRecs = s.shadowRecs := rfl
@[simp] theorem setReg_oddStage : (s.setReg o v).oddStage = s.oddStage := rfl
@[simp] theorem setReg_shadowLeft : (s.setReg o v).shadowLeft = s.shadowLeft := rfl
@[simp] theorem setReg_verdict : (s.setReg o v).verdict = s.verdict := rfl
@[simp] theorem setReg_digestSeason : (s.setReg o v).digestSeason = s.digestSeason := rfl
@[simp] theorem setReg_standIns : (s.setReg o v).standIns = s.standIns := rfl
@[simp] theorem setReg_fenceYear : (s.setReg o v).fenceYear = s.fenceYear := rfl
@[simp] theorem setReg_veFaulty : (s.setReg o v).veFaulty = s.veFaulty := rfl
@[simp] theorem setReg_tsu : (s.setReg o v).tsu = s.tsu := rfl
@[simp] theorem setReg_launch : (s.setReg o v).launch = s.launch := rfl
@[simp] theorem setReg_launchWait : (s.setReg o v).launchWait = s.launchWait := rfl
@[simp] theorem setReg_txq : (s.setReg o v).txq = s.txq := rfl
@[simp] theorem setReg_txOn : (s.setReg o v).txOn = s.txOn := rfl
@[simp] theorem setReg_paenv : (s.setReg o v).paenv = s.paenv := rfl
@[simp] theorem setReg_wire : (s.setReg o v).wire = s.wire := rfl
@[simp] theorem setReg_burstEnd : (s.setReg o v).burstEnd = s.burstEnd := rfl
@[simp] theorem setReg_rxTicks : (s.setReg o v).rxTicks = s.rxTicks := rfl
@[simp] theorem setReg_rxEarly : (s.setReg o v).rxEarly = s.rxEarly := rfl
@[simp] theorem setReg_ffdSeq : (s.setReg o v).ffdSeq = s.ffdSeq := rfl
@[simp] theorem setReg_ffdHist : (s.setReg o v).ffdHist = s.ffdHist := rfl
@[simp] theorem setReg_ingress : (s.setReg o v).ingress = s.ingress := rfl
@[simp] theorem setReg_dsp : (s.setReg o v).dsp = s.dsp := rfl
@[simp] theorem setReg_fftExp : (s.setReg o v).fftExp = s.fftExp := rfl
@[simp] theorem setReg_fbSoftBase : (s.setReg o v).fbSoftBase = s.fbSoftBase := rfl
@[simp] theorem setReg_fbSoftLen : (s.setReg o v).fbSoftLen = s.fbSoftLen := rfl
@[simp] theorem setReg_fbSoft : (s.setReg o v).fbSoft = s.fbSoft := rfl
@[simp] theorem setReg_dlSlots : (s.setReg o v).dlSlots = s.dlSlots := rfl
@[simp] theorem setReg_coded : (s.setReg o v).coded = s.coded := rfl
@[simp] theorem setReg_birth : (s.setReg o v).birth = s.birth := rfl
@[simp] theorem setReg_identity : (s.setReg o v).identity = s.identity := rfl
@[simp] theorem setReg_cert : (s.setReg o v).cert = s.cert := rfl
@[simp] theorem setReg_keyDigest : (s.setReg o v).keyDigest = s.keyDigest := rfl
@[simp] theorem setReg_thermLow : (s.setReg o v).thermLow = s.thermLow := rfl
@[simp] theorem setReg_alertLow : (s.setReg o v).alertLow = s.alertLow := rfl
@[simp] theorem setReg_smbAddr : (s.setReg o v).smbAddr = s.smbAddr := rfl
@[simp] theorem setReg_hold : (s.setReg o v).hold = s.hold := rfl
@[simp] theorem setReg_resume : (s.setReg o v).resume = s.resume := rfl
@[simp] theorem setReg_avsAt : (s.setReg o v).avsAt = s.avsAt := rfl
@[simp] theorem setReg_avsOld : (s.setReg o v).avsOld = s.avsOld := rfl
@[simp] theorem setReg_yearWait : (s.setReg o v).yearWait = s.yearWait := rfl
@[simp] theorem setReg_wakeLog : (s.setReg o v).wakeLog = s.wakeLog := rfl
@[simp] theorem setReg_paths : (s.setReg o v).paths = s.paths := rfl
@[simp] theorem setReg_pathEpochs : (s.setReg o v).pathEpochs = s.pathEpochs := rfl
@[simp] theorem setReg_tagRuns : (s.setReg o v).tagRuns = s.tagRuns := rfl
@[simp] theorem setReg_ilpSent : (s.setReg o v).ilpSent = s.ilpSent := rfl
@[simp] theorem setReg_ilpPause : (s.setReg o v).ilpPause = s.ilpPause := rfl
@[simp] theorem setReg_windows : (s.setReg o v).windows = s.windows := rfl
@[simp] theorem setReg_groups : (s.setReg o v).groups = s.groups := rfl
@[simp] theorem setReg_redOut : (s.setReg o v).redOut = s.redOut := rfl
@[simp] theorem setReg_reductions : (s.setReg o v).reductions = s.reductions := rfl
@[simp] theorem setReg_redIn : (s.setReg o v).redIn = s.redIn := rfl
@[simp] theorem setReg_nextReq : (s.setReg o v).nextReq = s.nextReq := rfl
@[simp] theorem setReg_agreed : (s.setReg o v).agreed = s.agreed := rfl
@[simp] theorem setReg_perst : (s.setReg o v).perst = s.perst := rfl
@[simp] theorem setReg_d3 : (s.setReg o v).d3 = s.d3 := rfl
@[simp] theorem setReg_barLog : (s.setReg o v).barLog = s.barLog := rfl
@[simp] theorem setReg_cplRange : (s.setReg o v).cplRange = s.cplRange := rfl
@[simp] theorem setReg_devCtl : (s.setReg o v).devCtl = s.devCtl := rfl
@[simp] theorem setReg_aer : (s.setReg o v).aer = s.aer := rfl
@[simp] theorem setReg_fnMasked : (s.setReg o v).fnMasked = s.fnMasked := rfl
@[simp] theorem setReg_msix : (s.setReg o v).msix = s.msix := rfl
@[simp] theorem setReg_msixSent : (s.setReg o v).msixSent = s.msixSent := rfl
@[simp] theorem setReg_tapIr : (s.setReg o v).tapIr = s.tapIr := rfl
@[simp] theorem setReg_boundary : (s.setReg o v).boundary = s.boundary := rfl
@[simp] theorem setReg_tickPend : (s.setReg o v).tickPend = s.tickPend := rfl
@[simp] theorem setReg_winOut : (s.setReg o v).winOut = s.winOut := rfl
@[simp] theorem setReg_upsets : (s.setReg o v).upsets = s.upsets := rfl
@[simp] theorem setReg_scrubPos : (s.setReg o v).scrubPos = s.scrubPos := rfl
@[simp] theorem setReg_ctlMem : (s.setReg o v).ctlMem = s.ctlMem := rfl
@[simp] theorem setReg_ctlPoison : (s.setReg o v).ctlPoison = s.ctlPoison := rfl
@[simp] theorem setReg_crHeld : (s.setReg o v).crHeld = s.crHeld := rfl
@[simp] theorem setReg_katFrom : (s.setReg o v).katFrom = s.katFrom := rfl
@[simp] theorem setReg_otherYear : (s.setReg o v).otherYear = s.otherYear := rfl

/-- A register write changes the registers alone. -/
theorem setReg_frame : s.setReg o v = { s with regs := Tbl.set regReset s.regs o v } := rfl

@[simp] theorem setRegN_pending (n : Nat) : (s.setRegN o n).pending = s.pending := rfl
@[simp] theorem setRegN_phase (n : Nat) : (s.setRegN o n).phase = s.phase := rfl
@[simp] theorem setRegN_mem (n : Nat) : (s.setRegN o n).mem = s.mem := rfl
@[simp] theorem setRegN_oab (n : Nat) : (s.setRegN o n).oab = s.oab := rfl
@[simp] theorem setRegN_host0 (n : Nat) : (s.setRegN o n).host0 = s.host0 := rfl
@[simp] theorem setRegN_host1 (n : Nat) : (s.setRegN o n).host1 = s.host1 := rfl
@[simp] theorem setRegN_cmds (n : Nat) : (s.setRegN o n).cmds = s.cmds := rfl
@[simp] theorem setRegN_jobs (n : Nat) : (s.setRegN o n).jobs = s.jobs := rfl
@[simp] theorem setRegN_held (n : Nat) : (s.setRegN o n).held = s.held := rfl
@[simp] theorem setRegN_coal (n : Nat) : (s.setRegN o n).coal = s.coal := rfl
@[simp] theorem setRegN_mainLog (n : Nat) : (s.setRegN o n).mainLog = s.mainLog := rfl
@[simp] theorem setRegN_stickyLog (n : Nat) : (s.setRegN o n).stickyLog = s.stickyLog := rfl
@[simp] theorem setRegN_freeCtr (n : Nat) : (s.setRegN o n).freeCtr = s.freeCtr := rfl
@[simp] theorem setRegN_resp (n : Nat) : (s.setRegN o n).resp = s.resp := rfl
@[simp] theorem setRegN_devTime (n : Nat) : (s.setRegN o n).devTime = s.devTime := rfl
@[simp] theorem setRegN_tapIr (n : Nat) : (s.setRegN o n).tapIr = s.tapIr := rfl
@[simp] theorem setRegN_boundary (n : Nat) : (s.setRegN o n).boundary = s.boundary := rfl
@[simp] theorem setRegN_latched (n : Nat) : (s.setRegN o n).latched = s.latched := rfl
@[simp] theorem setRegN_streams (n : Nat) : (s.setRegN o n).streams = s.streams := rfl
@[simp] theorem setRegN_cars (n : Nat) : (s.setRegN o n).cars = s.cars := rfl
@[simp] theorem setRegN_windows (n : Nat) : (s.setRegN o n).windows = s.windows := rfl
@[simp] theorem setRegN_paths (n : Nat) : (s.setRegN o n).paths = s.paths := rfl

@[simp] theorem bump_pending  : (s.bump o).pending = s.pending := rfl
@[simp] theorem bump_phase  : (s.bump o).phase = s.phase := rfl
@[simp] theorem bump_mem  : (s.bump o).mem = s.mem := rfl
@[simp] theorem bump_oab  : (s.bump o).oab = s.oab := rfl
@[simp] theorem bump_host0  : (s.bump o).host0 = s.host0 := rfl
@[simp] theorem bump_host1  : (s.bump o).host1 = s.host1 := rfl
@[simp] theorem bump_cmds  : (s.bump o).cmds = s.cmds := rfl
@[simp] theorem bump_jobs  : (s.bump o).jobs = s.jobs := rfl
@[simp] theorem bump_held  : (s.bump o).held = s.held := rfl
@[simp] theorem bump_coal  : (s.bump o).coal = s.coal := rfl
@[simp] theorem bump_mainLog  : (s.bump o).mainLog = s.mainLog := rfl
@[simp] theorem bump_stickyLog  : (s.bump o).stickyLog = s.stickyLog := rfl
@[simp] theorem bump_freeCtr  : (s.bump o).freeCtr = s.freeCtr := rfl
@[simp] theorem bump_resp  : (s.bump o).resp = s.resp := rfl
@[simp] theorem bump_devTime  : (s.bump o).devTime = s.devTime := rfl
@[simp] theorem bump_tapIr  : (s.bump o).tapIr = s.tapIr := rfl
@[simp] theorem bump_boundary  : (s.bump o).boundary = s.boundary := rfl
@[simp] theorem bump_latched  : (s.bump o).latched = s.latched := rfl
@[simp] theorem bump_streams  : (s.bump o).streams = s.streams := rfl
@[simp] theorem bump_cars  : (s.bump o).cars = s.cars := rfl
@[simp] theorem bump_windows  : (s.bump o).windows = s.windows := rfl
@[simp] theorem bump_paths  : (s.bump o).paths = s.paths := rfl

@[simp] theorem bumpBy_pending (n : Nat) : (s.bumpBy o n).pending = s.pending := rfl
@[simp] theorem bumpBy_phase (n : Nat) : (s.bumpBy o n).phase = s.phase := rfl
@[simp] theorem bumpBy_mem (n : Nat) : (s.bumpBy o n).mem = s.mem := rfl
@[simp] theorem bumpBy_oab (n : Nat) : (s.bumpBy o n).oab = s.oab := rfl
@[simp] theorem bumpBy_host0 (n : Nat) : (s.bumpBy o n).host0 = s.host0 := rfl
@[simp] theorem bumpBy_host1 (n : Nat) : (s.bumpBy o n).host1 = s.host1 := rfl
@[simp] theorem bumpBy_cmds (n : Nat) : (s.bumpBy o n).cmds = s.cmds := rfl
@[simp] theorem bumpBy_jobs (n : Nat) : (s.bumpBy o n).jobs = s.jobs := rfl
@[simp] theorem bumpBy_held (n : Nat) : (s.bumpBy o n).held = s.held := rfl
@[simp] theorem bumpBy_coal (n : Nat) : (s.bumpBy o n).coal = s.coal := rfl
@[simp] theorem bumpBy_mainLog (n : Nat) : (s.bumpBy o n).mainLog = s.mainLog := rfl
@[simp] theorem bumpBy_stickyLog (n : Nat) : (s.bumpBy o n).stickyLog = s.stickyLog := rfl
@[simp] theorem bumpBy_freeCtr (n : Nat) : (s.bumpBy o n).freeCtr = s.freeCtr := rfl
@[simp] theorem bumpBy_resp (n : Nat) : (s.bumpBy o n).resp = s.resp := rfl
@[simp] theorem bumpBy_devTime (n : Nat) : (s.bumpBy o n).devTime = s.devTime := rfl
@[simp] theorem bumpBy_tapIr (n : Nat) : (s.bumpBy o n).tapIr = s.tapIr := rfl
@[simp] theorem bumpBy_boundary (n : Nat) : (s.bumpBy o n).boundary = s.boundary := rfl
@[simp] theorem bumpBy_latched (n : Nat) : (s.bumpBy o n).latched = s.latched := rfl
@[simp] theorem bumpBy_streams (n : Nat) : (s.bumpBy o n).streams = s.streams := rfl
@[simp] theorem bumpBy_cars (n : Nat) : (s.bumpBy o n).cars = s.cars := rfl
@[simp] theorem bumpBy_windows (n : Nat) : (s.bumpBy o n).windows = s.windows := rfl
@[simp] theorem bumpBy_paths (n : Nat) : (s.bumpBy o n).paths = s.paths := rfl

@[simp] theorem setRegBit_pending (i : Nat) (b : Bool) : (s.setRegBit o i b).pending = s.pending := rfl
@[simp] theorem setRegBit_phase (i : Nat) (b : Bool) : (s.setRegBit o i b).phase = s.phase := rfl
@[simp] theorem setRegBit_mem (i : Nat) (b : Bool) : (s.setRegBit o i b).mem = s.mem := rfl
@[simp] theorem setRegBit_oab (i : Nat) (b : Bool) : (s.setRegBit o i b).oab = s.oab := rfl
@[simp] theorem setRegBit_host0 (i : Nat) (b : Bool) : (s.setRegBit o i b).host0 = s.host0 := rfl
@[simp] theorem setRegBit_host1 (i : Nat) (b : Bool) : (s.setRegBit o i b).host1 = s.host1 := rfl
@[simp] theorem setRegBit_cmds (i : Nat) (b : Bool) : (s.setRegBit o i b).cmds = s.cmds := rfl
@[simp] theorem setRegBit_jobs (i : Nat) (b : Bool) : (s.setRegBit o i b).jobs = s.jobs := rfl
@[simp] theorem setRegBit_held (i : Nat) (b : Bool) : (s.setRegBit o i b).held = s.held := rfl
@[simp] theorem setRegBit_coal (i : Nat) (b : Bool) : (s.setRegBit o i b).coal = s.coal := rfl
@[simp] theorem setRegBit_mainLog (i : Nat) (b : Bool) : (s.setRegBit o i b).mainLog = s.mainLog := rfl
@[simp] theorem setRegBit_stickyLog (i : Nat) (b : Bool) : (s.setRegBit o i b).stickyLog = s.stickyLog := rfl
@[simp] theorem setRegBit_freeCtr (i : Nat) (b : Bool) : (s.setRegBit o i b).freeCtr = s.freeCtr := rfl
@[simp] theorem setRegBit_resp (i : Nat) (b : Bool) : (s.setRegBit o i b).resp = s.resp := rfl
@[simp] theorem setRegBit_devTime (i : Nat) (b : Bool) : (s.setRegBit o i b).devTime = s.devTime := rfl
@[simp] theorem setRegBit_tapIr (i : Nat) (b : Bool) : (s.setRegBit o i b).tapIr = s.tapIr := rfl
@[simp] theorem setRegBit_boundary (i : Nat) (b : Bool) : (s.setRegBit o i b).boundary = s.boundary := rfl
@[simp] theorem setRegBit_latched (i : Nat) (b : Bool) : (s.setRegBit o i b).latched = s.latched := rfl
@[simp] theorem setRegBit_streams (i : Nat) (b : Bool) : (s.setRegBit o i b).streams = s.streams := rfl
@[simp] theorem setRegBit_cars (i : Nat) (b : Bool) : (s.setRegBit o i b).cars = s.cars := rfl
@[simp] theorem setRegBit_windows (i : Nat) (b : Bool) : (s.setRegBit o i b).windows = s.windows := rfl
@[simp] theorem setRegBit_paths (i : Nat) (b : Bool) : (s.setRegBit o i b).paths = s.paths := rfl

@[simp] theorem countDown_pending (n : Nat) : (s.countDown o n).pending = s.pending := rfl
@[simp] theorem countDown_phase (n : Nat) : (s.countDown o n).phase = s.phase := rfl
@[simp] theorem countDown_mem (n : Nat) : (s.countDown o n).mem = s.mem := rfl
@[simp] theorem countDown_oab (n : Nat) : (s.countDown o n).oab = s.oab := rfl
@[simp] theorem countDown_host0 (n : Nat) : (s.countDown o n).host0 = s.host0 := rfl
@[simp] theorem countDown_host1 (n : Nat) : (s.countDown o n).host1 = s.host1 := rfl
@[simp] theorem countDown_cmds (n : Nat) : (s.countDown o n).cmds = s.cmds := rfl
@[simp] theorem countDown_jobs (n : Nat) : (s.countDown o n).jobs = s.jobs := rfl
@[simp] theorem countDown_held (n : Nat) : (s.countDown o n).held = s.held := rfl
@[simp] theorem countDown_coal (n : Nat) : (s.countDown o n).coal = s.coal := rfl
@[simp] theorem countDown_mainLog (n : Nat) : (s.countDown o n).mainLog = s.mainLog := rfl
@[simp] theorem countDown_stickyLog (n : Nat) : (s.countDown o n).stickyLog = s.stickyLog := rfl
@[simp] theorem countDown_freeCtr (n : Nat) : (s.countDown o n).freeCtr = s.freeCtr := rfl
@[simp] theorem countDown_resp (n : Nat) : (s.countDown o n).resp = s.resp := rfl
@[simp] theorem countDown_devTime (n : Nat) : (s.countDown o n).devTime = s.devTime := rfl
@[simp] theorem countDown_tapIr (n : Nat) : (s.countDown o n).tapIr = s.tapIr := rfl
@[simp] theorem countDown_boundary (n : Nat) : (s.countDown o n).boundary = s.boundary := rfl
@[simp] theorem countDown_latched (n : Nat) : (s.countDown o n).latched = s.latched := rfl
@[simp] theorem countDown_streams (n : Nat) : (s.countDown o n).streams = s.streams := rfl
@[simp] theorem countDown_cars (n : Nat) : (s.countDown o n).cars = s.cars := rfl
@[simp] theorem countDown_windows (n : Nat) : (s.countDown o n).windows = s.windows := rfl
@[simp] theorem countDown_paths (n : Nat) : (s.countDown o n).paths = s.paths := rfl

@[simp] theorem countMod_pending (x n : Nat) : (s.countMod o x n).pending = s.pending := rfl
@[simp] theorem countMod_phase (x n : Nat) : (s.countMod o x n).phase = s.phase := rfl
@[simp] theorem countMod_mem (x n : Nat) : (s.countMod o x n).mem = s.mem := rfl
@[simp] theorem countMod_oab (x n : Nat) : (s.countMod o x n).oab = s.oab := rfl
@[simp] theorem countMod_host0 (x n : Nat) : (s.countMod o x n).host0 = s.host0 := rfl
@[simp] theorem countMod_host1 (x n : Nat) : (s.countMod o x n).host1 = s.host1 := rfl
@[simp] theorem countMod_cmds (x n : Nat) : (s.countMod o x n).cmds = s.cmds := rfl
@[simp] theorem countMod_jobs (x n : Nat) : (s.countMod o x n).jobs = s.jobs := rfl
@[simp] theorem countMod_held (x n : Nat) : (s.countMod o x n).held = s.held := rfl
@[simp] theorem countMod_coal (x n : Nat) : (s.countMod o x n).coal = s.coal := rfl
@[simp] theorem countMod_mainLog (x n : Nat) : (s.countMod o x n).mainLog = s.mainLog := rfl
@[simp] theorem countMod_stickyLog (x n : Nat) : (s.countMod o x n).stickyLog = s.stickyLog := rfl
@[simp] theorem countMod_freeCtr (x n : Nat) : (s.countMod o x n).freeCtr = s.freeCtr := rfl
@[simp] theorem countMod_resp (x n : Nat) : (s.countMod o x n).resp = s.resp := rfl
@[simp] theorem countMod_devTime (x n : Nat) : (s.countMod o x n).devTime = s.devTime := rfl
@[simp] theorem countMod_tapIr (x n : Nat) : (s.countMod o x n).tapIr = s.tapIr := rfl
@[simp] theorem countMod_boundary (x n : Nat) : (s.countMod o x n).boundary = s.boundary := rfl
@[simp] theorem countMod_latched (x n : Nat) : (s.countMod o x n).latched = s.latched := rfl
@[simp] theorem countMod_streams (x n : Nat) : (s.countMod o x n).streams = s.streams := rfl
@[simp] theorem countMod_cars (x n : Nat) : (s.countMod o x n).cars = s.cars := rfl
@[simp] theorem countMod_windows (x n : Nat) : (s.countMod o x n).windows = s.windows := rfl
@[simp] theorem countMod_paths (x n : Nat) : (s.countMod o x n).paths = s.paths := rfl

@[simp] theorem setFld_pending (f : Fld) (x : Nat) : (s.setFld f x).pending = s.pending := rfl
@[simp] theorem setFld_phase (f : Fld) (x : Nat) : (s.setFld f x).phase = s.phase := rfl
@[simp] theorem setFld_mem (f : Fld) (x : Nat) : (s.setFld f x).mem = s.mem := rfl
@[simp] theorem setFld_oab (f : Fld) (x : Nat) : (s.setFld f x).oab = s.oab := rfl
@[simp] theorem setFld_host0 (f : Fld) (x : Nat) : (s.setFld f x).host0 = s.host0 := rfl
@[simp] theorem setFld_host1 (f : Fld) (x : Nat) : (s.setFld f x).host1 = s.host1 := rfl
@[simp] theorem setFld_cmds (f : Fld) (x : Nat) : (s.setFld f x).cmds = s.cmds := rfl
@[simp] theorem setFld_jobs (f : Fld) (x : Nat) : (s.setFld f x).jobs = s.jobs := rfl
@[simp] theorem setFld_held (f : Fld) (x : Nat) : (s.setFld f x).held = s.held := rfl
@[simp] theorem setFld_coal (f : Fld) (x : Nat) : (s.setFld f x).coal = s.coal := rfl
@[simp] theorem setFld_mainLog (f : Fld) (x : Nat) : (s.setFld f x).mainLog = s.mainLog := rfl
@[simp] theorem setFld_stickyLog (f : Fld) (x : Nat) : (s.setFld f x).stickyLog = s.stickyLog := rfl
@[simp] theorem setFld_freeCtr (f : Fld) (x : Nat) : (s.setFld f x).freeCtr = s.freeCtr := rfl
@[simp] theorem setFld_resp (f : Fld) (x : Nat) : (s.setFld f x).resp = s.resp := rfl
@[simp] theorem setFld_devTime (f : Fld) (x : Nat) : (s.setFld f x).devTime = s.devTime := rfl
@[simp] theorem setFld_tapIr (f : Fld) (x : Nat) : (s.setFld f x).tapIr = s.tapIr := rfl
@[simp] theorem setFld_boundary (f : Fld) (x : Nat) : (s.setFld f x).boundary = s.boundary := rfl
@[simp] theorem setFld_latched (f : Fld) (x : Nat) : (s.setFld f x).latched = s.latched := rfl
@[simp] theorem setFld_streams (f : Fld) (x : Nat) : (s.setFld f x).streams = s.streams := rfl
@[simp] theorem setFld_cars (f : Fld) (x : Nat) : (s.setFld f x).cars = s.cars := rfl
@[simp] theorem setFld_windows (f : Fld) (x : Nat) : (s.setFld f x).windows = s.windows := rfl
@[simp] theorem setFld_paths (f : Fld) (x : Nat) : (s.setFld f x).paths = s.paths := rfl

/-! ### Interrupt latching touches registers and coalescers only -/

theorem latchLevel_frame (t x : Nat) : ∃ c, latchLevel s t x = { s with coal := c } := ⟨_, rfl⟩

theorem raisePriv_frame (t x : Nat) : ∃ r c, raisePriv s t x = { s with regs := r, coal := c } := by
  unfold raisePriv
  split
  · exact ⟨_, s.coal, rfl⟩
  · dsimp only
    split
    · exact ⟨_, _, rfl⟩
    · exact ⟨_, s.coal, rfl⟩

theorem raiseShared_frame (x : Nat) : ∃ r c, raiseShared s x = { s with regs := r, coal := c } := by
  unfold raiseShared
  dsimp only
  split
  · exact ⟨_, s.coal, rfl⟩
  · split
    · exact ⟨_, _, rfl⟩
    · exact ⟨_, s.coal, rfl⟩

/-! ### An ordinary command on a device that runs -/

/-- The outcome of an ordinary command: its effect where the device runs, nothing in reset or without supplies, a fault without a clock. -/
theorem up_cases (f : State → State) :
    (s.phase = .running ∧ up s f = .next (s.after (f s))) ∨ ((s.phase = .held ∨ s.phase = .off) ∧ up s f = .next s) ∨
      (s.phase = .clockLost ∧ up s f = .fault .clockLost) := by
  cases h : s.phase <;> simp [up, h]

/-- On a device that runs an ordinary command has its effect. -/
theorem up_running {s : State} (f : State → State) (h : s.phase = .running) : up s f = .next (s.after (f s)) := by simp [up, h]

@[simp] theorem after_pending (t : State) : (s.after t).pending = s.pending := rfl
@[simp] theorem after_phase (t : State) : (s.after t).phase = s.phase := rfl
@[simp] theorem after_regs (t : State) : (s.after t).regs = t.regs := rfl
@[simp] theorem after_mem (t : State) : (s.after t).mem = t.mem := rfl
@[simp] theorem after_oab (t : State) : (s.after t).oab = t.oab := rfl
@[simp] theorem after_oabPoison (t : State) : (s.after t).oabPoison = t.oabPoison := rfl
@[simp] theorem after_host0 (t : State) : (s.after t).host0 = t.host0 := rfl
@[simp] theorem after_host1 (t : State) : (s.after t).host1 = t.host1 := rfl
@[simp] theorem after_poison (t : State) : (s.after t).poison = t.poison := rfl
@[simp] theorem after_zeroing (t : State) : (s.after t).zeroing = t.zeroing := rfl
@[simp] theorem after_latched (t : State) : (s.after t).latched = t.latched := rfl
@[simp] theorem after_mainLog (t : State) : (s.after t).mainLog = t.mainLog := rfl
@[simp] theorem after_stickyLog (t : State) : (s.after t).stickyLog = t.stickyLog := rfl
@[simp] theorem after_cmds (t : State) : (s.after t).cmds = t.cmds := rfl
@[simp] theorem after_held (t : State) : (s.after t).held = t.held := rfl
@[simp] theorem after_fetchPort (t : State) : (s.after t).fetchPort = t.fetchPort := rfl
@[simp] theorem after_fetchQueue (t : State) : (s.after t).fetchQueue = t.fetchQueue := rfl
@[simp] theorem after_waiters (t : State) : (s.after t).waiters = t.waiters := rfl
@[simp] theorem after_devTime (t : State) : (s.after t).devTime = t.devTime := rfl
@[simp] theorem after_freeCtr (t : State) : (s.after t).freeCtr = t.freeCtr := rfl
@[simp] theorem after_resp (t : State) : (s.after t).resp = t.resp := rfl
@[simp] theorem after_coal (t : State) : (s.after t).coal = t.coal := rfl
@[simp] theorem after_msixOn (t : State) : (s.after t).msixOn = t.msixOn := rfl
@[simp] theorem after_pba (t : State) : (s.after t).pba = t.pba := rfl
@[simp] theorem after_holdQueues (t : State) : (s.after t).holdQueues = t.holdQueues := rfl
@[simp] theorem after_cars (t : State) : (s.after t).cars = t.cars := rfl
@[simp] theorem after_unitSlot (t : State) : (s.after t).unitSlot = t.unitSlot := rfl
@[simp] theorem after_slotSigs (t : State) : (s.after t).slotSigs = t.slotSigs := rfl
@[simp] theorem after_slotFresh (t : State) : (s.after t).slotFresh = t.slotFresh := rfl
@[simp] theorem after_safe (t : State) : (s.after t).safe = t.safe := rfl
@[simp] theorem after_safePend (t : State) : (s.after t).safePend = t.safePend := rfl
@[simp] theorem after_safeLate (t : State) : (s.after t).safeLate = t.safeLate := rfl
@[simp] theorem after_jobs (t : State) : (s.after t).jobs = t.jobs := rfl
@[simp] theorem after_lastHandle (t : State) : (s.after t).lastHandle = t.lastHandle := rfl
@[simp] theorem after_lostHandles (t : State) : (s.after t).lostHandles = t.lostHandles := rfl
@[simp] theorem after_aeStage (t : State) : (s.after t).aeStage = t.aeStage := rfl
@[simp] theorem after_aeDesc (t : State) : (s.after t).aeDesc = t.aeDesc := rfl
@[simp] theorem after_editHeld (t : State) : (s.after t).editHeld = t.editHeld := rfl
@[simp] theorem after_eguStage (t : State) : (s.after t).eguStage = t.eguStage := rfl
@[simp] theorem after_streamOk (t : State) : (s.after t).streamOk = t.streamOk := rfl
@[simp] theorem after_arr (t : State) : (s.after t).arr = t.arr := rfl
@[simp] theorem after_veXfers (t : State) : (s.after t).veXfers = t.veXfers := rfl
@[simp] theorem after_streams (t : State) : (s.after t).streams = t.streams := rfl
@[simp] theorem after_decisions (t : State) : (s.after t).decisions = t.decisions := rfl
@[simp] theorem after_pcOut (t : State) : (s.after t).pcOut = t.pcOut := rfl
@[simp] theorem after_tb (t : State) : (s.after t).tb = t.tb := rfl
@[simp] theorem after_imports (t : State) : (s.after t).imports = t.imports := rfl
@[simp] theorem after_resStopped (t : State) : (s.after t).resStopped = t.resStopped := rfl
@[simp] theorem after_checkJobs (t : State) : (s.after t).checkJobs = t.checkJobs := rfl
@[simp] theorem after_kvFree (t : State) : (s.after t).kvFree = t.kvFree := rfl
@[simp] theorem after_kvPages (t : State) : (s.after t).kvPages = t.kvPages := rfl
@[simp] theorem after_kvRetiring (t : State) : (s.after t).kvRetiring = t.kvRetiring := rfl
@[simp] theorem after_kvActive (t : State) : (s.after t).kvActive = t.kvActive := rfl
@[simp] theorem after_aeEpoch (t : State) : (s.after t).aeEpoch = t.aeEpoch := rfl
@[simp] theorem after_banks (t : State) : (s.after t).banks = t.banks := rfl
@[simp] theorem after_originEdge (t : State) : (s.after t).originEdge = t.originEdge := rfl
@[simp] theorem after_keys (t : State) : (s.after t).keys = t.keys := rfl
@[simp] theorem after_seasonAt (t : State) : (s.after t).seasonAt = t.seasonAt := rfl
@[simp] theorem after_comp (t : State) : (s.after t).comp = t.comp := rfl
@[simp] theorem after_calRecs (t : State) : (s.after t).calRecs = t.calRecs := rfl
@[simp] theorem after_calRadio (t : State) : (s.after t).calRadio = t.calRadio := rfl
@[simp] theorem after_calSlots (t : State) : (s.after t).calSlots = t.calSlots := rfl
@[simp] theorem after_candidate (t : State) : (s.after t).candidate = t.candidate := rfl
@[simp] theorem after_rangePass (t : State) : (s.after t).rangePass = t.rangePass := rfl
@[simp] theorem after_shadowRecs (t : State) : (s.after t).shadowRecs = t.shadowRecs := rfl
@[simp] theorem after_oddStage (t : State) : (s.after t).oddStage = t.oddStage := rfl
@[simp] theorem after_shadowLeft (t : State) : (s.after t).shadowLeft = t.shadowLeft := rfl
@[simp] theorem after_verdict (t : State) : (s.after t).verdict = t.verdict := rfl
@[simp] theorem after_digestSeason (t : State) : (s.after t).digestSeason = t.digestSeason := rfl
@[simp] theorem after_standIns (t : State) : (s.after t).standIns = t.standIns := rfl
@[simp] theorem after_fenceYear (t : State) : (s.after t).fenceYear = t.fenceYear := rfl
@[simp] theorem after_veFaulty (t : State) : (s.after t).veFaulty = t.veFaulty := rfl
@[simp] theorem after_tsu (t : State) : (s.after t).tsu = t.tsu := rfl
@[simp] theorem after_launch (t : State) : (s.after t).launch = t.launch := rfl
@[simp] theorem after_launchWait (t : State) : (s.after t).launchWait = t.launchWait := rfl
@[simp] theorem after_txq (t : State) : (s.after t).txq = t.txq := rfl
@[simp] theorem after_txOn (t : State) : (s.after t).txOn = t.txOn := rfl
@[simp] theorem after_paenv (t : State) : (s.after t).paenv = t.paenv := rfl
@[simp] theorem after_wire (t : State) : (s.after t).wire = t.wire := rfl
@[simp] theorem after_burstEnd (t : State) : (s.after t).burstEnd = t.burstEnd := rfl
@[simp] theorem after_rxTicks (t : State) : (s.after t).rxTicks = t.rxTicks := rfl
@[simp] theorem after_rxEarly (t : State) : (s.after t).rxEarly = t.rxEarly := rfl
@[simp] theorem after_ffdSeq (t : State) : (s.after t).ffdSeq = t.ffdSeq := rfl
@[simp] theorem after_ffdHist (t : State) : (s.after t).ffdHist = t.ffdHist := rfl
@[simp] theorem after_ingress (t : State) : (s.after t).ingress = t.ingress := rfl
@[simp] theorem after_dsp (t : State) : (s.after t).dsp = t.dsp := rfl
@[simp] theorem after_fftExp (t : State) : (s.after t).fftExp = t.fftExp := rfl
@[simp] theorem after_fbSoftBase (t : State) : (s.after t).fbSoftBase = t.fbSoftBase := rfl
@[simp] theorem after_fbSoftLen (t : State) : (s.after t).fbSoftLen = t.fbSoftLen := rfl
@[simp] theorem after_fbSoft (t : State) : (s.after t).fbSoft = t.fbSoft := rfl
@[simp] theorem after_dlSlots (t : State) : (s.after t).dlSlots = t.dlSlots := rfl
@[simp] theorem after_coded (t : State) : (s.after t).coded = t.coded := rfl
@[simp] theorem after_birth (t : State) : (s.after t).birth = t.birth := rfl
@[simp] theorem after_identity (t : State) : (s.after t).identity = t.identity := rfl
@[simp] theorem after_cert (t : State) : (s.after t).cert = t.cert := rfl
@[simp] theorem after_keyDigest (t : State) : (s.after t).keyDigest = t.keyDigest := rfl
@[simp] theorem after_thermLow (t : State) : (s.after t).thermLow = t.thermLow := rfl
@[simp] theorem after_alertLow (t : State) : (s.after t).alertLow = t.alertLow := rfl
@[simp] theorem after_smbAddr (t : State) : (s.after t).smbAddr = t.smbAddr := rfl
@[simp] theorem after_hold (t : State) : (s.after t).hold = t.hold := rfl
@[simp] theorem after_resume (t : State) : (s.after t).resume = t.resume := rfl
@[simp] theorem after_avsAt (t : State) : (s.after t).avsAt = t.avsAt := rfl
@[simp] theorem after_avsOld (t : State) : (s.after t).avsOld = t.avsOld := rfl
@[simp] theorem after_yearWait (t : State) : (s.after t).yearWait = t.yearWait := rfl
@[simp] theorem after_wakeLog (t : State) : (s.after t).wakeLog = t.wakeLog := rfl
@[simp] theorem after_paths (t : State) : (s.after t).paths = t.paths := rfl
@[simp] theorem after_pathEpochs (t : State) : (s.after t).pathEpochs = t.pathEpochs := rfl
@[simp] theorem after_tagRuns (t : State) : (s.after t).tagRuns = t.tagRuns := rfl
@[simp] theorem after_ilpSent (t : State) : (s.after t).ilpSent = t.ilpSent := rfl
@[simp] theorem after_ilpPause (t : State) : (s.after t).ilpPause = t.ilpPause := rfl
@[simp] theorem after_windows (t : State) : (s.after t).windows = t.windows := rfl
@[simp] theorem after_groups (t : State) : (s.after t).groups = t.groups := rfl
@[simp] theorem after_redOut (t : State) : (s.after t).redOut = t.redOut := rfl
@[simp] theorem after_reductions (t : State) : (s.after t).reductions = t.reductions := rfl
@[simp] theorem after_redIn (t : State) : (s.after t).redIn = t.redIn := rfl
@[simp] theorem after_nextReq (t : State) : (s.after t).nextReq = t.nextReq := rfl
@[simp] theorem after_agreed (t : State) : (s.after t).agreed = t.agreed := rfl
@[simp] theorem after_perst (t : State) : (s.after t).perst = t.perst := rfl
@[simp] theorem after_d3 (t : State) : (s.after t).d3 = t.d3 := rfl
@[simp] theorem after_barLog (t : State) : (s.after t).barLog = t.barLog := rfl
@[simp] theorem after_cplRange (t : State) : (s.after t).cplRange = t.cplRange := rfl
@[simp] theorem after_devCtl (t : State) : (s.after t).devCtl = t.devCtl := rfl
@[simp] theorem after_aer (t : State) : (s.after t).aer = t.aer := rfl
@[simp] theorem after_fnMasked (t : State) : (s.after t).fnMasked = t.fnMasked := rfl
@[simp] theorem after_msix (t : State) : (s.after t).msix = t.msix := rfl
@[simp] theorem after_msixSent (t : State) : (s.after t).msixSent = t.msixSent := rfl
@[simp] theorem after_tapIr (t : State) : (s.after t).tapIr = s.tapIr := rfl
@[simp] theorem after_boundary (t : State) : (s.after t).boundary = s.boundary := rfl
@[simp] theorem after_tickPend (t : State) : (s.after t).tickPend = t.tickPend := rfl
@[simp] theorem after_winOut (t : State) : (s.after t).winOut = t.winOut := rfl
@[simp] theorem after_upsets (t : State) : (s.after t).upsets = t.upsets := rfl
@[simp] theorem after_scrubPos (t : State) : (s.after t).scrubPos = t.scrubPos := rfl
@[simp] theorem after_ctlMem (t : State) : (s.after t).ctlMem = t.ctlMem := rfl
@[simp] theorem after_ctlPoison (t : State) : (s.after t).ctlPoison = t.ctlPoison := rfl
@[simp] theorem after_crHeld (t : State) : (s.after t).crHeld = t.crHeld := rfl
@[simp] theorem after_katFrom (t : State) : (s.after t).katFrom = t.katFrom := rfl
@[simp] theorem after_otherYear (t : State) : (s.after t).otherYear = t.otherYear := rfl

@[simp] theorem after_reg (t : State) : (s.after t).reg o = t.reg o := rfl

/-- An effect that leaves the queue, the phase and the TAP alone is the effect itself. -/
theorem after_eq {s t : State} (hp : t.pending = s.pending) (hf : t.phase = s.phase) (hi : t.tapIr = s.tapIr)
    (hb : t.boundary = s.boundary) : s.after t = t := by
  cases s; cases t; simp_all [State.after]

end Sys2Proof.Machine
end

