-- ==== Sys2Proof/Laws/Ops.lean ====
section
/-! SUPPORT. What the shared operations can do: each lemma names all that its operation changes. -/

namespace Sys2Proof.Machine

/-- A LOG record changes registers, the two logs and, through source 284, coalescers. -/
theorem log_frame (s : State) (k o b a d : Nat) (w : Bool) :
    ∃ r m l c, s.log k o b a d w = { s with regs := r, mainLog := m, stickyLog := l, coal := c } := by
  have hm : ∀ (t : State) (r : LogRec), ∃ g m, mainLogAdd t r = { t with regs := g, mainLog := m } := by
    intro t r
    unfold mainLogAdd
    dsimp only
    split <;> exact ⟨_, _, rfl⟩
  have hk : ∀ (t : State) (r : LogRec), ∃ g l c, stickyLogAdd t r = { t with regs := g, stickyLog := l, coal := c } := by
    intro t r
    unfold stickyLogAdd
    split
    · exact ⟨_, t.stickyLog, t.coal, rfl⟩
    · dsimp only
      obtain ⟨g, c, hg⟩ := raiseShared_frame
        (State.setRegN { t with stickyLog := t.stickyLog ++ [r] } Reg.LOG_STICKY_COUNT (t.stickyLog.length + 1)) 284
      exact ⟨g, _, c, hg⟩
  unfold State.log
  dsimp only
  obtain ⟨g, m, hg⟩ := hm (s.setRegN Reg.LOG_NEXT_SEQ ((s.regN Reg.LOG_NEXT_SEQ + 1) % 2 ^ 32))
    ⟨s.regN Reg.LOG_NEXT_SEQ, k, o, stickyKinds.contains k && decide (s.stickyLog.length < 512), w, unitOf b, a % 2 ^ 64, d % 2 ^ 64,
      s.time64.toNat⟩
  rw [hg]
  split
  · obtain ⟨g2, l, c, h2⟩ := hk { (s.setRegN Reg.LOG_NEXT_SEQ ((s.regN Reg.LOG_NEXT_SEQ + 1) % 2 ^ 32)) with regs := g, mainLog := m }
      ⟨s.regN Reg.LOG_NEXT_SEQ, k, o, stickyKinds.contains k && decide (s.stickyLog.length < 512), w, unitOf b, a % 2 ^ 64, d % 2 ^ 64,
        s.time64.toNat⟩
    exact ⟨g2, m, l, c, h2⟩
  · exact ⟨g, m, s.stickyLog, s.coal, rfl⟩

@[simp] theorem log_mem (s : State) (k o b a d : Nat) (w : Bool) : (s.log k o b a d w).mem = s.mem := by
  obtain ⟨_, _, _, _, h⟩ := log_frame s k o b a d w; rw [h]

@[simp] theorem fwRefuse_mem (s : State) (o a : Nat) (w : Bool) : (fwRefuse s o a w).mem = s.mem := by
  unfold fwRefuse
  dsimp only
  rw [log_mem]
  rfl

end Sys2Proof.Machine
end

