-- ==== Sys2Proof/Laws/Memory.lean ====
section
/-! SUPPORT. The byte memories: the canonical form that every operation keeps, and a read after a write. -/

namespace Sys2Proof.Machine

/-- The memories after reset list nothing. -/
theorem reset_memory_wf : Memory.wf State.reset.mem = true := rfl

/-- A write of bytes keeps the canonical form. -/
theorem memWrite_wf (m : List Host.Cell) (a : Nat) (bs : List Byte) (h : Memory.wf m = true) : Memory.wf (memWrite m a bs) = true := by
  induction bs generalizing m a with
  | nil => exact h
  | cons b bs ih => exact ih _ _ (Tbl.wf_set zeroByte m a b h)

/-- Clearing a range keeps it. -/
theorem clearRange_wf (m : List Host.Cell) (lo hi : Nat) (h : Memory.wf m = true) : Memory.wf (Tbl.clearRange m lo hi) = true :=
  Tbl.wf_clearRange zeroByte m lo hi h

/-- Keeping part of the cells keeps it. -/
theorem filter_wf (m : List Host.Cell) (f : Host.Cell → Bool) (h : Memory.wf m = true) : Memory.wf (m.filter f) = true :=
  Tbl.wf_filter zeroByte m f h

/-- A byte outside the bytes written reads as before. -/
theorem get_memWrite_ne (m : List Host.Cell) (a x : Nat) (bs : List Byte) (h : x < a ∨ a + bs.length ≤ x) :
    Tbl.get zeroByte (memWrite m a bs) x = Tbl.get zeroByte m x := by
  induction bs generalizing m a with
  | nil => rfl
  | cons b bs ih =>
    have hl : (b :: bs).length = bs.length + 1 := rfl
    rw [hl] at h
    show Tbl.get zeroByte (memWrite (Tbl.set zeroByte m a b) (a + 1) bs) x = _
    rw [ih _ _ (by omega), Tbl.get_set_ne zeroByte m b (by omega)]

/-- The bytes written read back. -/
theorem memRead_memWrite (m : List Host.Cell) (a : Nat) (bs : List Byte) : memRead (memWrite m a bs) a bs.length = bs := by
  induction bs generalizing m a with
  | nil => rfl
  | cons b bs ih =>
    show Tbl.get zeroByte (memWrite (Tbl.set zeroByte m a b) (a + 1) bs) a :: memRead (memWrite (Tbl.set zeroByte m a b) (a + 1) bs) (a + 1) bs.length = _
    rw [ih, get_memWrite_ne _ _ _ _ (by omega), Tbl.get_set_self]

theorem countDown_fold_mem (l : List Nat) (f : State → Nat → State) (hf : ∀ t p, (f t p).mem = t.mem) (s : State) :
    (l.foldl f s).mem = s.mem := by
  induction l generalizing s with
  | nil => rfl
  | cons p l ih => rw [List.foldl_cons, ih, hf]

/-- Lifting poison leaves the bytes. -/
@[simp] theorem unpoison_mem (s : State) (a n : Nat) : (unpoison s a n).mem = s.mem := by
  unfold unpoison
  dsimp only
  refine countDown_fold_mem _ _ (fun t p => ?_) _
  split <;> rfl

/-- The zero engine keeps the canonical form. -/
theorem clearGranule_wf (s : State) (g : Nat) (h : Memory.wf s.mem = true) : Memory.wf (clearGranule s g).mem = true := by
  unfold clearGranule
  dsimp only
  simp only [setFld_mem, unpoison_mem]
  exact clearRange_wf _ _ _ h

/-- A store in device physical memory keeps the canonical form. -/
theorem putBytes_wf (s : State) (a : Nat) (bs : List Byte) (h : Memory.wf s.mem = true) : Memory.wf (s.putBytes a bs).mem = true := by
  unfold State.putBytes
  dsimp only
  apply memWrite_wf
  rw [unpoison_mem]
  split
  · exact clearGranule_wf s _ h
  · exact h

/-- A write on a memory's port keeps the canonical form. -/
theorem portWrite_wf (s : State) (o a : Nat) (bs : List Byte) (h : Memory.wf s.mem = true) : Memory.wf (portWrite s o a bs).mem = true := by
  unfold portWrite
  split
  · exact (log_mem s _ _ _ _ _ _).symm ▸ h
  · split
    · simpa using h
    · exact putBytes_wf s a bs h

/-- A store in host memory keeps the canonical form of both host memories. -/
theorem putHost_wf (s : State) (p a : Nat) (bs : List Byte) (h0 : Memory.wf s.host0 = true) (h1 : Memory.wf s.host1 = true) :
    Memory.wf (s.putHost p a bs).host0 = true ∧ Memory.wf (s.putHost p a bs).host1 = true := by
  unfold State.putHost
  split
  · exact ⟨memWrite_wf _ _ _ h0, h1⟩
  · exact ⟨h0, memWrite_wf _ _ _ h1⟩

/-- A write over the NOC keeps the canonical form. -/
theorem busWrite_wf (s : State) (o a : Nat) (bs : List Byte) (h : Memory.wf s.mem = true) : Memory.wf (busWrite s o a bs).mem = true := by
  unfold busWrite
  split
  · exact portWrite_wf s o a bs h
  · rw [fwRefuse_mem]; exact h

end Sys2Proof.Machine
end

