-- ==== Sys2Proof/Laws/Only.lean ====
section
/-! SUPPORT. Operations that change nothing but registers: how `RegsOnly` and `OnlyRegs` compose, so that no proof unfolds a chain of
register writes. -/

namespace Sys2Proof.Machine

variable {s t u : State}

theorem RegsOnly.refl (s : State) : RegsOnly s s := rfl

theorem RegsOnly.trans (h : RegsOnly s t) (k : RegsOnly t u) : RegsOnly s u := by
  unfold RegsOnly at *
  rw [k, h]

theorem RegsOnly.setReg (h : RegsOnly s t) (o : Nat) (v : Word) : RegsOnly s (t.setReg o v) := h.trans rfl
theorem RegsOnly.setRegN (h : RegsOnly s t) (o n : Nat) : RegsOnly s (t.setRegN o n) := h.setReg _ _
theorem RegsOnly.setFld (h : RegsOnly s t) (f : Fld) (x : Nat) : RegsOnly s (t.setFld f x) := h.setReg _ _
theorem RegsOnly.setRegBit (h : RegsOnly s t) (o i : Nat) (b : Bool) : RegsOnly s (t.setRegBit o i b) := h.setReg _ _
theorem RegsOnly.bumpBy (h : RegsOnly s t) (o n : Nat) : RegsOnly s (t.bumpBy o n) := h.setReg _ _
theorem RegsOnly.bump (h : RegsOnly s t) (o : Nat) : RegsOnly s (t.bump o) := h.setReg _ _
theorem RegsOnly.countMod (h : RegsOnly s t) (o w n : Nat) : RegsOnly s (t.countMod o w n) := h.setReg _ _
theorem RegsOnly.countDown (h : RegsOnly s t) (o n : Nat) : RegsOnly s (t.countDown o n) := h.setReg _ _

theorem RegsOnly.ite {c : Prop} [Decidable c] (h : RegsOnly s t) (k : RegsOnly s u) : RegsOnly s (if c then t else u) := by
  split
  · exact h
  · exact k

theorem RegsOnly.foldl {α : Type} (f : State → α → State) (hf : ∀ t x, RegsOnly t (f t x)) (l : List α) (h : RegsOnly s t) :
    RegsOnly s (l.foldl f t) := by
  induction l generalizing t with
  | nil => exact h
  | cons x l ih => exact ih (h.trans (hf t x))

theorem OnlyRegs.refl (offs : List Nat) (s : State) : OnlyRegs offs s s := ⟨rfl, fun _ _ => rfl⟩

/-- A register write on a state reached by writes of the listed registers. -/
theorem OnlyRegs.setReg {offs : List Nat} (h : OnlyRegs offs s t) (o : Nat) (v : Word) (ho : o ∈ offs) : OnlyRegs offs s (t.setReg o v) :=
  ⟨h.1.setReg o v, fun j hj => by
    rw [reg_setReg_ne t v (fun e => hj (by rw [e]; exact ho))]
    exact h.2 j hj⟩

theorem OnlyRegs.mono {a b : List Nat} (h : OnlyRegs a s t) (hab : ∀ o, o ∈ a → o ∈ b) : OnlyRegs b s t :=
  ⟨h.1, fun o ho => h.2 o (fun hm => ho (hab o hm))⟩

/-- What an ordinary command leaves when its effect changes registers alone. -/
theorem RegsOnly.after (h : RegsOnly s t) : s.after t = t := by
  unfold RegsOnly at h
  rw [h]
  rfl

end Sys2Proof.Machine
end

