-- ==== Sys2Proof/WellFormed.lean ====
section
/-! DEFINITION. Which commands are well formed: operands that the manual's formats allow. The meanings are total all the same. -/

namespace Sys2Proof

/-- A unit kind of FENCE_UNIT or of Table 13.1, and an instance of it. -/
def wfUnit (kind inst : Nat) : Bool := decide (inst < [96, 96, 24, 8, 12, 12, 4, 8, 32, 4].getD kind 0)

/-- A link state (Table 16.1): down, or a speed of 2.5 to 32 GT/s and a width that the endpoint supports. -/
def wfLink (l : LinkFound) : Bool :=
  l.width == 0 || (decide (1 ≤ l.speed.toNat) && decide (l.speed.toNat ≤ 5) && [1, 2, 4, 8, 16].contains l.width.toNat)

/-- A request through BAR2 (Table 16.1): at most 4,096 bytes read, 512 written, within one 4 KiB page. -/
def wfBar2 : Bar2Op → Bool
  | .read off len => decide (0 < len.toNat) && decide (off.toNat % 4096 + len.toNat ≤ 4096)
  | .write off bytes _ => decide (0 < bytes.length) && decide (bytes.length ≤ 512) && decide (off.toNat % 4096 + bytes.length ≤ 4096)

/-- A value for a word of ICN: 32 bits for shared sources. -/
def wfIcn (w : IcnWord) (v : Word) : Bool :=
  match w with
  | .priv _ => true
  | .shared _ => decide (v.toNat < 2 ^ 32)

/-- A verdict's digest has 32 bytes. -/
def wfVerdict : Option (Option (List Byte) × Bool) → Bool
  | some (some d, _) => d.length == 32
  | _ => true

/-- Is a command well formed? -/
def Instr.wf (i : Instr) : Bool :=
  match i with
  | .commandFetch => true
  | .sqTailDoorbell _ _ _ _ => true
  | .queueCfgWrite _ _ _ _ => true
  | .rqHeadWrite _ _ _ _ => true
  | .nop _ => true
  | .queryCaps _ => true
  | .jobLoad _ img => img.seqProgs.all (fun p => decide (p.length ≤ 1024)) && img.veProgs.all (fun p => decide (p.length ≤ 1024))
  | .jobStart _ => true
  | .referenceBeat => true
  | .jobPause _ => true
  | .pauseDeadline => true
  | .jobResume _ => true
  | .jobKill _ => true
  | .jobSave _ => true
  | .jobRestore _ => true
  | .streamArm _ => true
  | .streamCancel _ => true
  | .mapPages _ => true
  | .unmapPages _ => true
  | .seqPageEditReset p => p.p0.toNat % 8 == 0
  | .seqPageEditConfig p => p.p0.toNat % 8 == 1
  | .seqPageEditTrim p => p.p0.toNat % 8 == 2
  | .seqPageEditMove p => p.p0.toNat % 8 == 3
  | .poolAdd p => p.p0.toNat % 8 == 4
  | .poolRemove p => p.p0.toNat % 8 == 5
  | .heldEditApply => true
  | .frameRetire => true
  | .seasonStage _ => true
  | .shadowCheck => true
  | .seasonCommit _ => true
  | .commitWithdrawal => true
  | .candidateBuild => true
  | .adaptStep _ _ => true
  | .groupSumTimeout => true
  | .digestReport _ => true
  | .digestVerdict ds => ds.all (fun d => d.2.length == 32)
  | .digestVerdictReceive v => wfVerdict v
  | .windowOpen _ => true
  | .windowClose _ => true
  | .fabricJoin _ => true
  | .fabricLeave _ => true
  | .syncInit _ => true
  | .syncSignal _ => true
  | .syncWait _ => true
  | .syncWaitTimeout _ _ _ => true
  | .syncQuery _ => true
  | .syncDeadline _ _ => true
  | .katRun _ => true
  | .fenceUnit _ => true
  | .unfenceUnit _ => true
  | .logRead _ => true
  | .safetyConfig _ => true
  | .fallbackForce _ => true
  | .timeSet _ => true
  | .timeAdjust _ => true
  | .fwLoad _ _ => true
  | .firmwareReady _ => true
  | .attest _ => true
  | .powerStateRun p => p.p0.toNat == 0
  | .powerStateIdle p => p.p0.toNat == 1
  | .powerStateRetain p => p.p0.toNat == 2
  | .warmReset p => p.p0.toNat == 8
  | .slotTailWrite _ _ _ => true
  | .slotTick _ => true
  | .codeBlockRelease _ _ _ => true
  | .slotReply _ => true
  | .supervisorWindowClose _ _ _ _ => true
  | .fallbackSelfTest _ _ => true
  | .seqNop _ _ => true
  | .seqHalt _ _ => true
  | .seqLdi _ _ => true
  | .seqLui _ _ => true
  | .seqAddi _ _ => true
  | .seqAdd _ _ => true
  | .seqSub _ _ => true
  | .seqJmp _ _ => true
  | .seqLoop _ _ => true
  | .seqBeqz _ _ => true
  | .seqMode _ _ => true
  | .seqScales _ _ => true
  | .seqWload _ _ => true
  | .seqPass _ _ => true
  | .seqDqcfg _ _ => true
  | .seqDqout _ _ => true
  | .seqSpill _ _ => true
  | .seqFence _ _ => true
  | .seqSig _ _ => true
  | .seqWait _ _ => true
  | .seqPpoint _ _ => true
  | .passDrain _ _ _ => true
  | .veNop _ _ => true
  | .veHalt _ _ => true
  | .setvl _ _ => true
  | .li _ _ => true
  | .veLui _ _ => true
  | .veAddi _ _ => true
  | .veAdd _ _ => true
  | .veSub _ _ => true
  | .shli _ _ => true
  | .shri _ _ => true
  | .veJmp _ _ => true
  | .veLoop _ _ => true
  | .veBeqz _ _ => true
  | .bnez _ _ => true
  | .vget _ _ => true
  | .vput _ _ => true
  | .veTransferComplete _ => true
  | .vwaitx _ _ => true
  | .veSig _ _ => true
  | .veWait _ _ => true
  | .vePpoint _ _ => true
  | .vadd _ _ _ => true
  | .vsub _ _ _ => true
  | .vmul _ _ _ => true
  | .vfma _ _ _ => true
  | .vdiv _ _ => true
  | .vmin _ _ => true
  | .vmax _ _ => true
  | .vabs _ _ => true
  | .vneg _ _ => true
  | .vshl _ _ => true
  | .vshra _ _ => true
  | .vand _ _ => true
  | .vor _ _ => true
  | .vxor _ _ => true
  | .vcmp _ _ => true
  | .vsel _ _ => true
  | .vexp2 _ _ => true
  | .vlog2 _ _ => true
  | .vrcp _ _ => true
  | .vrsq _ _ => true
  | .vmov _ _ => true
  | .vscan _ _ _ => true
  | .vred _ _ _ => true
  | .vtopk _ _ => true
  | .vsoftmax _ _ _ => true
  | .vstats _ _ _ => true
  | .vaccx _ _ _ => true
  | .vaccc _ _ _ => true
  | .vdq _ _ _ => true
  | .vcvt _ _ => true
  | .tapm _ _ _ _ => true
  | .blkrpt _ _ _ _ _ _ => true
  | .bexp _ _ _ _ _ _ _ => true
  | .bnorm _ _ _ _ _ _ _ _ => true
  | .transform _ _ _ _ _ _ => true
  | .frontEnd _ _ _ _ _ _ => true
  | .pucchDetect _ _ _ _ _ => true
  | .fallbackReceive _ _ _ _ _ => true
  | .ldpcDecode _ _ _ _ _ => true
  | .polarDecode _ _ _ _ _ _ => true
  | .ldpcEncode _ _ => true
  | .precoding _ g => decide (g.prb0 + g.nprb ≤ 275) && decide (0 < g.nprb)
  | .attentionStep _ => true
  | .streamCopy _ => true
  | .streamWait _ => true
  | .streamSig _ => true
  | .streamLoop _ => true
  | .streamEnd _ => true
  | .streamFence _ => true
  | .sdeRequestComplete _ _ _ => true
  | .streamDeadline _ => true
  | .crTailWrite _ _ _ => true
  | .gatherBatch _ => true
  | .crossingRelease _ _ => true
  | .scrub _ _ => true
  | .ledgerCheck _ => true
  | .sramZeroComplete => true
  | .granuleZero => true
  | .katSlice kind inst _ => wfUnit kind.val inst.val
  | .katOverdue _ => true
  | .overdueOther kind inst => wfUnit kind.val inst.val && decide (2 ≤ kind.val)
  | .ethFrameReceive _ _ bytes => decide (18 ≤ bytes.length)
  | .rxWindowClose _ _ _ => true
  | .frameLaunch _ => true
  | .txonEvent _ => true
  | .ethLinkChange _ _ _ => true
  | .iferikWrite _ _ _ _ payload => decide (0 < payload.length)
  | .iferikReadReq _ _ _ _ _ => true
  | .iferikReadRsp _ _ _ _ => true
  | .iferikWriteRsp _ _ _ => true
  | .iferikReduce _ r => r.payload.length % 4 == 0
  | .iferikNop _ => true
  | .ctrlOpen _ grants => grants.length == 4
  | .ctrlClose _ => true
  | .ctrlAnnounce _ _ _ _ _ => true
  | .announceAccept _ _ _ => true
  | .ctrlRevoke _ _ => true
  | .ctrlJoin _ o => o.image.length == 32 && o.tensors.length == 32
  | .ctrlLeave _ _ => true
  | .rtoExpiry _ _ => true
  | .ackTimer _ _ => true
  | .ctrlTimeout _ => true
  | .ilpLinkDown _ => true
  | .tsuOffsetWrite _ _ => true
  | .holdoverEntry => true
  | .rateSample => true
  | .ppsInEdge => true
  | .ppsOutEdge => true
  | .todMessageSend => true
  | .todMessageReceive _ => true
  | .portReset _ _ link => wfLink link
  | .perstRelease _ link => wfLink link
  | .bar2Access _ op => wfBar2 op
  | .hostCompletion _ _ _ => true
  | .completionTimeout _ _ => true
  | .semClaim _ _ _ => true
  | .semRelease _ _ _ => true
  | .interruptDelivery _ => true
  | .coalesceTimeout _ _ => true
  | .eoi _ _ _ => true
  | .stackClr _ _ _ => true
  | .swset _ _ => true
  | .pendingClear word _ value => wfIcn word value
  | .interruptEnable word _ value => wfIcn word value
  | .routeWrite _ _ _ => true
  | .stickyClr _ _ => true
  | .wake _ _ _ => true
  | .fbOffArm _ _ => true
  | .fwLock _ _ => true
  | .rcRead _ _ _ => true
  | .latchingRead _ _ _ => true
  | .registerWrite _ _ _ _ => true
  | .brownoutHold _ _ => true
  | .holdEnd _ _ => true
  | .holdEscalation => true
  | .supplyReset _ _ => true
  | .overvoltage _ _ => true
  | .avsTargetStep _ => true
  | .thermalAlarm _ => true
  | .tempAlert _ => true
  | .smbusRead _ => true
  | .powerOnReset _ => true
  | .coldReset _ => true
  | .extest => true
  | .samplePreload _ _ => true
  | .idcode => true
  | .clamp => true
  | .highz => true
  | .extestPulse => true
  | .extestTrain => true
  | .bypass code => decide (7 ≤ code.toNat)
  | .loadBalancerMove _ => true
  | .refclkStop => true
  | .supplyRemoval => true
  | .coldResetRelease _ => true
  | .pcieConfigWrite _ _ => true
  | .msixTableWrite _ _ _ _ => true
  | .ilpLinkUp _ => true
  | .pfcPauseFrame _ _ quanta => quanta.length == 8
  | .revokeAcknowledge _ _ => true
  | .leaveAcknowledge _ _ => true
  | .groupEpochAnnounce _ _ _ => true
  | .clk10mServoUpdate _ => true
  | .tapReset => true

end Sys2Proof
end

