-- ==== Sys2Proof/Tests/Slice0.lean ====
section
/-! SUPPORT. Tests: what WellFormed refuses; for each statement of Sys2Proof/Certificates/Slice0/Obligations.lean a state and operands that
meet its hypotheses; worked examples of the manual. -/

namespace Sys2Proof.Tests
open Sys2Proof.Machine

set_option Elab.async false

/-! ### Builders -/

/-- Set fields. -/
def setFlds (s : State) (l : List (Fld × Nat)) : State := l.foldl (fun t p => t.setFld p.1 p.2) s

/-- Set registers. -/
def setRegs (s : State) (l : List (Nat × Nat)) : State := l.foldl (fun t p => t.setRegN p.1 p.2) s

/-- The device after reset with fields set. -/
def dev (l : List (Fld × Nat)) : State := setFlds State.reset l

/-- A packet of queue 0 of port 0 that names a job. -/
def pk (job : BitVec 8) (p0 p1 p2 p3 : Word) : Pkt :=
  { port := 0, queue := 0, index := 0, fence := false, irq := false, rsv := 0, tag := 7, job := job, p0 := p0, p1 := p1, p2 := p2, p3 := p3,
    p4 := 0, p5 := 0, p6 := 0 }

/-! ### The machine -/

/-- A link that is down. -/
def linkDown : LinkFound := ⟨0, 0⟩

theorem wit_StepRunsFrontCommand : ({ State.reset with pending := [.idcode, .tapReset] } : State).pending = [.idcode, .tapReset] ∧
    State.reset.pending = [] := ⟨rfl, rfl⟩

theorem wit_StepTakesOneCommand : ∃ t, step { State.reset with pending := [.idcode, .tapReset] } = .next t ∧ t.pending = [.tapReset] := ⟨_, rfl, rfl⟩

theorem wit_EveryCommandCompletes : State.reset.phase ≠ .clockLost := by decide

theorem wit_StoppedDevice : State.reset.phase = .running ∧ endsClockLoss .supplyRemoval = true ∧ isTap .idcode = true ∧
    endsClockLoss .commandFetch = false ∧ isTap .commandFetch = false ∧ actsStopped .commandFetch = false ∧
    ({ State.reset with phase := .clockLost } : State).phase = .clockLost ∧ ({ State.reset with phase := .held } : State).phase = .held ∧
    ({ State.reset with phase := .off } : State).phase = .off ∧ endsClockLoss (.supplyReset true 700) = true ∧
    belowReset State.reset true (700 : BitVec 16).toNat = true := by decide

theorem wit_OnlyResetsChangePhase : ∃ t, exec .refclkStop State.reset = .next t ∧ t.phase ≠ State.reset.phase := ⟨_, rfl, by decide⟩

theorem wit_OnlyResetsChangePhase_port : ∃ t, exec (.portReset 0 .perst linkDown) { State.reset with perst := [1] } = .next t ∧
    t.phase ≠ State.reset.phase := ⟨_, rfl, by decide⟩

theorem wit_ResetLeavesNothing : ({ State.reset with phase := .held } : State).resetClean ∧
    ∃ t, step { State.reset with phase := .held } = .next t := ⟨by unfold State.resetClean; decide, _, rfl⟩

theorem wit_ColdResetKeeps : State.reset.phase = .running ∧ State.reset.stickyLog.length < 512 ∧ ({ State.reset with perst := [1] } : State).perst.contains 1 = true := by decide

theorem wit_SupplyLossAndReset : State.reset.phase = .running ∧ belowReset State.reset true (728 : BitVec 16).toNat = false ∧
    belowReset State.reset true (727 : BitVec 16).toNat = true := by decide

/-- A section of a birth record: a body and its CRC-32. -/
def sectionOf (body : List Byte) : List Byte := body ++ leBytes 4 (crc32 body)

theorem crc32Bit_lt (c : Nat) (h : c < 2 ^ 32) : crc32Bit c < 2 ^ 32 := by
  unfold crc32Bit
  split
  · exact Nat.xor_lt_two_pow (by omega) (by decide)
  · omega

theorem crc32Byte_lt (c : Nat) (b : Byte) (h : c < 2 ^ 32) : crc32Byte c b < 2 ^ 32 := by
  have hb := b.isLt
  iterate 8 apply crc32Bit_lt
  exact Nat.xor_lt_two_pow h (by omega)

theorem crc32_lt (bs : List Byte) : crc32 bs < 2 ^ 32 := by
  refine Nat.xor_lt_two_pow ?_ (by decide)
  suffices H : ∀ c, c < 2 ^ 32 → bs.foldl crc32Byte c < 2 ^ 32 from H _ (by decide)
  induction bs with
  | nil => exact fun _ h => h
  | cons b bs ih => exact fun c h => ih _ (crc32Byte_lt c b h)

theorem leNat_leBytes4 (v : Nat) (h : v < 2 ^ 32) : leNat (leBytes 4 v) = v := by
  simp [leBytes, leNat, BitVec.toNat_ofNat]
  omega

theorem leBytes_len (n v : Nat) : (leBytes n v).length = n := by
  induction n generalizing v with
  | zero => rfl
  | succ k ih => simp [leBytes, ih]

theorem sectionOf_good (body : List Byte) (n : Nat) (h : body.length + 4 = n) : sectionGood (sectionOf body) n = true := by
  have hl : (leBytes 4 (crc32 body)).length = 4 := rfl
  have h4 : (leBytes 4 (crc32 body)).take 4 = leBytes 4 (crc32 body) := rfl
  subst h
  simp [sectionGood, sectionOf, leAt, hl, h4, leNat_leBytes4 _ (crc32_lt body)]

/-- A birth record whose header and trims are good. -/
def birth0 : BirthRecord :=
  ⟨sectionOf (leBytes 4 0x44524942 ++ leBytes 4 1 ++ leBytes 8 77 ++ zeros 4076), sectionOf (zeros 65532), [], [], []⟩

/-- A boot that meets a record. -/
def bootOf (r : BirthRecord) : BootFacts := ⟨true, r, [], [], 0⟩

theorem birthOk_of (z t : List Byte) (h : (leBytes 4 0x44524942 ++ leBytes 4 1 ++ leBytes 8 77 ++ z).length + 4 = 4096)
    (ht : t.length + 4 = 65536) :
    birthOk ⟨sectionOf (leBytes 4 0x44524942 ++ leBytes 4 1 ++ leBytes 8 77 ++ z), sectionOf t, [], [], []⟩ = true := by
  have h1 : leAt (sectionOf (leBytes 4 0x44524942 ++ leBytes 4 1 ++ leBytes 8 77 ++ z)) 0 4 = 0x44524942 := by
    simp [sectionOf, leAt, leBytes, leNat]
  have h2 : leAt (sectionOf (leBytes 4 0x44524942 ++ leBytes 4 1 ++ leBytes 8 77 ++ z)) 4 4 = 1 := by
    simp [sectionOf, leAt, leBytes, leNat]
  simp only [birthOk, sectionOf_good _ _ h, sectionOf_good _ _ ht, h1, h2]
  decide

theorem wit_BootOutcome_good : birthOk birth0 = true :=
  birthOk_of _ _ (by rw [List.length_append, List.length_append, List.length_append, leBytes_len, leBytes_len, leBytes_len, zeros,
    List.length_replicate]) (by rw [zeros, List.length_replicate])

theorem wit_BootOutcome : ({ State.reset with phase := .held } : State).phase = .held ∧ birthOk ⟨[], [], [], [], []⟩ = false ∧
    (bootOf birth0).norResponds = true ∧ ({ State.reset with birth := some birth0 } : State).birth = some birth0 ∧
    (({ State.reset with perst := [0] } : State).perst.contains 0 && ({ State.reset with perst := [0] } : State).perst.contains 1) = false ∧
    ({ State.reset with perst := [0, 1] } : State).perst.contains 1 = true := ⟨rfl, by decide, rfl, rfl, by decide, by decide⟩

theorem wit_TapSharesNoState : isTap (.bypass 7) = true ∧ State.reset.phase ≠ .off ∧ sysRstLow State.reset = false ∧
    isTap .commandFetch = false ∧ (∀ f, Instr.commandFetch ≠ .powerOnReset f) ∧ Instr.commandFetch ≠ .supplyRemoval ∧
    ∃ t, exec .commandFetch State.reset = .next t := ⟨by decide, by decide, by decide, by decide, by intro f h; injection h, by decide, _, rfl⟩

theorem wit_SmbusReadsOnly : State.reset.phase = .running ∨ State.reset.phase = .held := .inl rfl

/-! ### Registers, semaphores, interrupts, doorbells -/

theorem wit_FirewallRefusalHasNoOtherEffect : hostInReset State.reset 63 = false ∧ retainReach State.reset Reg.FW_LOCK = true ∧
    writeOf (.fwLock 63 1) = some (63, Reg.FW_LOCK) ∧ fwAllows State.reset 63 (ctlBase + Reg.FW_LOCK) true = false ∧
    readOf (.semClaim 42 63 false) = some (42, Reg.SEM_CLAIM 63) ∧ fwAllows State.reset 42 (ctlBase + Reg.SEM_CLAIM 63) false = false ∧
    readOf (.rcRead 42 (BitVec.ofNat 26 Reg.FW_LOCK) 4) = some (42, Reg.FW_LOCK) := by decide

theorem wit_PlainRegisterWrite : (∃ f, regLookup (Reg.DMMU_TTB) = some f ∧ f.wide = true) ∧
    (∃ f, regLookup (Reg.KAT_STATUS) = some f ∧ f.wide = false) ∧ accMask Reg.KAT_STATUS .rwl = 0 ∧ plainOff Reg.KAT_STATUS = true ∧
    writePasses State.reset 5 Reg.KAT_STATUS = true ∧ accMask Reg.DMMU_TTB .rwl = 0 ∧ plainOff Reg.DMMU_TTB = true ∧
    writePasses State.reset 0 Reg.DMMU_TTB = true ∧ hostInReset State.reset 5 = false ∧ sizeOk Reg.KAT_STATUS 2 = false := ⟨⟨_, rfl, rfl⟩, ⟨_, rfl, rfl⟩, by decide⟩

theorem wit_UnassignedOffset : inCap 0xFC0000 = false ∧ ¬(Reg.SEM_CLAIM 0 ≤ 0xFC0000 ∧ 0xFC0000 < Reg.SEM_CLAIM 64) ∧ regAt 0xFC0000 = none ∧
    inCap 0xFC0004 = false ∧ regLookup 0xFC0004 = none ∧ readPasses State.reset 5 0xFC0000 = true ∧
    writePasses State.reset 5 0xFC0000 = true := by decide

theorem wit_ReadingAndClearing : (∃ f, regLookup Reg.TSU_ELAPSED = some f) ∧ (∃ f, regLookup Reg.FW_LAST = some f ∧ f.wide = false) ∧
    inCap Reg.FW_LAST = false ∧ latches Reg.FW_LAST = [] ∧ readPasses State.reset 0 Reg.FW_LAST = true ∧
    readPasses State.reset 0 Reg.SYN_INIT_TOTAL = true := ⟨⟨_, rfl⟩, ⟨_, rfl, rfl⟩, by decide⟩

/-- Semaphore 63 is held by port 1, which SEM 0 is not; port 0 wants it. -/
def sems : State := setRegs State.reset [(Reg.SEM_HELD_HP1, 2 ^ 63), (Reg.SEM_WANT_HP0, 2 ^ 63)]

theorem wit_SemaphoreClaim : readPasses sems 5 (Reg.SEM_CLAIM 63) = true ∧ readPasses sems 6 (Reg.SEM_CLAIM 63) = true ∧
    semHolder sems 0 = 0 ∧ semHolder sems 63 = 2 ∧ readPasses sems 0 (Reg.SEM_CLAIM 0) = true := by decide

theorem wit_SemaphoreRelease : writePasses sems 6 (Reg.SEM_CLAIM 63) = true ∧ holdsSem sems 1 63 = true ∧ sems.regBit (wantReg 0) 63 = true ∧
    sems.regBit (wantReg 0) 0 = false ∧ writePasses sems 0 (Reg.SEM_CLAIM 63) = true ∧
    holdsSem (setRegs sems [(Reg.SEM_HELD_HP0, 1)]) 0 0 = true := by decide

/-- Target 0 is enabled, level 15 of it ready and unmasked, level 3 ready and masked. -/
def ready0 : State := { setRegs (dev [(Fd.TGT_CTRL_EN 0, 1)]) [(Reg.TSU_ELAPSED, 1000000)] with coal := [(3, ⟨1, true, 0, true⟩), (15, ⟨1, true, 0, true⟩)], msixOn := [15] }

theorem wit_InterruptDelivery : State.reset.flag (Fd.TGT_CTRL_EN 6) = false ∧ ready0.flag (Fd.TGT_CTRL_EN 0) = true ∧
    ready0.flag (Fd.TGT_STATUS_FROZEN 0) = false ∧ ready0.fld Fd.PMU_STATE_STATE ≠ 2 ∧ stackDepth ready0 0 < 16 ∧
    (readyLevels ready0 0).find? (fun v => levelOpen ready0 0 v) = some 15 ∧ 3 ∈ readyLevels ready0 0 ∧ levelOpen ready0 0 3 = false ∧ coalDue ready0 0 2 = false ∧
    625 * ready0.fld (Fd.TGT_COAL_TIME 0 15) ≤ 4 * (ready0.elapsed - (ready0.coalOf 0 15).start) ∧
    (readyLevels State.reset 0).find? (fun v => levelOpen State.reset 0 v) = none ∧ (ready0.coalOf 0 15).timer = true := by decide

/-- The stack of target 1 holds levels 2 and 9. -/
def stacked : State := setRegs (dev [(Fd.TGT_CTRL_EN 1, 1), (Fd.TGT_STATUS_TOP 1, 9), (Fd.TGT_STATUS_DEPTH 1, 2)]) [(Reg.TGT_STACK 1, 0x92)]

theorem wit_EndOfService : writePasses stacked 6 (Reg.TGT_EOI 1) = true ∧ ownsTarget 6 1 = true ∧ stackDepth stacked 1 = 2 ∧
    stacked.fld (Fd.TGT_STATUS_TOP 1) = (9 : Word32).toNat % 16 ∧ stacked.flag (Fd.TGT_STATUS_FROZEN 1) = false ∧
    stackDepth State.reset 1 = 0 ∧ writePasses stacked 6 (Reg.TGT_CTRL 1) = true ∧ ownsTarget 5 1 = false ∧ bitOf 3 1 = true ∧
    writePasses stacked 5 (Reg.TGT_CTRL 1) = true := by decide

theorem wit_PendingAndRoutes : writePasses State.reset 0 Reg.ICN_SWSET = true ∧ writePasses State.reset 5 (Reg.TGT_PRIV_PEND 0) = true ∧
    targetOrigin 0 = 5 ∧ targetOrigin 6 ≠ 5 ∧ writePasses State.reset 5 (Reg.TGT_PRIV_EN 0) = true ∧ ownsTarget 5 0 = true ∧
    writePasses State.reset 4 (Reg.ICN_ROUTE 2047) = true ∧ bitsOf 0x6F 6 4 = 6 ∧ bitsOf 0x70 6 4 = 7 ∧
    holdsSem (setRegs State.reset [(Reg.SEM_HELD_HP0, 1)]) 0 0 = true := by decide

theorem wit_DoorbellsAndRings : writePasses State.reset 6 (Reg.Q_SQ_TAIL 1 31) = true ∧ 15 < ringSize (dev [(Fd.Q_CFG_LOG2N 1 31, 4)]) 1 31 ∧
    ringSize (dev [(Fd.Q_CFG_LOG2N 1 31, 4)]) 1 31 ≤ 16 ∧ writePasses State.reset 6 (Reg.Q_CFG 1 31) = true ∧
    State.reset.fld (Fd.Q_CFG_ENABLE 1 31) = 0 ∧ bitsOf 0x8000000C 31 31 = 1 ∧ (dev [(Fd.Q_CFG_ENABLE 1 31, 1)]).fld (Fd.Q_CFG_ENABLE 1 31) = 1 ∧
    writePasses State.reset 6 (Reg.Q_RQ_HEAD 1 31) = true := by decide

theorem wit_noneHeld : noneHeld State.reset := ⟨rfl, fun _ => rfl⟩

/-! ### Ports, supplies -/

theorem wit_PortResetTakesTheTable : State.reset.perst.contains 1 = false ∧ ({ State.reset with perst := [1] } : State).perst.contains 1 = true ∧
    ¬(PortCause.flr = .perst ∧ State.reset.perst.contains 0 = true) ∧ State.reset.streams = [] ∧ State.reset.crHeld = [] := by decide

/-- A firewall that opens memory to every origin. -/
def opened : State := setRegs State.reset [(Reg.FW_DEFAULT_RMASK, 2 ^ 64 - 1), (Reg.FW_DEFAULT_WMASK, 2 ^ 64 - 1)]

/-- A firewall that closes memory to every origin. -/
def closed : State := setRegs State.reset [(Reg.FW_DEFAULT_RMASK, 0), (Reg.FW_DEFAULT_WMASK, 0)]

theorem wit_Bar2Window : opened.fld Fd.PMU_STATE_STATE ≠ 2 ∧ opened.fld (Fd.PORT_B2_BASE_BASE 0) * 2 ^ 30 + 16 = 16 ∧
    16 + 4096 ≤ 2 ^ (30 + barLogOf opened 0) ∧ fwAllows opened 5 16 false = true ∧ fwAllows opened 5 16 true = true ∧ bankOn opened 16 = true ∧
    opened.flag Fd.BOOT_ZERO_SRAM_BUSY = false ∧ poisoned opened 16 4096 = false ∧ granulePending opened 16 = false ∧
    fwAllows closed 5 16 false = false ∧ fwAllows closed 5 16 true = false ∧
    (dev [(Fd.PMU_STATE_STATE, 2)]).fld Fd.PMU_STATE_STATE = 2 ∧ 2 ^ (30 + barLogOf opened 0) < 2 ^ 37 - 1 + 4096 := by decide

theorem wit_ConfigurationSpace : State.reset.phase = .running ∧ State.reset.perst.contains 0 = false := by decide

/-- Port 1 holds SEM0. -/
def sem0 : State := setRegs State.reset [(Reg.SEM_HELD_HP1, 1)]

/-- The same in Retain. -/
def retain : State := setFlds sem0 [(Fd.PMU_STATE_STATE, 2)]

theorem wit_GuardedControlWrites : writePasses sem0 6 Reg.LOG_CTRL = true ∧ holdsSem sem0 (6 - 5) 0 = true ∧ holdsSem sem0 (5 - 5) 0 = false ∧
    writePasses sem0 6 Reg.SAF_FB_OFF_ARM = true ∧ writePasses retain 6 Reg.PMU_CTRL = true ∧ retain.fld Fd.PMU_STATE_STATE = 2 ∧
    retain.wakeLog = [] ∧ sem0.fld Fd.PMU_STATE_STATE ≠ 2 ∧ writePasses sem0 0 Reg.FW_LOCK = true ∧ writePasses sem0 0 Reg.FW_DEFAULT_RMASK = true ∧
    (dev [(Fd.FW_LOCK_LOCKED, 1)]).flag Fd.FW_LOCK_LOCKED = true := by decide

theorem wit_SuppliesAndTemperature : State.reset.hold = none ∧ State.reset.avsAt = none ∧
    (dev [(Fd.PMU_AVS_TARGET_MV, 670)]).fld Fd.PMU_AVS_TARGET_MV = 670 ∧ (dev [(Fd.PMU_AVS_TARGET_MV, 820)]).fld Fd.PMU_AVS_TARGET_MV = 820 ∧
    ({ State.reset with hold := some ⟨0, true, true, 0⟩ } : State).hold = some ⟨0, true, true, 0⟩ ∧
    belowWarning State.reset true (759 : BitVec 16).toNat = true ∧ belowReset State.reset true (759 : BitVec 16).toNat = false ∧
    belowWarning State.reset true (760 : BitVec 16).toNat = false ∧ released State.reset true (769 : BitVec 16).toNat = false ∧
    ¬(0 + 781250 ≤ State.reset.elapsed) ∧ 0 + 3125 ≤ (setRegs State.reset [(Reg.TSU_ELAPSED, 3125)]).elapsed ∧
    0 + 781250 ≤ (setRegs State.reset [(Reg.TSU_ELAPSED, 781250)]).elapsed ∧
    released (setFlds State.reset [(Fd.PMU_AVS_TARGET_MV, 700)]) false (675 : BitVec 16).toNat = true ∧
    released State.reset true (770 : BitVec 16).toNat = true ∧ 100 * (864 : BitVec 16).toNat ≤ 108 * supplyTarget State.reset true ∧
    108 * supplyTarget State.reset true < 100 * (865 : BitVec 16).toNat := by decide

/-! ### Host commands -/

/-- A device that awaits commands: firmware runs, queue 0 of port 0 is enabled with rings of 16, port 0 holds SEM0. -/
def hostDev : State := setRegs (dev [(Fd.BOOT_STATE_STATE, 4), (Fd.Q_CFG_LOG2N 0 0, 4), (Fd.Q_CFG_ENABLE 0 0, 1), (Fd.PORT_CMD_FREE 0, 1024),
  (Fd.Q_RQ_TAIL_PHASE 0 0, 1), (Fd.Q_RQ_HEAD_INDEX 0 0, 15)]) [(Reg.SEM_HELD_HP0, 1)]

/-- The command of a packet waits unfetched. -/
def waiting (op : Nat) (p : Pkt) (s : State) : State := { s with cmds := s.cmds ++ [⟨op, p, .fetched, false, 0⟩] }

theorem wit_EveryPacketIsAccountedFor : opOf (.nop (pk 0 0 0 0 0)) = some (0x01, pk 0 0 0 0 0) ∧ inFlight hostDev 0x01 (pk 0 0 0 0 0) = none ∧
    taken hostDev 0x01 (pk 0 0 0 0 0) = true ∧ dupTag (intake hostDev 0x01 (pk 0 0 0 0 0)) (fetchedCmd 0x01 (pk 0 0 0 0 0)) = false ∧
    queueTurn (intake hostDev 0x01 (pk 0 0 0 0 0)) (fetchedCmd 0x01 (pk 0 0 0 0 0)) = true ∧
    fenceOpen (intake hostDev 0x01 (pk 0 0 0 0 0)) (fetchedCmd 0x01 (pk 0 0 0 0 0)) = true ∧
    orderOpen (intake hostDev 0x01 (pk 0 0 0 0 0)) (fetchedCmd 0x01 (pk 0 0 0 0 0)) = true ∧ hostDev.fld Fd.BOOT_STATE_STATE = 4 := by decide

theorem wit_EveryPacketIsAccountedFor_refusals :
    dupTag (intake (waiting 0x02 (pk 0 0 0 0 0) hostDev) 0x01 (pk 0 0 0 0 0)) (fetchedCmd 0x01 (pk 0 0 0 0 0)) = true ∧
    queueTurn (intake (waiting 0x02 { pk 0 0 0 0 0 with tag := 8 } hostDev) 0x01 (pk 0 0 0 0 0)) (fetchedCmd 0x01 (pk 0 0 0 0 0)) = false ∧
    State.reset.fld Fd.BOOT_STATE_STATE ≠ 4 ∧ 0x10 ∉ [0x01, 0x02, 0x53, 0x70] ∧ isD 0x59 = true ∧ holdsSem hostDev 1 0 = false ∧
    (dev [(Fd.PORT_CMD_FREE 0, 0)]).fld (Fd.PORT_CMD_FREE 0) = 0 := by decide

/-- Eight D commands of other queues wait before the last one. -/
def dWaits : State := { hostDev with cmds := (List.range 8).map (fun k => ⟨0x58, { pk 0 0 0 0 0 with queue := Fin.ofNat 32 (k + 1) }, .fetched, false, 0⟩) }

theorem wit_EveryPacketIsAccountedFor_full : dupTag (intake dWaits 0x59 (pk 0 0 0 0 0)) (fetchedCmd 0x59 (pk 0 0 0 0 0)) = false ∧
    waitFull (intake dWaits 0x59 (pk 0 0 0 0 0)) (fetchedCmd 0x59 (pk 0 0 0 0 0)) = true ∧
    waitFull (intake dWaits 0x01 (pk 0 0 0 0 0)) (fetchedCmd 0x01 (pk 0 0 0 0 0)) = false := by decide

theorem wit_NopIsAnsweredInPlace : hostReady hostDev 0x01 (pk 0 0 0 0 0) = true ∧ unusedFrom (pk 0 0 0 0 0) 0 = none ∧
    ringOpen hostDev (pk 0 0 0 0 0) = true ∧ hostDev.fld (Fd.PORT_CMD_IN_FLIGHT 0) < 1024 ∧ hostDev.regN (Reg.Q_IN_FLIGHT 0 0) < 1024 := by decide

/-- The reply ring of queue 0 is full. -/
def fullRing : State := setFlds hostDev [(Fd.Q_RQ_HEAD_INDEX 0 0, 1)]

/-- A reply of NOP that is held. -/
def heldNop : Reply := replyOf (cmdOf 0x01 (pk 0 0 0 0 0)) 0 0 0 0

theorem wit_FullRingHoldsReplies : hostReady fullRing 0x01 (pk 0 0 0 0 0) = true ∧ ringFull fullRing 0 0 = true ∧ hasHeld fullRing 0 0 = false ∧
    writePasses fullRing 5 (Reg.Q_RQ_HEAD 0 0) = true ∧ heldNop.port = 0 ∧ heldNop.queue = 0 ∧ heldNop.kind = 0 ∧
    (fullRing.fld (Fd.Q_RQ_TAIL_INDEX 0 0) + 1) % ringSize fullRing 0 0 ≠ (5 : Word32).toNat % 2 ^ 12 ∧
    fullRing.holdQueues.contains 0 = false ∧ portQuiet fullRing 0 = false := by decide

theorem wit_FullRingHoldsReplies_held : ({ fullRing with held := [heldNop] } : State).held = [heldNop] ∧ ∀ c, (fullRing.car c).held = [] :=
  ⟨rfl, fun _ => rfl⟩

/-- Queue 0 of port 0 has a packet. -/
def posted : State := setFlds hostDev [(Fd.Q_SQ_TAIL_INDEX 0 0, 1)]

theorem wit_FetchTakesTheNextPacket : (waiting 0x01 (pk 0 0 0 0 0) hostDev).cmds.find? (fun c => canStart (waiting 0x01 (pk 0 0 0 0 0) hostDev) c) ≠ none ∧
    posted.cmds.find? (fun c => canStart posted c) = none ∧ nextQueue hostDev 0 = none ∧ nextQueue hostDev 1 = none ∧ posted.fetchPort = 0 ∧
    nextQueue posted 0 = some 0 ∧ posted.fld (Fd.Q_CFG_LOG2N 0 0) ≤ 12 := by decide

/-- Object 16383 is owned for hosts, of a type, with a value. -/
def objDev (type value : Nat) : State := setRegs hostDev [(Reg.SYN_OBJ_W0 16383, type * 2 ^ 30 + 0x3FE * 2 ^ 20), (Reg.SYN_OBJ_W1 16383, value)]

theorem wit_ObjectsSetAndFreed : hostReady hostDev 0x40 (pk 0 0x3FEFFFF 1 0 0) = true ∧ objInitOk (bitsOf 0x3FEFFFF 15 14) 1 0 = true ∧
    bitsOf 0x3FEFFFF 25 16 = 0x3FE ∧ unusedFrom (pk 0 0x3FEFFFF 1 0 0) 3 = none ∧ objType hostDev 16383 = 0 ∧ objOwner (objDev 1 5) 16383 = 0x3FE ∧
    objInitOk (bitsOf 0x3FE7FFF 15 14) (2 ^ 24 - 1) 0 = true ∧ objInitOk (bitsOf 0x3FE3FFF 15 14) 0 0 = true ∧
    hostReady (objDev 1 5) 0x43 (pk 0 16383 0 0 0) = true ∧ objForeign (objDev 1 5) 0 16383 = false := by decide

theorem wit_SignalsWaitsAndDeadlines : hostReady (objDev 1 5) 0x41 (pk 0 16383 1 0 0) = true ∧ unusedFrom (pk 0 16383 1 0 0) 2 = none ∧
    objForeign (objDev 1 5) 0 16383 = false ∧ extraBits 0x8000000000000001 0x8000000000FFFFFF = false ∧ objType (objDev 1 5) 16383 = 1 ∧
    objValue (objDev 1 5) 16383 + 1 < 2 ^ 24 ∧ waitersOf (objDev 1 5) 16383 = [] ∧ isRetention (objDev 1 5) 16383 = false ∧
    2 ^ 24 ≤ objValue (objDev 1 (2 ^ 24 - 1)) 16383 + 1 ∧ objType (objDev 2 1) 16383 = 2 ∧ bitOf 0x8000000000000001 63 = true ∧
    hostReady (objDev 1 5) 0x42 (pk 0 16383 0 0 0) = true ∧ objValue (objDev 2 1) 16383 = 1 ∧ waitSatisfied (objDev 1 0) 16383 = false ∧
    waitSatisfied (objDev 2 0) 16383 = false ∧ hostWaits (objDev 2 0) 0 < 256 := by decide

/-- The host's SYNC_WAIT waits on a semaphore without a count; a stream waits on it in a slot past its deadline. -/
def waitDev : State := { objDev 1 0 with
  cmds := [cmdOf 0x42 (pk 0 16383 9 0 0)], waiters := [⟨16383, hostAgent (cmdOf 0x42 (pk 0 16383 9 0 0)), false, false⟩, ⟨16383, .stream 127, true, false⟩]
  unitSlot := [(1127, some (0, 1))] }

theorem wit_SignalsWaitsAndDeadlines_waits :
    (waitDev.waiters.find? (fun x => x.agent == .host 0 0 7)).isSome = true ∧ objType waitDev 16383 ≠ 3 ∧
    (waitDev.executing 0x42 (fun x => hostAgent x == .host 0 0 7)).isSome = true ∧
    waitDev.waiters.find? (fun w => w.agent == .stream 127 && w.obj == 16383 && w.deadline && !w.missed) = some ⟨16383, .stream 127, true, false⟩ ∧
    waitDue waitDev ⟨16383, .stream 127, true, false⟩ = true ∧
    waitDev.waiters.filter (fun v => v.agent == .stream 127 && v.obj == 16383) = [⟨16383, .stream 127, true, false⟩] := by decide

theorem wit_CapabilitiesAndLogAreRead : hostReady hostDev 0x02 (pk 0 0x18 4080 0 0) = true ∧ 0x18 % 8 = 0 ∧ 0x18 + 4080 ≤ 0x1008 ∧
    unusedFrom (pk 0 0x18 4080 0 0) 2 = none ∧ hostReady hostDev 0x02 (pk 0 0x1008 8 0 0) = true ∧
    hostReady hostDev 0x53 (pk 0 0 64 (2 ^ 50) 0) = true ∧ extraBits 0 0x80000000FFFFFFFF = false ∧ addrSpace (2 ^ 50) ≠ 0 ∧
    unusedFrom (pk 0 0 64 (2 ^ 50) 0) 3 = none ∧
    (spaceWrite (begun hostDev 0x53 (pk 0 0 64 (2 ^ 50) 0)) 38 (addrSpace (2 ^ 50)) (addrBits (2 ^ 50)) []).fault = none ∧
    spaceQuiet (begun hostDev 0x53 (pk 0 0 64 (2 ^ 50) 0)) (addrSpace (2 ^ 50)) = false := by decide

/-! ### Jobs -/

/-- An image of one array and one vector engine, both with programs of one HALT; carrier 0 with a ring of 64 entries in its frames. -/
def img : JobImage :=
  { signedBytes := [], signature := [], det := false, namesPhysical := false, claimsVc1 := false, starvesBackground := false
    seqProgs := [[0x08000000]], veProgs := [[0x0200000000000000]], layers := [], data := [], ttb := 0, pinned := []
    lspWindows := [], dscWindows := [], season := [], seasonRecord := [], cal := [], retention := none, objects := []
    slotTable := [⟨0, 0, 6, 0, [], []⟩], shadowObj := none, draws := [], points := [], spacing := 1, lspUnused := [], sspUnused := 0, dscUnused := []
    tables := [(0, 0)], regions := [], frames := [(0, 17)], saveArea := 0, aeRings := [], eguRings := [], kvBase := 0, kvSeqBase := 0, cores := [], ldpcIter := 1
    adaptTensors := [] }

/-- A job of that image on array 0 and engine 0. -/
def job1 : Job :=
  { entry := 1, handle := 1, image := img, seed := 0, key := 0, la := [(0, 0)], lv := [(0, 0)], reserve := [], asked := 0, fencedFrom := [],
    saved := none, regions := [], pausing := false, stopTime := 0 }

/-- The job owns the compute, in a state. -/
def jobDev (st : Nat) : State :=
  { setFlds hostDev [(Fd.COMPUTE_OWNER, 1), (Fd.JOB_STATE 1, st), (Fd.JOB_PORT 1, 0)] with jobs := [job1] }

/-- JOB_LOAD's packet: an image of one byte in host memory, no key, no reserve. -/
def loadPk : Pkt := pk 0 (2 ^ 50) 1 0 0

theorem wit_JobLoadInstallsOrRefuses : hostReady hostDev 0x10 loadPk = true ∧ loadParamBad loadPk = none ∧
    (begun hostDev 0x10 loadPk).fld Fd.COMPUTE_OWNER = 0 ∧ (begun hostDev 0x10 loadPk).flag Fd.BOOT_ZERO_SRAM_BUSY = false ∧
    signatureOk (begun hostDev 0x10 loadPk) 0 img = true ∧ hostDev.jobs.length ≤ 8 := by decide

theorem wit_JobLoadInstallsOrRefuses_image : imageOk (begun hostDev 0x10 loadPk) img = true := by decide +kernel

theorem wit_JobLoadInstallsOrRefuses_refusals : loadParamBad (pk 0 0 1 0 0) = some 1 ∧ loadParamBad (pk 0 (2 ^ 50) 1 0 9) = some 4 ∧
    hostReady (jobDev 1) 0x10 loadPk = true ∧ (begun (jobDev 1) 0x10 loadPk).fld Fd.COMPUTE_OWNER ≠ 0 ∧
    (begun (setFlds hostDev [(Fd.BOOT_ZERO_SRAM_BUSY, 1)]) 0x10 loadPk).flag Fd.BOOT_ZERO_SRAM_BUSY = true ∧
    signatureOk (begun hostDev 0x10 loadPk) 255 img = false ∧ imageOk (begun hostDev 0x10 loadPk) { img with claimsVc1 := true } = false := by decide +kernel

theorem wit_JobStartsAndResumes : job1.placed = true ∧ hostReady (jobDev 1) 0x11 (pk 1 0 0 0 0) = true ∧
    (jobDev 1).job 1 = some job1 ∧ (jobDev 1).jobState job1 = 1 ∧ tickSourceBad (jobDev 1) job1 = false ∧ (jobDev 1).yearWait = [] ∧
    (jobDev 3).jobState job1 = 3 ∧ hostReady (jobDev 3) 0x13 (pk 1 0 0 0 0) = true ∧ (jobDev 3).det = false ∧
    (setFlds (jobDev 3) [(Fd.DET_CTRL_MODE, 1)]).det = true := by decide

/-- JOB_START was accepted in beat 0 by a deterministic job of no carriers. -/
def beatDev (beat : Nat) : State :=
  { setRegs (setFlds (jobDev 1) [(Fd.DET_CTRL_MODE, 1)]) [(Reg.DET_BEAT, beat)] with jobs := [{ job1 with image := { img with slotTable := [] } }], cmds := [cmdOf 0x11 (pk 1 0 0 0 0)] }

theorem wit_JobStartsAndResumes_first : (beatDev 1).det = true ∧ (beatDev 1).owner = some { job1 with image := { img with slotTable := [] } } ∧
    startPending (beatDev 1) { job1 with image := { img with slotTable := [] } } = some (cmdOf 0x11 (pk 1 0 0 0 0)) ∧
    (beatDev 1).regN Reg.DET_BEAT = 1 ∧ (beatDev 0).regN Reg.DET_BEAT ≤ (cmdOf 0x11 (pk 1 0 0 0 0)).aux ∧
    ({ job1 with image := { img with slotTable := [] } } : Job).carriers = [] ∧ job1.carriers ≠ [] := by decide

theorem wit_JobStartsAndResumes_beat :
    startPending { setFlds (jobDev 1) [(Fd.DET_CTRL_MODE, 1)] with cmds := [cmdOf 0x11 (pk 1 0 0 0 0)] } job1 = some (cmdOf 0x11 (pk 1 0 0 0 0)) ∧
    ({ setFlds (jobDev 1) [(Fd.DET_CTRL_MODE, 1)] with cmds := [cmdOf 0x11 (pk 1 0 0 0 0)] } : State).owner = some job1 := by decide

theorem wit_JobPauses : hostReady (jobDev 2) 0x12 (pk 1 0 0 0 0) = true ∧ unusedFrom (pk 1 0 0 0 0) 0 = none ∧ (jobDev 2).jobState job1 = 2 ∧
    allStopped (jobDev 2) job1 = true ∧ allStopped (setFlds (jobDev 2) [(Fd.MA_STATUS_RUN 0, 1)]) job1 = false ∧ (jobDev 2).owner = some job1 ∧
    ({ jobDev 2 with jobs := [{ job1 with pausing := true }] } : State).owner = some { job1 with pausing := true } ∧ hostDev.owner = none := by decide

theorem wit_JobsLeaveTheCompute : hostReady (jobDev 3) 0x15 (pk 1 0 0 0 0) = true ∧ ((jobDev 3).jobs.filter (fun k => k.saved.isSome)).length < 8 ∧
    hostReady (jobDev 4) 0x14 (pk 1 0 0 0 0) = true ∧ (jobDev 4).jobState job1 ∈ [1, 2, 3, 4] ∧ (jobDev 4).fld Fd.COMPUTE_OWNER = job1.handle ∧
    (setFlds (jobDev 4) [(Fd.COMPUTE_OWNER, 0)]).fld Fd.COMPUTE_OWNER ≠ job1.handle := by decide

/-- What JOB_SAVE keeps of a job without state. -/
def saved0 : SavedJob := ⟨[], [], [], [], [], [], [], [], [], [], [], [], [], [], [], [], [], [], [], [], 0⟩

/-- The job is saved, and the compute is free. -/
def savedDev : State := { setFlds (jobDev 4) [(Fd.COMPUTE_OWNER, 0)] with jobs := [{ job1 with saved := some saved0, la := [], lv := [] }] }

theorem wit_JobsLeaveTheCompute_restore : hostReady savedDev 0x16 (pk 1 0 0 0 0) = true ∧ (savedDev.job 1).isSome = true ∧
    savedDev.fld Fd.COMPUTE_OWNER = 0 ∧ savedDev.flag Fd.BOOT_ZERO_SRAM_BUSY = false ∧ 1 ≤ (freeArrays savedDev).length ∧
    1 ≤ (freeEngines savedDev).length := by decide

theorem wit_JobsLeaveTheCompute_clear :
    (dev [(Fd.BOOT_ZERO_SRAM_BUSY, 1)]).flag Fd.BOOT_ZERO_SRAM_BUSY = true ∧
    ({ dev [(Fd.BOOT_ZERO_SRAM_BUSY, 1)] with cmds := [⟨0x15, pk 1 0 0 0 0, .executing, false, 1⟩] } : State).cmds.filter
      (fun c => (c.opcode == 0x14 || c.opcode == 0x15) && c.phase == .executing && c.aux % 2 == 1) = [⟨0x15, pk 1 0 0 0 0, .executing, false, 1⟩] ∧
    ({ State.reset with zeroing := [(0, 0x1E0000)] } : State).zeroing = (0, 0x1E0000) :: [] ∧ State.reset.fld Fd.PMU_STATE_STATE ≠ 2 := by decide

/-! ### Pages, sequences, the pool -/

/-- Store 8 bytes in device memory. -/
def word8 (s : State) (a v : Nat) : State := { s with mem := memWrite s.mem a (leBytes 8 v) }

/-- The job's tables at 0x1000 to 0x4000 map virtual page 1 to frame 5; page 0 is unmapped. The sequence table is at virtual 0x1000. -/
def tabled (st : Nat) : State :=
  setRegs (word8 (word8 (word8 (word8 (setFlds (jobDev st) [(Fd.DMMU_TTB_ADDR, 1)]) 0x1000 0x2003) 0x2000 0x3003) 0x3000 0x4003) 0x4008 0x500D)
    [(Reg.AE0_KV_SEQ_BASE, 0x1000), (Reg.AE0_KV_BASE, 2 ^ 40)]

/-- MAP_PAGES of virtual page 0 to frame 6, UNMAP_PAGES of virtual page 1. -/
def mapPk : Pkt := pk 1 0 0x6000 0x1000C 0
def unmapPk : Pkt := pk 1 0x1000 0 0x10000 0

theorem wit_PagesMapAndUnmap : hostReady (tabled 2) 0x28 mapPk = true ∧ (editJob (begun (tabled 2) 0x28 mapPk) (cmdOf 0x28 mapPk)).toOption = some job1 ∧
    mapRefusal (begun (tabled 2) 0x28 mapPk) mapPk = none ∧ editSize mapPk = 0 ∧ editPages mapPk = 1 ∧
    leafSlot (begun (tabled 2) 0x28 mapPk) 0 0 = some 0x4000 ∧ bankOn (tabled 2) 0x4000 = true ∧
    mapRefusal (begun (tabled 2) 0x28 { mapPk with p0 := 0x1000 }) { mapPk with p0 := 0x1000 } = some 1 := by decide +kernel

theorem wit_PagesMapAndUnmap_unmap : hostReady (tabled 2) 0x29 unmapPk = true ∧
    (editJob (begun (tabled 2) 0x29 unmapPk) (cmdOf 0x29 unmapPk)).toOption = some job1 ∧ unmapRefusal unmapPk = none ∧
    unmapRefusal { unmapPk with p1 := 1 } = some 2 ∧ inKvRange (begun (tabled 2) 0x29 unmapPk) 0x1000 4096 = false ∧
    leafSlot (begun (tabled 2) 0x29 unmapPk) 0x1000 0 = some 0x4008 ∧ bitOf ((begun (tabled 2) 0x29 unmapPk).leMem 0x4008 8) 0 = true ∧
    (tabled 2).regN Reg.DMMU_RETIRING < 2 ^ 32 := by decide +kernel

/-- An UNMAP_PAGES whose two frames an epoch that has passed retired. -/
def retired : State := { State.reset with cmds := [⟨0x29, unmapPk, .executing, false, 2⟩], kvRetiring := [⟨0, [⟨false, 0, 7⟩], false⟩] }

theorem wit_PagesMapAndUnmap_retire : retired.cmds.filter (fun c => (c.opcode == 0x29 || c.opcode == 0x2A) && c.phase == .executing &&
    c.aux != 0 && decide (c.aux / 2 ^ 32 < epochMin retired)) = [⟨0x29, unmapPk, .executing, false, 2⟩] ∧
    (∀ c ∈ State.reset.cmds, c.aux = 0) ∧ State.reset.kvRetiring = [] := by decide +kernel

/-- Block 0 of head 0 of sequence 0 is on a frame; another frame is free. The sequence's descriptor has one head. -/
def kvDev : State :=
  { word8 (tabled 2) 0x5000 (5 * 2 ^ 32 + 1) with kvPages := [⟨0, 0, 0, ⟨false, 0, 7⟩⟩], kvFree := [⟨false, 0, 8⟩] }

theorem wit_SequencesAreEdited : hostReady kvDev 0x2A (withOp (pk 1 0 0 0 0) 0) = true ∧
    (editJob (begun kvDev 0x2A (withOp (pk 1 0 0 0 0) 0)) (cmdOf 0x2A (withOp (pk 1 0 0 0 0) 0))).toOption = some job1 ∧
    seqEditRefusal (withOp (pk 1 0 0 0 0) 0) = none ∧ (begun kvDev 0x2A (withOp (pk 1 0 0 0 0) 0)).regN Reg.AE0_KV_SEQ_BASE ≠ 0 ∧
    editBlocked (begun kvDev 0x2A (withOp (pk 1 0 0 0 0) 0)) (cmdOf 0x2A (withOp (pk 1 0 0 0 0) 0)) [] = false ∧
    heldEdits (begun kvDev 0x2A (withOp (pk 1 0 0 0 0) 0)) = [] ∧ (∃ x ∈ kvDev.kvPages, x.seq = editSeq (withOp (pk 1 0 0 0 0) 0)) := by decide +kernel

theorem wit_SequencesAreEdited_trim : seqEditRefusal (withOp (pk 1 0 1 0 0) 2) = none ∧
    seqHeadOk (begun kvDev 0x2A (withOp (pk 1 0 1 0 0) 2)) (withOp (pk 1 0 1 0 0) 2) = true ∧
    (∃ x ∈ kvDev.kvPages, x.seq = editSeq (withOp (pk 1 0 1 0 0) 2) ∧ x.head = editHead (withOp (pk 1 0 1 0 0) 2) ∧ x.block < 1) := by decide +kernel

theorem wit_SequencesAreEdited_move : seqEditRefusal (withOp (pk 1 0 0 0 0) 3) = none ∧
    seqHeadOk (begun kvDev 0x2A (withOp (pk 1 0 0 0 0) 3)) (withOp (pk 1 0 0 0 0) 3) = true ∧
    (kvLookup (begun kvDev 0x2A (withOp (pk 1 0 0 0 0) 3)) 0 0 0).isSome = true ∧
    (takeFrame (begun kvDev 0x2A (withOp (pk 1 0 0 0 0) 3)) false).isSome = true := by decide +kernel

/-- CONFIG of sequence 1 with a budget of one block. -/
def configPk : Pkt := pk 1 9 (2 ^ 32 + 1) 0 0

theorem wit_SequencesAreEdited_config : withOp configPk 1 = configPk ∧ seqEditRefusal configPk = none ∧
    configRefusal (begun kvDev 0x2A configPk) configPk = none ∧
    (translate (begun kvDev 0x2A configPk) (seqDescVa (begun kvDev 0x2A configPk) 1) true).1 = .phys 0x5100 ∧
    fwAllows (setRegs kvDev [(Reg.FW_DEFAULT_WMASK, 2 ^ 64 - 1)]) editOrigin 0x5100 true = true := by decide +kernel

/-- POOL_ADD and POOL_REMOVE of frames 16 and 17. -/
def poolPk (op : Nat) : Pkt := withOp (pk 1 0 0x10000 2 0) op

theorem wit_PoolAndHeldEdits : hostReady (tabled 2) 0x2A (poolPk 4) = true ∧ seqEditRefusal (poolPk 4) = none ∧ poolParamBad (poolPk 4) = none ∧
    poolAddRefusal (begun (tabled 2) 0x2A (poolPk 4)) (poolPk 4) = none ∧ (∀ f ∈ poolFrames (poolPk 4), inPool (tabled 2) f = false) ∧
    seqEditRefusal (poolPk 5) = none ∧ poolParamBad (poolPk 5) = none ∧ (∀ x ∈ kvDev.kvPages, x.frame ∉ poolFrames (poolPk 5)) ∧
    (∀ r ∈ kvDev.kvRetiring, ∀ f ∈ r.frames, f ∉ poolFrames (poolPk 5)) := by decide +kernel

/-- Engine 7 steps on sequence 0; a TRIM of sequence 1 is held. -/
def stepping : State :=
  { setRegs kvDev [(Reg.AE_CUR 7, 2 ^ 31)] with
    cmds := [⟨0x2A, { withOp (pk 1 8 1 0 0) 2 with tag := 9 }, .executing, false, heldMark⟩]
    editHeld := [({ withOp (pk 1 8 1 0 0) 2 with tag := 9 }, [7])] }

theorem wit_PoolAndHeldEdits_held : editBlocked (begun stepping 0x2A (withOp (pk 1 0 1 0 0) 2)) (cmdOf 0x2A (withOp (pk 1 0 1 0 0) 2))
      (heldEdits (begun stepping 0x2A (withOp (pk 1 0 1 0 0) 2))) = true ∧ hostReady stepping 0x2A (withOp (pk 1 0 1 0 0) 2) = true ∧
    waitingBefore (begun stepping 0x2A (withOp (pk 1 0 1 0 0) 2)) (cmdOf 0x2A (withOp (pk 1 0 1 0 0) 2)) (fun x => isEdit x.opcode) < 512 ∧ (readyEdit stepping).isSome = true ∧ readyEdit kvDev = none := by decide +kernel

/-! ### Seasons -/

/-- The bytes of a record of season 1 without entries. -/
def record1 : List Byte := leBytes 4 1 ++ List.replicate 60 0

/-- A running job; windows of one slot; the candidate is ready. -/
def seasonDev : State := { setFlds (jobDev 2) [(Fd.CAL_WINDOW_SLOTS, 1), (Fd.CAL_SHADOW_MIN_COUNT, 0), (Fd.CAL_STATUS_CAND_READY, 1)] with candidate := record1 }

/-- The window has closed. -/
def closedDev : State := { setFlds (jobDev 2) [(Fd.CAL_WINDOW_SLOTS, 1)] with calSlots := 1 }

/-- Season 1 is staged. -/
def stagedDev : State := setRegs (setFlds seasonDev [(Fd.CAL_STATUS_STAGED_V, 1)]) [(Reg.CAL_STAGED, 1)]

theorem wit_SeasonsAreStaged : hostReady seasonDev 0x30 (pk 1 0 0 0 0) = true ∧
    (editJob (begun seasonDev 0x30 (pk 1 0 0 0 0)) (cmdOf 0x30 (pk 1 0 0 0 0))).toOption = some job1 ∧ unusedFrom (pk 1 0 0 0 0) 1 = none ∧
    (begun seasonDev 0x30 (pk 1 0 0 0 0)).flag Fd.CAL_STATUS_CAND_READY = true ∧
    (seasonRec seasonDev.candidate).number = ((begun seasonDev 0x30 (pk 1 0 0 0 0)).regN Reg.CAL_SEASON + 1) % 2 ^ 32 ∧
    stageBusy (begun seasonDev 0x30 (pk 1 0 0 0 0)) = false ∧
    (begun seasonDev 0x30 (pk 1 0 0 0 0)).fld Fd.CAL_SHADOW_MIN_COUNT ≤ retainedHeld (begun seasonDev 0x30 (pk 1 0 0 0 0)) job1 ∧
    recordOk (begun seasonDev 0x30 (pk 1 0 0 0 0)) job1 (seasonRec seasonDev.candidate) = true ∧ (seasonRec seasonDev.candidate).weights = [] ∧
    (windowsOf (begun seasonDev 0x30 (pk 1 0 0 0 0)) job1).all (fun w => decide (w.2 ≤ 2 ^ 18)) = true := by decide +kernel

theorem wit_SeasonsAreStaged_refusals : hostReady (jobDev 2) 0x30 (pk 1 0 0 0 0) = true ∧
    (begun (jobDev 2) 0x30 (pk 1 0 0 0 0)).flag Fd.CAL_STATUS_CAND_READY = false ∧ stageBusy (begun closedDev 0x30 (pk 1 0 0 0 0)) = true ∧
    (seasonRec (leBytes 4 2 ++ List.replicate 60 0)).number ≠ ((begun seasonDev 0x30 (pk 1 0 0 0 0)).regN Reg.CAL_SEASON + 1) % 2 ^ 32 ∧
    recordOk seasonDev job1 (seasonRec (leBytes 4 1 ++ List.replicate 60 1)) = false := by decide +kernel

/-- The job with a retention ring of 4 of which 4 are held. -/
def adaptDev : State :=
  { setRegs seasonDev [(Reg.CAL_RETAINED, 4)] with jobs := [{ job1 with image := { img with retention := some ⟨0, 6, 4, 0⟩ } }] }

theorem wit_SeasonsAreStaged_adapt : hostReady adaptDev 0x32 (pk 1 1 0 (3 * 2 ^ 32) 0) = true ∧
    (editJob (begun adaptDev 0x32 (pk 1 1 0 (3 * 2 ^ 32) 0)) (cmdOf 0x32 (pk 1 1 0 (3 * 2 ^ 32) 0))).toOption = adaptDev.owner ∧
    unusedFrom (pk 1 1 0 (3 * 2 ^ 32) 0) 3 = none ∧ (begun adaptDev 0x32 (pk 1 1 0 (3 * 2 ^ 32) 0)).flag Fd.CAL_STATUS_EXPELLED = false ∧
    1 = ((begun adaptDev 0x32 (pk 1 1 0 (3 * 2 ^ 32) 0)).regN Reg.CAL_ADAPT_STEP_NO + 1) % 2 ^ 32 ∧
    stageBusy (begun adaptDev 0x32 (pk 1 1 0 (3 * 2 ^ 32) 0)) = false ∧ (adaptSlot (begun adaptDev 0x32 (pk 1 1 0 (3 * 2 ^ 32) 0))).any (fun h =>
      (begun adaptDev 0x32 (pk 1 1 0 (3 * 2 ^ 32) 0)).reductions.any (fun r => r.slot == h)) = false ∧
    (adaptDev.owner.map (fun j => (retentionHeld (begun adaptDev 0x32 (pk 1 1 0 (3 * 2 ^ 32) 0)) j 0 3,
      retentionHeld (begun adaptDev 0x32 (pk 1 1 0 (3 * 2 ^ 32) 0)) j 0 4))) = some (true, false) ∧
    adaptSlot (begun adaptDev 0x32 (pk 1 1 0 (3 * 2 ^ 32) 0)) = none := by decide +kernel

theorem wit_SeasonsAreStaged_window : seasonDev.phase = .running ∧ seasonDev.owner = some job1 ∧ windowClosed seasonDev = false ∧
    windowClosed closedDev = true ∧ closedDev.owner = some job1 := by decide +kernel

theorem wit_SeasonsComeIntoForce : hostReady stagedDev 0x31 (pk 1 1 0 0 0) = true ∧
    (editJob (begun stagedDev 0x31 (pk 1 1 0 0 0)) (cmdOf 0x31 (pk 1 1 0 0 0))).toOption = some job1 ∧ unusedFrom (pk 1 1 0 0 0) 1 = none ∧
    (begun stagedDev 0x31 (pk 1 1 0 0 0)).flag Fd.CAL_STATUS_STAGED_V = true ∧
    (begun stagedDev 0x31 (pk 1 1 0 0 0)).flag Fd.CAL_STATUS_COMMIT_PENDING = false ∧ (begun stagedDev 0x31 (pk 1 1 0 0 0)).shadowLeft = 0 ∧
    (begun stagedDev 0x31 (pk 1 1 0 0 0)).flag Fd.CAL_STATUS_SHADOW_FAIL = false ∧ (begun stagedDev 0x31 (pk 1 1 0 0 0)).oddStage = false ∧
    (begun stagedDev 0x31 (pk 1 1 0 0 0)).regN Reg.CAL_STAGED = 1 ∧ awaitsVerdict (begun stagedDev 0x31 (pk 1 1 0 0 0)) = false ∧
    job1.image.slotTable ≠ [] ∧ (begun seasonDev 0x31 (pk 1 1 0 0 0)).flag Fd.CAL_STATUS_STAGED_V = false ∧
    (setFlds stagedDev [(Fd.CAL_STATUS_SHADOW_FAIL, 1)]).flag Fd.CAL_STATUS_SHADOW_FAIL = true := by decide +kernel

/-- Season 1 is staged, and no carrier has a slot table. -/
def atOnceDev : State := { stagedDev with jobs := [{ job1 with image := { img with slotTable := [] } }] }

theorem wit_SeasonsComeIntoForce_atOnce : hostReady atOnceDev 0x31 (pk 1 1 0 0 0) = true ∧
    (editJob (begun atOnceDev 0x31 (pk 1 1 0 0 0)) (cmdOf 0x31 (pk 1 1 0 0 0))).toOption = atOnceDev.owner ∧
    atOnceDev.owner.map (fun j => j.image.slotTable) = some [] ∧ awaitsVerdict (begun atOnceDev 0x31 (pk 1 1 0 0 0)) = false := by decide +kernel

theorem wit_SeasonsComeIntoForce_shadow : stagedDev.phase = .running ∧ ({ stagedDev with shadowLeft := 3 } : State).owner = some job1 ∧
    ({ stagedDev with shadowLeft := 3 } : State).flag Fd.CAL_STATUS_STAGED_V = true ∧ 0 < ({ stagedDev with shadowLeft := 3 } : State).shadowLeft ∧
    stagedDev.shadowLeft = 0 ∧ (setFlds stagedDev [(Fd.CAL_STATUS_COMMIT_PENDING, 1)]).flag Fd.CAL_STATUS_COMMIT_PENDING = true ∧
    stagedDev.flag Fd.CAL_STATUS_COMMIT_PENDING = false := by decide +kernel

/-- Device 3 is with device 4 in an adaptation group in slot 0, of root r; its digest of season 1 is outstanding. -/
def groupDev (r : Nat) : State :=
  { setRegs (dev [(Fd.BOOT_STATE_STATE, 4), (Fd.ILP_GROUP_JOINED 0, 1), (Fd.ILP_GROUP_KIND 0, 1), (Fd.ILP_GROUP_ROOT 0, r), (Fd.CAL_GROUP_V, 1)])
      [(Reg.ILP_DEVICE_ID, 3)] with groups := [(0, [3, 4])], digestSeason := 1, verdict := 0 }

theorem wit_DigestsAndVerdicts : hostReady hostDev 0x33 (pk 0 0 0 0 0) = true ∧ unusedFrom (pk 0 0 0 0 0) 0 = none ∧ (groupDev 3).phase = .running ∧
    adaptSlot (groupDev 3) = some 0 ∧ adaptSlot (groupDev 4) = some 0 ∧ verdictDue (groupDev 3) = true ∧ groupRoot (groupDev 3) 0 = deviceId (groupDev 3) ∧
    groupRoot (groupDev 4) 0 ≠ deviceId (groupDev 4) ∧ verdictDue { groupDev 3 with verdict := 1 } = false := by decide +kernel

theorem wit_DigestsAndVerdicts_majority :
    majority (groupMembers (groupDev 3) 0).length [ownDigest (groupDev 3), ownDigest (groupDev 3)] = some (ownDigest (groupDev 3)) ∧
    majority (groupMembers (groupDev 3) 0).length [ownDigest (groupDev 3)] ≠ some (ownDigest (groupDev 3)) := by decide +kernel
/-! ### Fabric -/

/-- A packet from device 5 on port 0, channel 0, epoch 9, PSN 0. -/
def hd : IlpHdr :=
  { port := 0, fcs := true, src := 5, epoch := 9, vc := 0, psn := 0, nak := false, crq := false, ack := none, crvc := 0, cred := 0 }

/-- The path to device 5: open, of 16 credits either way, with packets that wait for an acknowledgement. -/
def path5 (unacked : List OutPkt) : Path :=
  ⟨0, 5, 9, false, false, false, List.replicate 4 { pathVcNew with credits := 16, granted := 16 }, unacked, [], 0⟩

/-- Device 3, which runs, with link 0 up, a route and a path to device 5. -/
def fabDev : State :=
  { setRegs (setFlds hostDev [(Fd.ILP_STATUS_LINK 0, 1)]) [(Reg.ILP_DEVICE_ID, 3), (Reg.ILP_ROUTE 0, 8 * 2 ^ 20)] with paths := [path5 []] }

theorem accepted_hd : accepted fabDev hd (path5 []) := by
  unfold accepted arrivesOn
  exact ⟨⟨by decide, by decide, by decide, ⟨path5 [], by decide, by decide⟩, by decide⟩, by decide⟩

theorem arrives_other : arrivesOn fabDev { hd with psn := 7 } (path5 []) ∧ ¬ accepted fabDev { hd with psn := 7 } (path5 []) := by
  refine ⟨⟨by decide, by decide, by decide, ⟨path5 [], by decide, by decide⟩, by decide⟩, fun h => ?_⟩
  exact absurd h.2 (by decide)

theorem wit_PacketsAreTakenInOrder : packetHdr (.iferikNop hd) = some hd ∧ fabDev.phase = .running ∧ ilpUp fabDev hd.port.val = true ∧
    hd.fcs = true ∧ ilpUp hostDev hd.port.val = false ∧ fabDev.path 0 5 = some (path5 []) ∧ hd.vc.val < (path5 []).vcs.length ∧
    fabDev.path 0 6 = none ∧ hd.src.toNat ≠ deviceId fabDev := by decide

/-- A window write that waits for an acknowledgement. -/
def sent1 : OutPkt := pkt 0 (.write 1 0 [0])

/-- With a packet that is unacknowledged; after all retries; with an OPEN of its own. -/
def unackedDev (retries : Nat) (opening : Bool) : State :=
  { fabDev with paths := [{ path5 [sent1] with retries := retries, opening := opening }] }

theorem wit_PathsOpenCloseAndFail : fabDev.phase = .running ∧ ilpUp fabDev 0 = true ∧ fabDev.path 0 6 = none ∧ portPaths fabDev 0 < 256 ∧
    newerEpoch ({ hd with epoch := 10 } : IlpHdr).epoch.toNat (path5 []).epoch = true ∧
    newerEpoch ({ hd with epoch := 8 } : IlpHdr).epoch.toNat (path5 []).epoch = false ∧
    ({ hd with epoch := 8 } : IlpHdr).epoch.toNat ≠ (path5 []).epoch ∧ hd.epoch.toNat ≠ 0 ∧
    Tbl.get (fun _ => 0) ({ fabDev with pathEpochs := [(6, 9)] } : State).pathEpochs (4096 * 0 + 6) = hd.epoch.toNat ∧
    Tbl.get (fun _ => 0) fabDev.pathEpochs (4096 * 0 + 6) ≠ hd.epoch.toNat ∧ hd.epoch.toNat = (path5 []).epoch ∧ (path5 []).opening = false ∧
    (path5 []).queue = [] ∧ ((path5 []).unacked.all (fun p => p.body == .nop)) = true ∧ fabDev.streams = [] ∧
    (unackedDev 0 false).path 0 5 = some { path5 [sent1] with retries := 0 } ∧ ([sent1].all (fun p => p.body == .nop)) = false ∧
    (0 : Nat) + 1 < (unackedDev 0 false).fld (Fd.ILP_RTO_RETRIES 0) ∧
    (unackedDev 255 false).fld (Fd.ILP_RTO_RETRIES 0) ≤ 255 + 1 ∧ (unackedDev 0 true).path 0 5 = some { path5 [sent1] with opening := true } ∧
    ilpUp hostDev 0 = false ∧ hostDev.fld Fd.PMU_STATE_STATE ≠ 2 ∧ (setFlds hostDev [(Fd.PMU_STATE_STATE, 2)]).fld Fd.PMU_STATE_STATE = 2 := by
  decide +kernel

theorem wit_PathsOpenCloseAndFail_full : 256 ≤ portPaths { fabDev with paths := (List.range 256).map (fun k => { path5 [] with peer := 4095 - k }) } 0 ∧
    ({ fabDev with paths := (List.range 256).map (fun k => { path5 [] with peer := 4095 - k }) } : State).path 0 5 = none := by decide +kernel

/-- Window w of a page at 0x10000 for device 5, in a state. -/
def win (st : WinState) : Window := ⟨1, 5, 0, 0x10000, 0x1000, true, true, 0, st⟩
def winDev (st : WinState) : State := { setRegs fabDev [(Reg.FW_DEFAULT_WMASK, 2 ^ 64 - 1), (Reg.FW_DEFAULT_RMASK, 2 ^ 64 - 1)] with windows := [win st] }

/-- Window 2, to be opened for device 5, of a page at 0x20000 that may be read and written. -/
def openPk : Pkt := pk 0 (2 + 5 * 4096 + 3 * 2 ^ 24) 0x20000 0x1000 0

theorem wit_WindowsOpenAndClose : hostReady fabDev 0x38 openPk = true ∧ openPk.p0.toNat < 2 ^ 26 ∧ unusedFrom openPk 3 = none ∧
    windowRange openPk.p1.toNat openPk.p2.toNat = true ∧ windowRange 1 4096 = false ∧ openPk.job = 0 ∧
    ilpRoute fabDev (bitsOf openPk.p0.toNat 23 12) = some 0 ∧ ilpRoute fabDev 6 = none ∧ fabDev.window (openPk.p0.toNat % 4096) = none ∧
    ((winDev .isOpen).window 1).isSome = true ∧ (fabDev.path 0 5).isSome = true := by decide +kernel

theorem wit_WindowsOpenAndClose_close : hostReady (winDev .isOpen) 0x39 (pk 0 1 0 0 0) = true ∧ unusedFrom (pk 0 1 0 0 0) 1 = none ∧
    (winDev .isOpen).window 1 = some (win .isOpen) ∧ (winDev .closing).window 1 = some (win .closing) ∧
    (winDev .opening).window 1 = some (win .opening) ∧ ((winDev .isOpen).path 0 5).isSome = true ∧ (winDev .isOpen).window 2 = none ∧
    (({ winDev .opening with paths := [] } : State).path 0 5).isSome = false ∧ (win .opening).peer = hd.src.toNat ∧ (winDev .opening).phase = .running := by decide +kernel

theorem accepted_win (st : WinState) : accepted (winDev st) hd (path5 []) := by
  unfold accepted arrivesOn
  cases st <;> exact ⟨⟨by decide, by decide, by decide, ⟨path5 [], by decide, by decide⟩, by decide⟩, by decide⟩

theorem wit_WindowsServeTheirPeer : windowCheck (winDev .isOpen) 0 5 1 0xFFF 1 true = .go 0x10FFF ∧
    windowCheck (winDev .isOpen) 0 5 1 0xFFF 2 true = .bad ∧ windowCheck (winDev .closing) 0 5 1 0 1 true = .closed ∧
    windowCheck (winDev .isOpen) 0 5 1 0 16 false = .go 0x10000 ∧ windowCheck (winDev .isOpen) 0 5 2 0 16 false = .closed ∧
    windowCheck (setRegs (winDev .isOpen) [(Reg.FW_DEFAULT_WMASK, 0)]) 0 5 1 0 1 true = .refusedAt 0x10000 ∧
    bankOn (winDev .isOpen) 0x10FFF = true ∧ (winDev .isOpen).flag Fd.BOOT_ZERO_SRAM_BUSY = false ∧ (winDev .isOpen).zeroing = [] ∧
    (takeHeader (winDev .isOpen) hd).tagRuns.find? (fun r => r.port == 0 && r.peer == 5 && r.tag == 7) = none := by decide +kernel

/-- Stream 0 reads a window of device 5 with two packets. -/
def remoteDev : State :=
  { fabDev with
    tagRuns := [⟨0, 5, 7, 1, 0, 0, some ⟨0, 3, 1⟩⟩]
    streams := [⟨0, [], [], 0, none, [⟨0, [], [], 3, 2, [], false⟩], [], 0, none, false, false, none⟩] }

theorem wit_WindowsServeTheirPeer_response :
    (takeHeader remoteDev hd).tagRuns.find? (fun r => r.port == 0 && r.peer == 5 && r.tag == 7) = some ⟨0, 5, 7, 1, 0, 0, some ⟨0, 3, 1⟩⟩ ∧
    (remoteDev.stream 0).bind (fun y => y.reqs.find? (fun q => q.id == 3)) = some ⟨0, [], [], 3, 2, [], false⟩ ∧
    (takeHeader remoteDev hd).path 0 5 = some (path5 []) ∧ blocks256 256 < 2 ∧ 1 ≤ blocks256 256 ∧
    (takeHeader { remoteDev with tagRuns := [⟨0, 5, 7, 2, 0, 0, some ⟨0, 3, 1⟩⟩] } hd).tagRuns.find? (fun r => r.port == 0 && r.peer == 5 &&
      r.tag == 7) = some ⟨0, 5, 7, 2, 0, 0, some ⟨0, 3, 1⟩⟩ := by decide

/-- Stream 0 writes to a window of device 5 with so many packets that are out. -/
def writingDev (out : Nat) : State :=
  { remoteDev with streams := [⟨0, [], [], 0, none, [⟨0, [], [], 3, out, [], true⟩], [], 0, none, false, false, none⟩] }

theorem wit_WindowsServeTheirPeer_written :
    (takeHeader (writingDev 2) hd).tagRuns.find? (fun r => r.port == 0 && r.peer == 5 && r.tag == 7) = some ⟨0, 5, 7, 1, 0, 0, some ⟨0, 3, 1⟩⟩ ∧
    ((writingDev 2).stream 0).bind (fun y => y.reqs.find? (fun q => q.id == 3)) = some ⟨0, [], [], 3, 2, [], true⟩ ∧
    ((writingDev 1).stream 0).bind (fun y => y.reqs.find? (fun q => q.id == 3)) = some ⟨0, [], [], 3, 1, [], true⟩ ∧
    (takeHeader (writingDev 1) hd).path 0 5 = some (path5 []) := by decide

/-- Group 12 of devices 3 and 5 in slot 0, kind k, joined or not, root r. -/
def grpDev (k joined r : Nat) : State :=
  { setRegs (setFlds fabDev [(Fd.ILP_GROUP_ID 0, 12), (Fd.ILP_GROUP_KIND 0, k), (Fd.ILP_GROUP_JOINED 0, joined), (Fd.ILP_GROUP_ROOT 0, r)])
      [(Reg.ILP_ROSTER 0 0, 40)] with groups := if joined = 1 then [(0, [3, 5])] else [] }

/-- The same, of devices 1 and 3: device 1 is its root, at port 0. -/
def lowDev (joined : Nat) : State :=
  { setRegs (grpDev 0 joined 1) [(Reg.ILP_ROSTER 0 0, 10), (Reg.ILP_ROUTE 0, 8 * 2 ^ 4)] with groups := if joined = 1 then [(0, [1, 3])] else [] }

theorem wit_GroupsFormAndLeave : hostReady (grpDev 0 0 0) 0x3A (pk 0 12 2 0 0) = true ∧ unusedFrom (pk 0 12 2 0 0) 2 = none ∧
    vcList.find? (fun g => (grpDev 0 0 0).fld (Fd.ILP_GROUP_ID g) == 12 && (grpDev 0 0 0).fld (Fd.ILP_GROUP_KIND g) == 0 &&
      inRoster (grpDev 0 0 0) g (deviceId (grpDev 0 0 0))) = some 0 ∧ roster (grpDev 0 0 0) 0 = [3, 5] ∧ groupJoined (grpDev 0 0 0) 0 = false ∧
    joining (grpDev 0 0 0) 0 = false ∧ deviceId (grpDev 0 0 0) = 3 ∧ groupJoined (grpDev 0 1 3) 0 = true := by decide +kernel

theorem wit_GroupsFormAndLeave_ask : hostReady (lowDev 0) 0x3A (pk 0 12 2 0 0) = true ∧
    vcList.find? (fun g => (lowDev 0).fld (Fd.ILP_GROUP_ID g) == 12 && (lowDev 0).fld (Fd.ILP_GROUP_KIND g) == 0 &&
      inRoster (lowDev 0) g (deviceId (lowDev 0))) = some 0 ∧ roster (lowDev 0) 0 = [1, 3] ∧ ilpRoute (lowDev 0) 1 = some 0 ∧
    portPaths (lowDev 0) 0 < 256 := by decide +kernel

theorem wit_GroupsFormAndLeave_leave : hostReady (grpDev 0 1 3) 0x3B (pk 0 12 0 0 0) = true ∧ unusedFrom (pk 0 12 0 0 0) 1 = none ∧
    vcList.find? (fun g => groupJoined (grpDev 0 1 3) g && (grpDev 0 1 3).fld (Fd.ILP_GROUP_ID g) == 12) = some 0 ∧
    vcList.find? (fun g => groupJoined (grpDev 0 0 3) g && (grpDev 0 0 3).fld (Fd.ILP_GROUP_ID g) == 12) = none ∧
    groupRoot (grpDev 0 1 3) 0 = deviceId (grpDev 0 1 3) ∧ hostReady (lowDev 1) 0x3B (pk 0 12 0 0 0) = true ∧
    groupRoot (lowDev 1) 0 ≠ deviceId (lowDev 1) ∧ ilpRoute (lowDev 1) (groupRoot (lowDev 1) 0) = some 0 := by decide +kernel

/-- A join of another seed. -/
def join1 : JoinOp := ⟨12, [], 5, []⟩

theorem wit_GroupsFormAndLeave_packets : groupSlot (grpDev 1 1 3) 12 = some 0 ∧ inRoster (grpDev 1 1 3) 0 hd.src.toNat = true ∧
    groupAdapts (grpDev 1 1 3) 0 = true ∧ joinMismatch (grpDev 1 1 3) join1 = true ∧ joinMismatch (grpDev 1 1 3) { join1 with seed := 0 } = false ∧
    hd.src.toNat ∈ groupMembers (grpDev 1 1 3) 0 ∧ groupRoot (grpDev 0 1 5) 0 = hd.src.toNat ∧
    joining { lowDev 0 with cmds := [cmdOf 0x3A (pk 0 12 2 0 0)] } 0 = true ∧ joining (lowDev 0) 0 = false ∧
    ((takeHeader (grpDev 1 1 3) hd).path 0 5 = some (path5 [])) := by decide +kernel

/-- A packet of a reduction of INT64 lanes, with this device's participant, 11. -/
def red0 : ReduceOp := ⟨0, 0, 9, 0, 0, false, leBytes 8 (2 ^ 64 - 4), [[11]], [1, 1]⟩

theorem wit_WindowsServeTheirPeer_reduce : groupJoined (grpDev 0 1 3) red0.slot.val = true ∧
    (groupMembers (grpDev 0 1 3) red0.slot.val) = [deviceId (grpDev 0 1 3), 5] ∧ groupAdapts (grpDev 0 1 3) 0 = false ∧
    groupAdapts (grpDev 1 1 3) 0 = true ∧ groupJoined (grpDev 1 1 3) 0 = true ∧ (groupMembers (grpDev 1 1 3) 0).contains 5 = true ∧
    (grpDev 0 1 3).reductions = [] ∧ (grpDev 0 1 3).redIn = [] ∧ groupJoined (grpDev 0 0 3) 0 = false ∧
    red0.own = [[11]] ∧ (red0.counts.getD 1 0).toNat = 1 ∧ red0.payload.length = laneBytes 0 * 1 ∧ (takeHeader (grpDev 0 1 3) hd).path 0 5 = some (path5 []) := by decide +kernel

theorem wit_WindowsServeTheirPeer_own : ({ hd with src := 3 } : IlpHdr).src.toNat = deviceId (lowDev 1) ∧ groupJoined (lowDev 1) 0 = true ∧
    groupMembers (lowDev 1) 0 = [1, deviceId (lowDev 1)] ∧ 1 ≠ deviceId (lowDev 1) ∧ (red0.counts.getD 0 0).toNat = 1 ∧
    ilpRoute { lowDev 1 with paths := [{ path5 [] with peer := 1 }] } 1 = some 0 ∧
    (({ lowDev 1 with paths := [{ path5 [] with peer := 1 }] } : State).path 0 1).isSome = true ∧
    laneBytes 0 * 1 ≤ maxPayload (lowDev 1) 0 ∧ (lowDev 1).reductions = [] ∧ groupAdapts (lowDev 1) 0 = false := by decide +kernel

/-- R104, R382: INT64 lanes add modulo 2^64. -/
theorem test_reduce_int64 : (match exec (.iferikReduce hd red0) (grpDev 0 1 3) with
    | .next t => Tbl.get (fun _ => []) t.redOut 0
    | _ => []) = [7] := by decide +kernel
/-! ### Safety -/

/-- A slot of carrier 0: nothing has happened in it. -/
def slot0 : SlotCtx :=
  { id := 0, abs := 0, sfn := 0, slot := 0, seq := 0, t0 := 0, season := 0, bank := 0, ramp := 0, ul := true, dl := true, pshift := 0, dtx := 0, qrep := 0
    allocs := [], katDoubt := [], fbLayers := [], fbEn := true, configured := true, ffdEn := false, ffdAction := false, late := false, learned := true
    passed := [], radio := [], replied := false, dropped := none, deadline := false, cbs := [], route := (0, 0, 0), fbAnts := [], sups := [], supStart := []
    supFinish := [], supStartEnd := [], supFinishEnd := [], due := [], recs := [], feSums := [], fbSums := [], prach := [], sects := [], uci := [], fbLlrs := [] }

/-- A device whose carrier 0 is in that slot. -/
def slotDev (x : SlotCtx) : State := hostDev.setCar 0 { carReset 0 with slots := [x] }

/-- A carrier section with FB_EN, layer 0 and antenna 0. -/
def section1 : List Byte := [1, 1] ++ zeros 8 ++ [1] ++ zeros 53

/-- The first 60 bytes of a configuration block of KAT interval 32, and what stands between its CRC and its supervisor entries. -/
def blockA : List Byte := leBytes 4 1 ++ leBytes 4 8832 ++ [0, 1, 32] ++ zeros 49
def blockB : List Byte := (List.replicate 8 section1).flatten ++ zeros 24 ++ leBytes 4 1 ++ leBytes 4 1 ++ zeros 32

/-- The block, with a CRC and without supervisors. -/
def block (crc : Nat) : List Byte := (blockA ++ leBytes 4 crc ++ blockB) ++ zeros 8192

theorem head_length (c : Nat) : (blockA ++ leBytes 4 c ++ blockB).length = 640 := by
  have h : (leBytes 4 c).length = 4 := rfl
  rw [List.length_append, List.length_append, h, show blockA.length = 60 by decide +kernel, show blockB.length = 576 by decide +kernel]

theorem block_length (c : Nat) : (block c).length = 8832 := by
  rw [block, List.length_append, head_length, zeros, List.length_replicate]

/-- A field within the first 640 bytes is that of these bytes. -/
theorem leAt_head (a b : List Byte) (o n : Nat) (h : o + n ≤ a.length) : leAt (a ++ b) o n = leAt a o n := by
  unfold leAt
  rw [List.drop_append_of_le_length (by omega), List.take_append_of_le_length (by simp; omega)]

theorem head_field (c o n : Nat) (h : o + n ≤ 60) : leAt (block c) o n = leAt blockA o n := by
  have hl := head_length c
  have ha : blockA.length = 60 := by decide +kernel
  rw [block, leAt_head _ _ _ _ (by omega), List.append_assoc, leAt_head _ _ _ _ (by omega)]

theorem block_entry (c i : Nat) (h : i < 256) : supEntry (block c) i = zeros 32 := by
  have hl := head_length c
  rw [supEntry, block, List.drop_append, hl, show 640 + 32 * i - 640 = 32 * i by omega, List.drop_of_length_le (by rw [hl]; omega), List.nil_append,
    zeros, List.drop_replicate, List.take_replicate, Nat.min_eq_left (by omega)]
  rfl

theorem block_section (k c : Nat) (h : c < 8) : carSection (block k) c = section1 := by
  have hs : ∀ c < 8, (blockB.drop (64 * c)).take 64 = section1 := by decide +kernel
  have ha : (blockA ++ leBytes 4 k).length = 64 := by rw [List.length_append, show blockA.length = 60 by decide +kernel]; rfl
  have hb : blockB.length = 576 := by decide +kernel
  rw [carSection, block, List.append_assoc, List.drop_append, ha, List.drop_of_length_le (by omega), List.nil_append,
    show 64 + 64 * c - 64 = 64 * c by omega, List.drop_append_of_le_length (by omega), List.take_append_of_le_length (by rw [List.length_drop]; omega)]
  exact hs c h

theorem block_field (k o n : Nat) (h : o + n ≤ 576) : leAt (block k) (64 + o) n = leAt blockB o n := by
  have ha : (blockA ++ leBytes 4 k).length = 64 := by rw [List.length_append, show blockA.length = 60 by decide +kernel]; rfl
  have hb : blockB.length = 576 := by decide +kernel
  rw [leAt, block, List.append_assoc, List.drop_append, ha, List.drop_of_length_le (by omega), List.nil_append, show 64 + o - 64 = o by omega]
  exact leAt_head _ _ _ _ (by omega)

theorem block_ok : safetyBlockOk (block (crc32 (block 0))) = true := by
  have hc := crc32_lt (block 0)
  generalize hk : crc32 (block 0) = k at hc
  have hl := head_length k
  have h1 : leAt (block k) 0x3C 4 = k := by
    rw [block, leAt_head _ _ _ _ (by rw [hl]; decide)]
    exact leNat_leBytes4 k hc
  have h2 : (block k).take 0x3C ++ zeros 4 ++ (block k).drop 0x40 = block 0 := by
    rw [block, List.take_append_of_le_length (by rw [hl]; decide), List.drop_append_of_le_length (by rw [hl]; decide)]
    rfl
  have h3 : (List.range 256).all (fun i => supEntryOk (supEntry (block k) i)) = true := by
    rw [List.all_eq_true]
    intro i hi
    rw [block_entry k i (List.mem_range.mp hi)]
    decide
  have h4 : (List.range 8).all (fun c => carSectionOk (carSection (block k) c)) = true := by
    rw [List.all_eq_true]
    intro c hi
    rw [block_section k c (List.mem_range.mp hi)]
    decide
  have h5 : calWordsOk (calWords (block k)) = true := by
    have hw : calWords (block k) = (List.range 8).map (fun i => leAt blockB (512 + 4 * i) 4) :=
      List.map_congr_left (fun i hi => by
        have := List.mem_range.mp hi
        rw [show 0x240 + 4 * i = 64 + (512 + 4 * i) by omega]
        exact block_field k _ 4 (by omega))
    rw [hw]
    decide +kernel
  have h6 : leAt (block k) 0 4 = 1 ∧ leAt (block k) 4 4 = safetyLen ∧ leAt (block k) 9 1 = 1 ∧ leAt (block k) 10 1 = 32 := by
    rw [head_field k 0 4 (by decide), head_field k 4 4 (by decide), head_field k 9 1 (by decide), head_field k 10 1 (by decide)]
    decide +kernel
  unfold safetyBlockOk
  rw [h1, h2, h3, h4, h5, h6.1, h6.2.1, h6.2.2.1, h6.2.2.2, hk]
  simp

/-- The block lies at the start of the host memory of port 0. -/
def configDev : State := hostDev.putHost 0 0 (block (crc32 (block 0)))

/-- SAFETY_CONFIG of it. -/
def configPk0 : Pkt := pk 0 (2 ^ 50) 8832 0 0

theorem begun_host0 (s : State) (op : Nat) (p : Pkt) : (begun s op p).host0 = s.host0 := by
  simp [begun, setCmdPhase, intake]

theorem spaceRead_host0 (s : State) (o a n : Nat) : (spaceRead s o 1 a n).bytes = memRead s.host0 a n := rfl

theorem spaceRead_kept (s : State) (o a n : Nat) : (spaceRead s o 1 a n).fault = none ∧ (spaceRead s o 1 a n).poisoned = false := ⟨rfl, rfl⟩

theorem hostDev_host0 : hostDev.host0 = [] := by decide +kernel

theorem putHost_host0 (s : State) (bs : List Byte) : (s.putHost 0 0 bs).host0 = memWrite s.host0 0 bs := rfl

theorem wit_SafetyIsConfiguredAndForced_block :
    (spaceRead (begun configDev 0x58 configPk0) 0 1 0 safetyLen).bytes = block (crc32 (block 0)) ∧
    ((spaceRead (begun configDev 0x58 configPk0) 0 1 0 safetyLen).fault = none ∧
      (spaceRead (begun configDev 0x58 configPk0) 0 1 0 safetyLen).poisoned = false) ∧
    disarmsUnarmed (begun configDev 0x58 configPk0) (block (crc32 (block 0))) = false := by
  refine ⟨?_, spaceRead_kept _ _ _ _, by decide +kernel⟩
  have h := memRead_memWrite [] 0 (block (crc32 (block 0)))
  rw [block_length] at h
  have hm : (begun configDev 0x58 configPk0).host0 = memWrite [] 0 (block (crc32 (block 0))) :=
    (begun_host0 _ _ _).trans ((putHost_host0 hostDev _).trans (by rw [hostDev_host0]))
  rw [spaceRead_host0, hm]
  exact h

theorem wit_SafetyIsConfiguredAndForced : hostReady hostDev 0x58 configPk0 = true ∧ (begun hostDev 0x58 configPk0).flag Fd.SAF_STATUS_LOCKED = false ∧
    configPk0.p0.toNat < 2 ^ 52 ∧ unusedFrom configPk0 2 = none ∧ addrSpace configPk0.p0 = 1 ∧ addrBits configPk0.p0 = 0 ∧ spaceQuiet (begun configDev 0x58 configPk0) 1 = false ∧
    (List.range 8).all (fun c => !(configured hostDev c)) = true ∧
    (List.range 8).all (fun c => !(configured (setFlds hostDev [(Fd.TSU_CAR_V 0, 1), (Fd.FHP0_CAR_CFG_V 0, 1)]) c)) = false ∧
    safetyBlockOk [] = false ∧ (setFlds hostDev [(Fd.SAF_STATUS_LOCKED, 1)]).flag Fd.SAF_STATUS_LOCKED = true := by decide +kernel

/-- A supervisor of layers that are not safe, and a slot that it watches. -/
def sup0 : Sup := ⟨true, 0, 1, 2, 0, 0, 10, 0, 20⟩
def supSlot (start ended : List Nat) : SlotCtx := { slot0 with sups := [(0, sup0)], supStart := start, supStartEnd := ended }

theorem wit_SafetyIsConfiguredAndForced_force : hostReady hostDev 0x59 (pk 0 0x1FF 0 0 0) = true ∧ unusedFrom (pk 0 0x1FF 0 0 0) 1 = none ∧
    (∀ k < 8, bitOf 0x1FF k = true → hostDev.flag (Fd.TSU_CAR_V k) = false) ∧ (setFlds hostDev [(Fd.TSU_CAR_V 7, 1)]).flag (Fd.TSU_CAR_V 7) = true ∧
    hostReady (setFlds hostDev [(Fd.TSU_CAR_V 7, 1)]) 0x59 (pk 0 0x1FF 0 0 0) = true ∧
    (slotDev (supSlot [] [])).slotCtx 0 0 = some (supSlot [] []) ∧ (supSlot [] []).sups.find? (fun p => p.1 == 0) = some (0, sup0) ∧
    nowT hostDev < windowAt (supSlot [] []) sup0.startClose ∧
    windowAt (supSlot [] []) sup0.startClose ≤ nowT (setRegs hostDev [(Reg.TSU_ELAPSED, 1000)]) ∧ (slotDev slot0).slotCtx 0 1 = none ∧ (supSlot [0] []).supStart.contains 0 = true ∧ (supSlot [] [0]).supStartEnd.contains 0 = true := by
  decide +kernel

theorem wit_KnownAnswersAndFences : hostReady hostDev 0x50 (pk 0 1 0 0 0) = true ∧ unitParam 0x500 = some (0, 5) ∧ unitParam 6 = none ∧
    unusedFrom (pk 0 1 0 0 0) 2 = none ∧ hostDev.flag (Fd.MA_STATUS_UNAVAILABLE 0) = false ∧ unitUsed hostDev 0 0 = false ∧
    hostDev.fld Fd.KAT_STATUS_PENDING < 16 ∧ 16 ≤ (setFlds hostDev [(Fd.KAT_STATUS_PENDING, 16)]).fld Fd.KAT_STATUS_PENDING ∧
    hostReady hostDev 0x51 (pk 0 0 0 0 0) = true ∧ unusedFrom (pk 0 0 0 0 0) 1 = none ∧ unitFenced hostDev 0 0 = false ∧ hostDev.arrayJob 0 = none ∧
    hostReady (jobDev 2) 0x51 (pk 0 0 0 0 0) = true ∧ (jobDev 2).arrayJob 0 = some (job1, 0) ∧ (jobDev 2).jobPort job1 = 0 ∧ job1.reserve = [] ∧
    (jobDev 2).owner.isSome = true ∧ unitParam 3 = some (3, 0) ∧ unitParam 2 = some (2, 0) ∧ (0, 0) ∈ job1.lv ∧
    ({ job1 with reserve := [5] } : Job).reserve = 5 :: [] := by decide +kernel

/-- Array 0 is fenced, and its year since then is complete. -/
def yearDev : State := setFlds (setRegs hostDev [(Reg.KAT_FENCED 0, 1)]) [(Fd.KAT_ARRAY_YEAR_OK 0, 1)]

/-- The START window of a SAFE supervisor of carrier 0 opens at once. -/
def openedDev : State := slotDev { slot0 with sups := [(0, { sup0 with safe := true, startOpen := 0 })] }

/-- The interval of array 5 began just now. -/
def intervalDev : State := { hostDev with katFrom := [(5, nowT hostDev)] }

/-- Array 0 is in doubt: a decision is in its first step. -/
def doubtDev : State := { hostDev with decisions := [⟨0, false, 1, 1, 0, 0, 0, 0, [], none⟩] }

theorem wit_KnownAnswersAndFences_unfence : hostReady yearDev 0x52 (pk 0 0 0 0 0) = true ∧ unitFenced yearDev 0 0 = true ∧
    yearDone yearDev 0 0 = true ∧ yearDone hostDev 0 0 = false ∧
    unfenceForeign yearDev 0 0 0 = false ∧ hostDev.fld Fd.PMU_STATE_STATE = 0 ∧ hostDev.decision false 0 = none ∧
    doubtDev.decision false 0 = some ⟨0, false, 1, 1, 0, 0, 0, 0, [], none⟩ ∧ (setFlds hostDev [(Fd.PMU_STATE_STATE, 2)]).fld Fd.PMU_STATE_STATE = 2 ∧
    hostDev.flag (Fd.KAT_ARRAY_DECISION 0) = false ∧ hostDev.flag (Fd.KAT_ARRAY_FAILED 0) = false ∧ hostDev.flag (Fd.KAT_ARRAY_KAT_OVERDUE 0) = false ∧
    hostDev.fld (Fd.KAT_ARRAY_PASSED 0) ≠ 0xFFF ∧ (setFlds hostDev [(Fd.KAT_ARRAY_PASSED 0, 0xFFF)]).fld (Fd.KAT_ARRAY_PASSED 0) = 0xFFF ∧
    (setFlds hostDev [(Fd.KAT_VE_PASSED 0, 0xFFF)]).fld (Fd.KAT_VE_PASSED 0) = 0xFFF ∧ hostDev.fld (Fd.KAT_VE_PASSED 0) ≠ 0xFFF ∧
    sliceDue hostDev 0 95 = true ∧ sliceDue (setFlds hostDev [(Fd.MA_STATUS_FROZEN 95, 1)]) 0 95 = false ∧ unitCount 9 = 4 ∧ unitCount 0 = 96 ∧
    safeOpened hostDev = false ∧ safeOpened openedDev = true ∧ sliceDue openedDev 0 95 = true ∧
    nowT hostDev < Tbl.get (fun _ => 0) intervalDev.katFrom 5 + hostDev.safe.katInterval * 1875000 ∧
    Tbl.get (fun _ => 0) hostDev.katFrom 5 + ({ hostDev with safe := { hostDev.safe with katInterval := 0 } } : State).safe.katInterval * 1875000 ≤ nowT hostDev ∧
    Tbl.get (fun _ => 0) ({ hostDev with otherYear := [(256 * 31 + 8, 2 ^ 11)] } : State).otherYear (256 * 31 + 8) &&& yearSets 8 = yearSets 8 ∧
    Tbl.get (fun _ => 0) hostDev.otherYear (256 * 31 + 8) &&& yearSets 8 ≠ yearSets 8 := by decide +kernel

/-- R227: line 15 of a channel lies in its second block. -/
theorem test_scrub_block : scrubAddr (.channel 1) 0 15 = 33 * 960 ∧ scrubAddr (.channel 31) 0 (15 * 2 ^ 22 - 1) = 0x1E00000000 - 64 := by decide

/-- Deterministic mode with a reference beat. -/
def detDev : State := setFlds (jobDev 2) [(Fd.DET_CTRL_MODE, 1), (Fd.DET_STATUS_REF_V, 1)]

theorem wit_UpkeepInTheBackground : hostDev.fld Fd.PMU_STATE_STATE ≠ 2 ∧ scrubOn hostDev (.channel 31) 0 = true ∧
    scrubOn (setRegs hostDev [(Reg.DMMU_SSP_ON, 0)]) (.ssp 0) 0 = false ∧ hostDev.poison = [] ∧ hostDev.upsets = [] ∧ hostDev.oabPoison = [] ∧
    hostDev.ctlPoison = [] ∧ 0 + 1 < scrubLines (.oab 95) ∧ scrubLines (.ve 0) ≤ 4095 + 1 ∧ fallbackMemory hostDev (scrubAddr (.dsc 11) 0 0) = false ∧ (∀ r < 7, ledgerHolds (dev [(Fd.BOOT_STATE_STATE, 4)]) r = true) ∧
    (List.range 7).find? (fun r => !(ledgerHolds (dev [(Fd.PORT_CMD_FREE 0, 0)]) r)) = some 0 ∧ hostDev.det = false ∧ detDev.det = true ∧
    detDev.flag Fd.DET_STATUS_REF_V = true ∧ scheduledBeat detDev ⟨0, 10000, 2, false⟩ < entryBeat detDev ⟨0, 10000, 2, false⟩ ∧
    (jobDev 2).det = false ∧ (jobDev 2).owner.isSome = true := by decide +kernel
/-! ### Time -/

/-- The servo is on with a source. -/
def servoDev (st : Nat) : State := setFlds hostDev [(Fd.TSU_CTRL_SERVO_EN, 1), (Fd.TSU_CTRL_SRC, 1), (Fd.TSU_STATUS_STATE, st)]

theorem wit_DeviceTimeAndItsServo : hostReady hostDev 0x60 (pk 0 1 2 0 0) = true ∧ servoHolds hostDev = false ∧ unusedFrom (pk 0 1 2 0 0) 2 = none ∧
    servoHolds (servoDev 1) = true ∧ hostReady (servoDev 1) 0x60 (pk 0 1 2 0 0) = true ∧ hostReady hostDev 0x61 (pk 0 1 2 0 0) = true ∧
    (1 : Word).toInt.natAbs ≤ 1000000000 * 65536 ∧ 0 ≤ (hostDev.devTime : Int) + (1 : Word).toInt * 2 ^ 32 ∧
    (2 : Word).toInt.natAbs ≤ hostDev.regN Reg.TSU_RATE_MAX ∧ hostDev.regN Reg.TSU_RATE_MAX < (2 ^ 40 : Word).toInt.natAbs ∧
    (hostDev.devTime : Int) + (-1 : Word).toInt * 2 ^ 32 < 0 := by decide +kernel

theorem wit_DeviceTimeAndItsServo_offset : writePasses hostDev 4 Reg.TSU_OFFSET = true ∧ writePasses (setRegs hostDev
      [(Reg.FW_DEFAULT_WMASK, 2 ^ 64 - 1)]) 5 Reg.TSU_OFFSET = true ∧ writePasses (servoDev 1) 0 Reg.TSU_OFFSET = true ∧
    (servoDev 1).fld Fd.TSU_STATUS_STATE ≠ 3 ∧ (servoDev 3).fld Fd.TSU_STATUS_STATE = 3 ∧
    (servoDev 1).flag Fd.TSU_CTRL_STEP_EN = true ∧ (setFlds (servoDev 1) [(Fd.TSU_CTRL_STEP_EN, 0)]).flag Fd.TSU_CTRL_STEP_EN = false ∧
    (servoDev 1).regN Reg.TSU_STEP_THRESH * 65536 < (2 ^ 62 : Word).toInt.natAbs ∧
    (2 ^ 62 : Word).toInt * 2 ^ 32 ≤ (({ servoDev 1 with devTime := 2 ^ 95 } : State).devTime : Int) ∧
    (servoDev 1).regN Reg.TSU_RATE_MAX < 2 ^ 31 := by decide +kernel

theorem wit_DeviceTimeAndItsServo_events : holdoverDue (setFlds (servoDev 2) [(Fd.TSU_CTRL_HOLD, 1)]) = true ∧
    (setFlds (servoDev 2) [(Fd.TSU_CTRL_HOLD, 1)]).flag Fd.TSU_CTRL_SERVO_EN = true ∧ holdoverDue hostDev = false ∧
    hostDev.tsu.rates.length < 1000 ∧ hostDev.elapsed / 156250000 ≤ hostDev.tsu.rateSec ∧
    hostDev.tsu.rateSec < (setRegs hostDev [(Reg.TSU_ELAPSED, 156250000)]).elapsed / 156250000 ∧
    hostDev.devTime % secondUnits < edgeUnits hostDev ∧ edgeUnits hostDev ≤ (2 ^ 60) % secondUnits ∧ (servoDev 1).flag Fd.TSU_CTRL_HOLD = false ∧
    (setFlds (servoDev 1) [(Fd.TSU_CTRL_SRC, 2)]).fld Fd.TSU_CTRL_SRC = 2 ∧
    (Frac.rne ⟨(156250000 - ((156250001 : Word32).toNat : Int)) * 2 ^ 32, (156250001 : Word32).toNat⟩).natAbs ≤ hostDev.regN Reg.TSU_RATE_MAX ∧
    hostDev.flag Fd.TSU_PPS_CFG_OUT_EN = false ∧ (setFlds hostDev [(Fd.TSU_PPS_CFG_OUT_EN, 1)]).flag Fd.TSU_PPS_CFG_OUT_EN = true ∧
    hostDev.tsu.todDue = none ∧ hostDev.tsu.ppsIn = none ∧ hostDev.flag Fd.TSU_TOD_CFG_RX_EN = false := by decide +kernel

/-- Time-of-day messages are on; the label of second 5 is due, and a PPS_IN edge has come. -/
def todDev : State :=
  { setFlds hostDev [(Fd.TSU_TOD_CFG_TX_EN, 1), (Fd.TSU_TOD_CFG_RX_EN, 1)] with
    tsu := { hostDev.tsu with todDue := some (5, 0), ppsIn := some (0, 0) } }

theorem wit_DeviceTimeAndItsServo_tod : todDev.tsu.todDue = some (5, 0) ∧ todDev.elapsed < 0 + 1562500 ∧
    0 + 1562500 ≤ (setRegs todDev [(Reg.TSU_ELAPSED, 1562500)]).elapsed ∧ todDev.tsu.ppsVoid = false ∧ todDev.flag Fd.TSU_TOD_CFG_TX_EN = true ∧ todDev.flag Fd.TSU_TOD_CFG_RX_EN = true ∧
    todDev.fld Fd.TSU_CTRL_SRC ≠ 1 ∧
    todGood todDev ([0x42, 0x54] ++ List.replicate 12 0 ++ beBytes 2 (crc16 ([0x42, 0x54] ++ List.replicate 12 0))) = true := by decide +kernel

/-- The same, for the servo that PPS_IN drives. -/
def todServo : State :=
  { setFlds (servoDev 1) [(Fd.TSU_TOD_CFG_RX_EN, 1)] with devTime := 2 ^ 80, tsu := { hostDev.tsu with ppsIn := some (0, 2 ^ 80) } }

theorem wit_DeviceTimeAndItsServo_label : todServo.flag Fd.TSU_TOD_CFG_RX_EN = true ∧ todServo.fld Fd.TSU_CTRL_SRC = 1 ∧ todServo.tsu.ppsVoid = false ∧
    ({ todServo with tsu := { todServo.tsu with ppsVoid := true } } : State).tsu.ppsVoid = true ∧ servoHolds todServo = true ∧
    todServo.fld Fd.TSU_STATUS_STATE ≠ 3 ∧ todServo.tsu.ppsIn = some (0, 2 ^ 80) ∧ servoHolds todDev = false ∧
    todGood todServo ([0x42, 0x54] ++ List.replicate 12 0 ++ beBytes 2 (crc16 ([0x42, 0x54] ++ List.replicate 12 0))) = true := by decide +kernel
/-! ### Firmware, attestation, power -/

/-- The device awaits firmware. -/
def awaitDev : State := setFlds hostDev [(Fd.BOOT_STATE_STATE, 1)]

/-- FW_LOAD of n bytes at the start of the host memory of port 0. -/
def fwPk (n : Word) : Pkt := pk 0 (2 ^ 50) n 0 0

theorem wit_FirmwareAttestationAndPower : hostReady awaitDev 0x70 (fwPk 11952) = true ∧ hostReady hostDev 0x70 (fwPk 11952) = true ∧ hostDev.fld Fd.BOOT_STATE_STATE ≠ 1 ∧
    awaitDev.fld Fd.BOOT_STATE_STATE = 1 ∧ (fwPk 11952).p0.toNat < 2 ^ 52 ∧ addrSpace (fwPk 11952).p0 ≠ 0 ∧ (fwPk 11952).p2.toNat < 2 ∧
    unusedFrom (fwPk 11952) 3 = none ∧ spaceQuiet (begun awaitDev 0x70 (fwPk 11952)) (addrSpace (fwPk 11952).p0) = false ∧
    (spaceRead (awaitDev.setFld Fd.BOOT_STATE_STATE 2) 0 1 0 256).poisoned = false ∧ fwHeaderOk [] 256 = false ∧
    (setFlds hostDev [(Fd.BOOT_STATE_STATE, 3)]).fld Fd.BOOT_STATE_STATE = 3 := by decide +kernel

/-- The header of an image of 4,096 signed bytes whose five sections are empty. -/
def fwHead : List Byte :=
  leBytes 4 0x57465942 ++ leBytes 4 1 ++ leBytes 4 4096 ++ leBytes 4 3 ++ leBytes 4 9 ++ leBytes 4 0xB09624 ++ zeros 8 ++
    ([1, 2, 3, 4, 5].map (fun t => leBytes 4 t ++ leBytes 4 256 ++ zeros 8)).flatten ++ zeros 16 ++ zeros 128

/-- The image, without a key table. -/
def fwImg : List Byte := fwHead ++ zeros 11696

/-- It lies at the start of the host memory of port 0. -/
def fwDev : State := awaitDev.putHost 0 0 fwImg

theorem fwImg_length : fwImg.length = 11952 := by
  rw [fwImg, List.length_append, show fwHead.length = 256 by decide +kernel, zeros, List.length_replicate]

theorem wit_FirmwareAttestationAndPower_image : fwHeaderOk fwImg 11952 = true ∧ keyTable (fwImg.drop (leAt fwImg 8 4 + 7856)) = some (false, []) ∧
    (spaceRead ((begun fwDev 0x70 (fwPk 11952)).setFld Fd.BOOT_STATE_STATE 2) 0 1 0 11952).bytes = fwImg := by
  refine ⟨by decide +kernel, ?_, ?_⟩
  · have h : leAt fwImg 8 4 = 4096 := by decide +kernel
    exact (congrArg keyTable (by rw [h, List.drop_of_length_le (by first | (rw [fwImg_length]; done) | (rw [fwImg_length]; decide))])).trans (by decide : keyTable [] = some (false, []))
  · have h := memRead_memWrite [] 0 fwImg
    rw [fwImg_length] at h
    have hm : ((begun fwDev 0x70 (fwPk 11952)).setFld Fd.BOOT_STATE_STATE 2).host0 = memWrite [] 0 fwImg := by
      rw [setFld_host0, begun_host0, fwDev, putHost_host0, show awaitDev.host0 = [] by decide +kernel]
    rw [spaceRead_host0, hm]
    exact h

/-- A device with an identity whose certificate is good, of 26,048 bytes of buffer. -/
def identDev : State := { setFlds hostDev [(Fd.BOOT_STATE_CERT_OK, 1)] with identity := some [] }
def attestPk (n : Word) : Pkt := pk 0 (2 ^ 50) (2 ^ 51) n 0

theorem wit_FirmwareAttestationAndPower_attest : hostReady hostDev 0x71 (attestPk 26048) = true ∧ hostReady identDev 0x71 (attestPk 26048) = true ∧
    addrSpace (attestPk 26048).p0 = 1 ∧ addrSpace (attestPk 26048).p1 = 2 ∧ unusedFrom (attestPk 26048) 3 = none ∧ hostDev.identity = none ∧
    identDev.identity.isSome = true ∧
    spaceQuiet (begun identDev 0x71 (attestPk 26048)) 1 = false ∧ spaceQuiet (begun identDev 0x71 (attestPk 26048)) 2 = false ∧ identDev.flag Fd.BOOT_STATE_CERT_OK = true ∧ (26047 : Word).toNat < 26048 := by decide +kernel

/-- The device idles. -/
def idleDev : State := setFlds hostDev [(Fd.PMU_STATE_STATE, 1)]

theorem wit_FirmwareAttestationAndPower_power : hostReady hostDev 0x7F (pk 0 8 0 0 0) = true ∧ unusedFrom (pk 0 8 0 0 0) 1 = none ∧
    hostReady idleDev 0x7F (pk 0 0 0 0 0) = true ∧ idleDev.fld Fd.PMU_STATE_STATE = 1 ∧ hostDev.fld Fd.PMU_STATE_STATE = 0 ∧
    anyJob (begun hostDev 0x7F (pk 0 1 0 0 0)) [2] = false ∧ anyTick hostDev = false ∧ anyJob (begun (jobDev 2) 0x7F (pk 0 1 0 0 0)) [2] = true ∧
    anyJob (begun hostDev 0x7F (pk 0 2 0 0 0)) [1, 2, 3] = false ∧ hostDev.windows = [] ∧ hostDev.groups = [] ∧ hostDev.cmds = [] ∧
    hostDev.streams = [] ∧ hostDev.jobs = [] ∧ hostReady (waiting 1 { pk 0 0 0 0 0 with queue := 1 } hostDev) 0x7F (pk 0 2 0 0 0) = true := by
  decide +kernel
/-! ### Array sequencers -/

/-- Array 0 of the job runs; register S1 holds x, S2 y, S3 z, S4 w. -/
def seqDev (x y z w : Nat) : State :=
  setRegs (setFlds (jobDev 2) [(Fd.MA_STATUS_RUN 0, 1)])
    [(Reg.MA_SEQ_S 0 1, x), (Reg.MA_SEQ_S 0 2, y), (Reg.MA_SEQ_S 0 3, z), (Reg.MA_SEQ_S 0 4, w)]

/-- Operands S1, S2, S3, with D and flags. -/
def fa (d : BitVec 4) (flags : BitVec 10) : FmtA := ⟨d, 1, 2, 3, flags⟩

theorem issues_seqDev : seqIssues (seqDev 1 0 0 0) 0 ∧ (seqDev 1 0 0 0).regN (Reg.MA_SEQ_PC 0) = 0 ∧ seqReady (jobDev 2) 0 = false := by
  unfold seqIssues
  decide +kernel

/-- The array is mapped; its program is the instruction of a word. -/
def standDev (w : Nat) : State := setRegs (setFlds (seqDev 1 0 0 0) [(Fd.MA_ID_MAPPED 0, 1)]) [(Reg.MA_PROG 0 0, w)]

/-- NOP is 0x01 in bits 31 to 26 (R82, Table 3.7). -/
theorem stands_standDev : seqStands (standDev 0x04000000) 0 (.seqNop 0 ⟨0, 0, 0, 0, 0⟩) = true ∧
    seqStands (standDev 0x04000000) 0 (.seqHalt 0 ⟨0, 0, 0, 0, 0⟩) = false ∧ seqIllegal (standDev 0x04000000) 0 = false ∧
    seqReady (standDev 0x04000000) 0 = true ∧ (standDev 0x04000000).pcOut.contains 0 = false := by decide +kernel

theorem wit_SequencersIssueAndDrain : modeBad 0 = false ∧ modeBad 512 = true ∧ (PMode.ofNat 0x100).stats = true ∧ modeBad 0x100 = false ∧
    wrapN 32 ((sreg (seqDev 2 0 0 0) 0 1 : Int) - 1) ≠ 0 ∧ sreg (seqDev 1 0 0 0) 0 1 = 1 ∧ sreg (seqDev 1 0 0 0) 0 0 = 0 ∧
    sreg (seqDev 64 128 1 0) 0 1 < diagBase ∧ diagBase ≤ sreg (seqDev diagBase 0 0 0) 0 1 ∧ (0 : Int) + (-1 : BitVec 18).toInt < 0 ∧
    ((3 : Nat) : Int) = (0 : Int) + (3 : BitVec 18).toInt := by decide +kernel

theorem wit_SequencersIssueAndDrain_tile : ((seqDev 64 64 1 0).arrOf 0).staged.length < 2 ∧
    (tileRead (seqDev 64 64 1 0) 0 64 64 (PMode.ofNat 0).weightBytes (PMode.ofNat 0).channels).2.1 = false ∧
    64 + ((PMode.ofNat 0).channels - 1) * 64 + (PMode.ofNat 0).weightBytes ≤ diagBase ∧
    (lspRead (seqDev 64 64 1 0) 0 64 16).poisoned = false ∧
    dqRecordOk (leAt (lspRead (seqDev 64 64 1 0) 0 64 16).bytes 0 4) (leAt (lspRead (seqDev 64 64 1 0) 0 64 16).bytes 4 4)
      (leAt (lspRead (seqDev 64 64 1 0) 0 64 16).bytes 8 4) = true ∧ sreg (seqDev 64 64 1 128) 0 1 < sspSize := by decide +kernel

/-- A tile of zeros, and a pass of one M row with it. -/
def tile0 : Tile := ⟨0, false, []⟩
def pass0 : Pass := { pc := 0, addr := 64, stride := 64, base := 0, rows := 1, acc := true, dq := false, pmode := 0, neww := true, slot := none, layer := 0, scales := ⟨0, 0, 0⟩
                      dest := ⟨0, 0, 0, 0, false⟩, dqMode := 0, g := 0, h := 0, sout := 0, tile := some tile0, count := 0, next := 0
                      mismatched := false }

/-- Array 0 with staged tiles and queued passes. -/
def queueDev (staged : List Tile) (passes : List Pass) : State :=
  { seqDev 64 0 1 64 with arr := [(0, { arrReset 0 with staged := staged, passes := passes })] }

theorem wit_SequencersIssueAndDrain_pass :
    passRangeOk (queueDev [tile0] []) 0 (PMode.ofNat ((queueDev [tile0] []).regN (Reg.MA_PMODE 0))) false 64 64 0 1 = true ∧
    ((queueDev [tile0] []).arrOf 0).staged = [tile0] ∧ tileFits tile0 (PMode.ofNat ((queueDev [tile0] []).regN (Reg.MA_PMODE 0))) = true ∧
    ((queueDev [tile0] []).arrOf 0).staged[((queueDev [tile0] []).arrOf 0).claimed]? = some tile0 ∧ 0 < sreg (queueDev [tile0] []) 0 3 ∧
    ((queueDev [tile0] []).arrOf 0).passes.length < 4 ∧ 4 ≤ ((queueDev [] (List.replicate 4 pass0)).arrOf 0).passes.length ∧
    ((queueDev [] []).arrOf 0).staged = [] ∧ bitOf (1 : BitVec 10).toNat 0 = true := by decide +kernel

theorem wit_SequencersIssueAndDrain_spill : sreg (seqDev 0 128 2 0) 0 3 ≤ 4096 ∧ 0 / 4096 = (0 + 2 - 1) / 4096 ∧
    lspWritable (seqDev 0 128 2 0) 0 128 16 = true ∧ oabBad (seqDev 0 128 2 0) 0 0 2 = false ∧
    (∀ q < 2, bankOn (seqDev 0 128 2 0) (lspBase 0 + 128 + 8 * q) = true) ∧
    (seqDev 0 128 2 0).flag Fd.BOOT_ZERO_SRAM_BUSY = false ∧ ((seqDev 0 128 2 0).arrOf 0).passes = [] ∧
    ((queueDev [] [pass0]).arrOf 0).passes ≠ [] := by decide +kernel

/-- Object 5 of the job: type, value. -/
def seqObjDev (type value : Nat) : State :=
  setRegs (seqDev 5 0 0 0) [(Reg.SYN_OBJ_W0 5, type * 2 ^ 30 + 1 * 2 ^ 20), (Reg.SYN_OBJ_W1 5, value)]

theorem wit_SequencersIssueAndDrain_sync : fmtSObject (seqObjDev 1 0) 0 ⟨1, 0, true, 0⟩ = 5 ∧ objOfJob (seqObjDev 1 0) 5 (arrayHandle (seqObjDev 1 0) 0) = true ∧
    objOfJob (seqDev 5 0 0 0) 5 (arrayHandle (seqDev 5 0 0 0) 0) = false ∧ (seqObjDev 1 0).slotOf 0 = none ∧ objType (seqObjDev 1 0) 5 = 1 ∧
    waitersOf (seqObjDev 1 0) 5 = [] ∧ isRetention (seqObjDev 1 0) 5 = false ∧ objValue (seqObjDev 1 0) 5 < 2 ^ 24 - 1 ∧
    waitSatisfied (seqObjDev 1 0) 5 = false ∧ waitSatisfied (seqObjDev 1 1) 5 = true ∧ objType (seqObjDev 1 1) 5 ≠ 3 ∧
    (seqDev 0 0 0 0).arrayJob 0 = some (job1, 0) ∧ job1.pausing = false ∧ (seqDev 0 0 0 0).arrayJob 1 = none := by decide +kernel

theorem wit_SequencersIssueAndDrain_drain : (queueDev [] [pass0]).flag (Fd.MA_STATUS_FROZEN 0) = false ∧
    (queueDev [] [pass0]).flag (Fd.MA_STATUS_FENCED 0) = false ∧ ((queueDev [] [pass0]).arrOf 0).passes = pass0 :: [] ∧
    (PMode.ofNat pass0.pmode).stats = false ∧ (PMode.ofNat pass0.pmode).pairRows = false ∧ pass0.tile = some tile0 ∧
    (queueDev [] [pass0]).flag (Fd.MA_STATUS_CHK_FENCED 0) = false ∧ (queueDev [] [pass0]).slotOf 0 = none ∧
    (queueDev [] [pass0]).poison = [] ∧ (queueDev [] [pass0]).oabPoison = [] ∧ (queueDev [] [pass0]).upsets = [] ∧ pass0.slot = none := by decide +kernel
/-! ### Vector engines -/

/-- Engine 0 of the job runs; register X1 holds a, X2 b, X3 c. -/
def engDev (a b c : Nat) : State :=
  setRegs (setFlds (jobDev 2) [(Fd.VE_STATUS_RUN 0, 1)]) [(Reg.VE_X 0 1, a), (Reg.VE_X 0 2, b), (Reg.VE_X 0 3, c)]

theorem issues_engDev : veIssues (engDev 0 0 0) 0 ∧ (engDev 0 0 0).regN (Reg.VE_PC 0) = 0 ∧ veReady (jobDev 2) 0 = false := by
  unfold veIssues
  decide +kernel

/-- The engine is mapped; its program is the instruction of a word. -/
def standEng (w : Nat) : State := setRegs (setFlds (engDev 0 0 0) [(Fd.VE_ID_MAPPED 0, 1)]) [(Reg.VE_PROG 0 0, w)]

/-- NOP is 0x01 in bits 63 to 56 (R119, Table 5.3). -/
theorem stands_standEng : veStands (standEng (2 ^ 56)) 0 (.veNop 0 ⟨0, 0, 0, 0, 0, 0, 0, 0, 0⟩) = true ∧
    veStands (standEng (2 ^ 56)) 0 (.veHalt 0 ⟨0, 0, 0, 0, 0, 0, 0, 0, 0⟩) = false ∧ veIllegal (standEng (2 ^ 56)) 0 = false ∧
    veReady (standEng (2 ^ 56)) 0 = true ∧ veStands (engDev 0 0 0) 0 (.veHalt 0 ⟨0, 0, 0, 0, 0, 0, 0, 0, 0⟩) = true := by decide +kernel

/-- A VGET of 64 bytes at virtual 0x1000 to engine address 128. -/
def xfer0 (put : Bool) : VeXfer := ⟨0, put, 128, 0x1000, 64, 0, 3⟩

/-- The engine on a job with tables, with a transfer. -/
def xferDev (put : Bool) : State := { setFlds (tabled 2) [(Fd.VE_STATUS_RUN 0, 1)] with veXfers := [xfer0 put] }

theorem wit_EnginesIssueAndTransfer : wrapN 32 ((xreg (engDev 2 0 0) 0 1 : Int) - 1) ≠ 0 ∧ xreg (engDev 1 0 0) 0 1 = 1 ∧
    xferOk 128 0x1000 64 = true ∧ xferOk 128 0x1000 63 = false ∧ (xfersOf (engDev 0 0 0) 0).length < 8 ∧
    8 ≤ (xfersOf { engDev 0 0 0 with veXfers := List.replicate 8 (xfer0 false) } 0).length ∧ xfersOf (xferDev false) 0 = xfer0 false :: [] ∧
    (engDev 0 0 0).engineJob 0 = some (job1, 0) ∧ job1.pausing = false ∧ 128 + 64 ≤ veDiagBase := by decide +kernel

/-- Object 5 of the job: type, value. -/
def engObjDev (type value : Nat) : State :=
  setRegs (engDev 5 0 0) [(Reg.SYN_OBJ_W0 5, type * 2 ^ 30 + 1 * 2 ^ 20), (Reg.SYN_OBJ_W1 5, value)]

theorem wit_EnginesIssueAndTransfer_sync : veObject (engObjDev 1 0) 0 ⟨0, 0, 0, 1, 0, 0, 0, 1, 0⟩ = 5 ∧ objOfEngine (engObjDev 1 0) 0 5 = true ∧
    objOfEngine (engDev 5 0 0) 0 5 = false ∧ (engObjDev 1 0).slotOf 96 = none ∧ waitersOf (engObjDev 1 0) 5 = [] ∧ isRetention (engObjDev 1 0) 5 = false ∧
    waitSatisfied (engObjDev 1 0) 5 = false ∧ waitSatisfied (engObjDev 1 1) 5 = true ∧ objType (engObjDev 1 1) 5 = 1 := by decide +kernel

theorem wit_EnginesIssueAndTransfer_complete : (virtRead (xferDev false) 33 0x1000 64).fault = none ∧ (virtRead (xferDev false) 33 0x1000 64).poisoned = false ∧
    (virtRead (xferDev false) 33 0x1000 64).state.flag Fd.BOOT_ZERO_SRAM_BUSY = false ∧ (virtRead (xferDev false) 33 0x3000 64).fault.isSome = true ∧
    (virtWrite (portRead (xferDev true) 33 (veBase 0 + 128) 64).state 33 0x1000 (portRead (xferDev true) 33 (veBase 0 + 128) 64).bytes).fault = none ∧
    (portRead (xferDev true) 33 (veBase 0 + 128) 64).poisoned = false := by decide +kernel
/-! ### Vector operations -/

/-- The engine with VLEN 16 and operands at 0, 4,096 and 8,192; the destination at 12,288. -/
def vecDev (len : Nat) : State :=
  setRegs (engDev 0 4096 8192) [(Reg.VE_X 0 4, 12288), (Reg.VE_X 0 5, 16384), (Reg.VE_VLEN 0, len)]

/-- XD = X4, XA = X1, XB = X2, XC = X3, between elements of two types. -/
def vf (st dt : BitVec 4) : VFields := ⟨dt, st, 4, 1, 2, 3, 0, 0, 0⟩

theorem issues_vecDev : veIssues (vecDev 16) 0 := by
  unfold veIssues
  decide +kernel

theorem form_vadd : ∃ srcs dsts outs evs, VecForm (vecDev 16) 0 (vf 2 2) (.vadd 0 (vf 2 2) none) srcs dsts 64 outs evs :=
  ⟨_, _, _, _, .binary _ .add _ ⟨by decide, Or.inl ⟨rfl, rfl, by decide⟩⟩ rfl⟩

theorem form_vtopk : ∃ srcs dsts outs evs, VecForm (vecDev 16) 0 { vf 2 2 with imm := 3, xb := 5 } (.vtopk 0 { vf 2 2 with imm := 3, xb := 5 }) srcs dsts 64 outs evs :=
  ⟨_, _, _, _, .top _ 3 (by decide) rfl (by decide) (by decide) (by decide) rfl⟩

theorem wit_VectorOperationsComplete : (vecDev 16).regN (Reg.VE_VLEN 0) = 16 ∧ (vecDev 0).regN (Reg.VE_VLEN 0) = 0 ∧ (vecDev 16).regN (Reg.VE_PC 0) < 1023 ∧
    vRangesOk (vecAB (vecDev 16) 0 (vf 2 2) 2) [vecAt (vecDev 16) 0 4 2] 64 = true ∧
    vHazard (vecDev 16) 0 (vecAB (vecDev 16) 0 (vf 2 2) 2) [vecAt (vecDev 16) 0 4 2] = false ∧
    (∀ r ∈ vecAB (vecDev 16) 0 (vf 2 2) 2, poisoned (vecDev 16) (veBase 0 + r.1) r.2 = false) ∧ (vecDev 16).flag Fd.BOOT_ZERO_SRAM_BUSY = false ∧
    vRangesOk [(1, 64)] [] 64 = false ∧ vHazard { vecDev 16 with veXfers := [⟨0, false, 12288, 0, 64, 0, 0⟩] } 0 [] [(12288, 64)] = true ∧
    vBad (vf 2 2) 0x80 = false ∧ vTypes (vf 2 2) vtArith = true ∧ (vecDev 16).resStopped.contains 0 = false ∧
    (vecDev 16).flag (Fd.KAT_VE_DECISION 0) = false ∧ (vecDev 16).poison = [] ∧ vBad { vf 2 2 with rnd := 1 } 0x80 = true := by decide +kernel

theorem wit_VectorOperationsComplete_vdq : (dqRecord ((vecDev 16).bytes (veBase 0 + 8192) 32)).ok = true ∧
    vRangesOk [(0, 128), (4096, 16), (8192, 32)] [(12288, vdqRowBytes ((dqRecord ((vecDev 16).bytes (veBase 0 + 8192) 32)).mode % 8) 16)] 64 = true ∧
    vHazard (vecDev 16) 0 [(0, 128), (4096, 16), (8192, 32)] [(12288, 64)] = false ∧ (vf 12 0).mod.toNat &&& 0x60 = 0 ∧
    (dqRecord (List.replicate 32 255)).ok = false := by decide +kernel
/-! ### DSP cores and radio units -/

/-- Core 0 of cluster 0 runs on the job's behalf. -/
def coreDev : State := setFlds (jobDev 2) [(Fd.DSC_STATUS_RUN 0, 1)]

/-- A TAPM of stream port 0, with a sample or none. -/
def tap (l : List (BitVec 16 × BitVec 16)) : TapmOp := ⟨0, 0, 1, false, false, false, 0, 0, l⟩

/-- The word at 5 of its instruction memory. -/
def metDev (w : Nat) : State := { coreDev with mem := memWrite coreDev.mem (dscBase 0 + 20) (leBytes 4 w) }

theorem wit_RadioUnitsComplete : coreRuns coreDev 0 0 = true ∧ coreRuns (jobDev 2) 0 0 = false ∧ (tap []).rsv = 0 ∧
    ((Tbl.get (fun _ => []) (coreDev.core 0 0).sp 0) ++ (tap [(1, 2)]).arrived.map (fun x => (x.1.toInt, x.2.toInt))).take 64 = [(1, 2)] ∧
    ((Tbl.get (fun _ => []) (coreDev.core 0 0).sp 0) ++ (tap []).arrived.map (fun x => (x.1.toInt, x.2.toInt))).take 64 = [] ∧
    followPath (distinctive coreDev 0 0) (coreDev.core 0 0).pc 5 (coreDev.core 0 0).loops [] = .arrives [] ∧
    followPath (distinctive coreDev 0 0) 0 5 (List.replicate 4 (0, 9, 1)) [] = .arrives (List.replicate 4 (0, 9, 1)) ∧
    followPath (distinctive coreDev 0 0) 0 20 [(0, 9, 1)] [(4, 20)] = .leaves 4 ∧
    coreMeets (metDev 0x40000800) 0 0 ⟨5, []⟩ (.tapm 0 0 ⟨5, []⟩ (tap [(1, 2)])) = true ∧
    coreMeets (metDev 0x40000800) 0 0 ⟨5, []⟩ (.tapm 0 0 ⟨5, []⟩ { tap [] with rot := true }) = false ∧
    coreMeets (metDev 0x41002003) 0 0 ⟨5, []⟩ (.blkrpt 0 0 ⟨5, []⟩ false 2 3) = true ∧
    coreMeets (metDev 0x42000000) 0 0 ⟨5, []⟩ (.bexp 0 0 ⟨5, []⟩ 0 0 false 0) = true ∧
    coreMeets (metDev 0x43000000) 0 0 ⟨5, []⟩ (.bnorm 0 0 ⟨5, []⟩ 0 0 0 0 0) = true ∧
    followPath (distinctive (metDev 0x40000800) 0 0) 0 5 [] [] = .arrives [] ∧
    (dspRangeOk coreDev 0 0 64 false && dspRangeOk coreDev 0 64 64 true) = true ∧
    (dspRangeOk coreDev 0 2 64 false && dspRangeOk coreDev 0 64 64 true) = false ∧
    (portRead coreDev 36 (dscBase 0) 64).poisoned = false ∧
    transformOk 16 = true ∧ transformOk 3240 = true ∧ transformOk 3241 = false ∧ computeRunning hostDev = false ∧ computeRunning (jobDev 2) = true ∧
    bankOn coreDev (dscBase 0 + 64) = true ∧ coreDev.flag Fd.BOOT_ZERO_SRAM_BUSY = false := by decide +kernel

/-- A PUCCH allocation of a format, and an uplink one of one code block. -/
def pucch (format : Nat) : Alloc := { allocRec [] with type := 2, format := format }
def ulAlloc : Alloc := { allocRec [] with type := 1, tbs := 24 }
def cb0 : CodeBlock := { num := 0, alloc := 1, inTb := 0, ofTb := 1, layers := 1, doubt := 0, doubtAt := 0, learned := none, fallback := none, fbAt := 0
                         released := none }

/-- A slot of a running job with them. -/
def radioSlot (format : Nat) (llrs : List (Nat × Nat × List Int)) : SlotCtx :=
  { slot0 with allocs := [pucch format, ulAlloc], cbs := [cb0], fbLlrs := llrs, dtx := 0x3F800000 }
def radioDev (format : Nat) (llrs : List (Nat × Nat × List Int)) : State :=
  { setRegs (word8 (word8 (word8 (word8 (setFlds (jobDev 2) [(Fd.DMMU_TTB_ADDR, 1)]) 0x1000 0x2003) 0x2000 0x3003) 0x3000 0x4003) 0x4000 0x500D) [] with
    cars := [(0, { carReset 0 with slots := [radioSlot format llrs] })] }

theorem wit_RadioUnitsComplete_slot : (radioDev 0 []).slotCtx 0 0 = some (radioSlot 0 []) ∧ (radioDev 0 []).slotCtx 0 1 = none ∧
    computeRunning (radioDev 0 []) = true ∧ (radioSlot 0 []).learned = true ∧ (radioSlot 0 []).allocs[0]? = some (pucch 0) ∧
    belowDtx (radioSlot 0 []) (bestEnergy [⟨0, 1⟩, ⟨1, 2⟩]).2 = true ∧ belowDtx (radioSlot 0 []) (bestEnergy [⟨0, 1⟩, ⟨2, 1⟩]).2 = false ∧
    (radioSlot 1 []).allocs[0]? = some (pucch 1) ∧ (radioSlot 4 []).allocs[0]? = some (pucch 4) ∧ fallbackRuns (radioDev 0 []) (radioSlot 0 []) = true ∧
    fallbackRuns (setFlds (radioDev 0 []) [(Fd.SAF_STATUS_FB_DOWN, 1)]) (radioSlot 0 []) = false := by decide +kernel

theorem wit_RadioUnitsComplete_decode : (radioSlot 0 [(0, 3, [1, -128])]).cbs.find? (fun q => q.num == 0) = some cb0 ∧ cb0.released = none ∧
    (radioSlot 0 [(0, 3, [1, -128])]).fbLlrs.find? (fun q => q.1 == 0) = some (0, 3, [1, -128]) ∧
    (virtRead (radioDev 0 []) 37 ((radioSlot 0 []).allocs.getD 1 (allocRec [])).softbuf 64).fault = none ∧
    (virtRead (radioDev 0 []) 37 0 64).poisoned = false ∧ (virtRead hostDev 37 0 64).fault.isSome = true := by decide +kernel

/-- A format 0 occasion without hypotheses and a format 1 one whose DMRS saw a signal: what the obligations ask of the operands. -/
theorem wit_RadioUnitsComplete_pucch : belowDtx (radioSlot 0 []) (bestEnergy (([] : List (List SeqRow)).map
      (shiftEnergy (radioSlot 0 []) (slotComp (radioDev 0 []) 0 0 (radioSlot 0 [])) (pucchAntennas (radioSlot 0 []) 0)))).2 = true ∧
    belowDtx { radioSlot 1 [] with dtx := 0 } (combinePsk { radioSlot 1 [] with dtx := 0 } none [] [] []).2 = false ∧
    carriesUci ulAlloc = true ∧ carriesUci (pucch 2) = true ∧ carriesUci (pucch 1) = false := by decide +kernel

/-- A polar decoding passes its check or does not: which, the code's free decoder says. -/
theorem wit_RadioUnitsComplete_polar (list a : Nat) (ls : List Int) : (polarUci list a ls).all (fun b => b.2) = true ∨
    (polarUci list a ls).all (fun b => b.2) = false := by cases (polarUci list a ls).all (fun b => b.2) <;> simp

/-- LLRs 254, −1 and 0 take the scale 2, the smallest with 254 / s within 127 (R180). -/
theorem test_scale_llrs : (ue5m3 (scaleLlrs ⟨0, 0, [254, -1, 0]⟩).1).rne = 2 ∧ (scaleLlrs ⟨0, 0, [254, -1, 0]⟩).2 = [127, 0, 0] ∧
    scaleLlrs ⟨0, 0, [0, 0]⟩ = (0x78, [0, 0]) := by decide +kernel

theorem wit_RadioUnitsComplete_soft : (claimPlace { hostDev with fbSoftBase := 0x10000, fbSoftLen := 0x100000 } ⟨0, 0, 0, 0⟩).1 = some 0 ∧
    (claimPlace hostDev ⟨0, 0, 0, 0⟩).1 = none ∧
    fwAllows (setRegs hostDev [(Reg.FW_DEFAULT_WMASK, 2 ^ 64 - 1)]) 22 0x10000 true = true := by decide +kernel

/-- A group of 1 PRB without parts, and the entry of its slot. -/
def prb0 : PrbGroup := ⟨0, 0, 0, 0, 1, 0, []⟩
def dlDev : State := { radioDev 0 [] with dlSlots := [⟨0, 0, 0, 0, [{ allocRec [] with type := 5, nprb := 1, nsym := 1 }], 0, 0, none, []⟩] }

/-- The same, of two PRBs and shaped. -/
def shapedSlot : DlSlot := ⟨0, 0, 0, 0, [{ allocRec [] with type := 5, flags := 4, nprb := 2, nsym := 1 }], 0, 100, none, []⟩
def shapedDev : State := { radioDev 0 [] with dlSlots := [shapedSlot] }

theorem wit_RadioUnitsComplete_precoding : 0 < prb0.nprb ∧ prb0.nprb ≤ prbsPerFrame (jobDev 2) 0 ∧ carMac (jobDev 2) 0 ≠ 1 ∧
    groupAlloc (jobDev 2) prb0 = none ∧ (groupAlloc dlDev prb0).isSome = true ∧ computeRunning dlDev = true ∧
    shapedAt dlDev (dlDev.dlSlots.headD shapedSlot) 0 = (false, false) ∧ shapedAt shapedDev shapedSlot 0 ≠ (false, false) ∧
    symbolWhole shapedSlot 0 [⟨0, 0, 0, 0, 1, []⟩] = false ∧ (groupAlloc shapedDev prb0).isSome = true ∧
    dlDev.flag (Fd.FHP0_CAR_CFG_CAT 0) = false ∧ (setFlds dlDev [(Fd.FHP0_CAR_CFG_CAT 0, 1)]).flag (Fd.FHP0_CAR_CFG_CAT 0) = true ∧
    (precodePorts (groupPoints dlDev (allocRec []) prb0).2 0 0 0 (allocRec []) (layerGrid 0 12 (groupPoints dlDev (allocRec []) prb0).1) 1).1.fault =
      none := by decide +kernel
/-! ### Slots and fronthaul -/

/-- Carrier 0 is bound to the job of port 0 and ticks; its ring has 32 entries, the first of which is in memory at 0x100000. -/
def ringDev (tail : Nat) : State :=
  { setFlds (word8 (jobDev 2) 0x100000 (0x31 * 2 ^ 56)) [(Fd.TSU_CAR_V 0, 1), (Fd.SLOT_RING_LOG2N 0, 5), (Fd.SLOT_RING_BASE 0, 64), (Fd.SLOT_TAIL_INDEX 0, tail)]
    with cars := [(0, { carReset 0 with job := 1 })] }

theorem wit_SlotsAndFronthaul : writePasses (ringDev 0) 5 (Reg.SLOT_TAIL 0) = true ∧ ((ringDev 0).car 0).job ≠ 0 ∧ slotRingSize (ringDev 0) 0 = 32 ∧
    ((ringDev 0).car 0).port.val = 0 ∧ (hostDev.car 0).job = 0 ∧ (ringDev 1).flag (Fd.TSU_CAR_V 0) = true ∧ ((ringDev 1).car 0).lastAbs = none ∧
    (ringDev 1).flag Fd.CAL_STATUS_COMMIT_PENDING = false ∧ (ringDev 1).owner = some job1 ∧ startPending (ringDev 1) job1 = none ∧
    (ringDev 1).safePend = none ∧ (ringDev 1).safeLate = [] ∧ forcePending (ringDev 1) = [] ∧ ((ringDev 1).car 0).held.length < 64 ∧
    (ringDev 1).fld (Fd.SLOT_HEAD_INDEX 0) ≠ (ringDev 1).fld (Fd.SLOT_TAIL_INDEX 0) ∧ (ringDev 1).rxEarly = [] ∧ ((ringDev 1).car 0).objs = [] := by
  decide +kernel

theorem wit_SlotsAndFronthaul_entry : entryStale (ringDev 1) 0 (entryHdr (busRead (ringDev 1) 7 (slotEntryAddr (ringDev 1) 0 0) 64).bytes)
      (absSlot (ringDev 1) 0 (ringDev 1).devTime) false = false ∧
    entryAhead (ringDev 1) 0 (entryHdr (busRead (ringDev 1) 7 (slotEntryAddr (ringDev 1) 0 0) 64).bytes) (absSlot (ringDev 1) 0 (ringDev 1).devTime) = 0 := by
  decide +kernel

/-- The same in deterministic mode. -/
def detRing : State := setFlds (ringDev 1) [(Fd.DET_CTRL_MODE, 1)]

/-- In deterministic mode the tick waits for its tick beat. -/
theorem wit_SlotsAndFronthaul_beat : detRing.flag (Fd.TSU_CAR_V 0) = true ∧
    detRing.phase = .running ∧ detRing.det = true ∧ (detRing.car 0).lastAbs = none := by decide +kernel

/-- A code block in doubt whose fallback output is ready, and one that is not. -/
def doubtCb (out : Option CbOut) : CodeBlock := { cb0 with doubt := 1, fallback := out }

theorem wit_SlotsAndFronthaul_release : releaseOf (slotDev { slot0 with cbs := [doubtCb (some ⟨[], true, 1, 12⟩)], fbLayers := [0, 1, 2, 3, 4, 5, 6, 7] }) 0
      { slot0 with cbs := [doubtCb (some ⟨[], true, 1, 12⟩)], allocs := [pucch 0, ulAlloc], fbLayers := [0, 1, 2, 3, 4, 5, 6, 7] }
      (doubtCb (some ⟨[], true, 1, 12⟩)) = some (.fallback, false) ∧
    releaseOf (slotDev slot0) 0 { slot0 with allocs := [pucch 0, ulAlloc] } cb0 = none ∧ (slotDev slot0).slotCtx 0 0 = some slot0 := by decide +kernel

theorem wit_SlotsAndFronthaul_window : symbolClosed (slotDev slot0) 0 slot0.abs 13 = true ∧
    symbolClosed { slotDev slot0 with rxTicks := [(0, 0, 0)] } 0 slot0.abs 13 = false := by decide +kernel

/-- The slot's reply is owed. -/
def owedDev : State := hostDev.setCar 0 { carReset 0 with slots := [{ slot0 with ul := false }], out := [⟨0, none⟩] }

theorem wit_SlotsAndFronthaul_reply : ((owedDev.car 0).out.find? (fun o => o.ready.isNone)) = some ⟨0, none⟩ ∧ (owedDev.car 0).held = [] ∧
    (owedDev.car 0).blocked = false ∧ mustHold owedDev (slotReply (0, 0, 0) 0 0 0 0 0) = false ∧ hasHeld owedDev 0 0 = false ∧
    owedDev.slotCtx 0 0 = some { slot0 with ul := false } ∧ slotUes { slot0 with ul := false } = [] := by decide +kernel

/-- A frame of 18 bytes with its FCS; MAC 0 of port 0 is up and its classifier sends all it takes to an action. -/
def frame18 : List Byte := List.replicate 14 0 ++ leBytes 4 (crc32 (List.replicate 14 0))
def macDev (action : Nat) : State :=
  setRegs (setFlds hostDev [(Fd.FHP_CFG_CLS_EN 0, 1)]) [(Reg.FHP_STATUS 0, 1), (Reg.FHP_CLS 0 0, 8 * 2 ^ 60 + action)]

theorem wit_SlotsAndFronthaul_frames : 0 < macCount hostDev 0 ∧ (macDev 0).regBit (Reg.FHP_STATUS 0) 0 = true ∧ hostDev.regBit (Reg.FHP_STATUS 0) 0 = false ∧
    frame18.length = 18 ∧ crc32 (frame18.take 14) = leNat (frame18.drop 14) ∧ (macDev 0).flag (Fd.FHP_CFG_CLS_EN 0) = true ∧
    (classify 0 (frame18.take 14) 16 ((macDev 0).bump (Reg.FHP_RX_FRAMES 0)) 0).1 = some 0 ∧
    (classify 0 (frame18.take 14) 16 ((macDev 3).bump (Reg.FHP_RX_FRAMES 0)) 0).1 = some 3 ∧ heldBytes (ingressQ (macDev 0) 0) + 18 ≤ 524288 ∧
    524288 < heldBytes (ingressQ { macDev 0 with ingress := [(0, [⟨0, 0, 524280, []⟩])] } 0) + 18 ∧ (macDev 0).flag (Fd.FHP_CFG_DROP 0) = false ∧
    ((macDev 3).fld (Fd.FHP_HR_HEAD_INDEX 0) + 1) % 256 ≠ (macDev 3).fld (Fd.FHP_HR_TAIL_INDEX 0) := by decide +kernel

/-- A frame of eCPRI message type 5 is first in the queue of port 0. -/
def otherType : RxFrame := ⟨0, 0, 64, [0x10, 5, 0, 4]⟩
def typeDev : State := { hostDev with ingress := [(0, [otherType])] }

theorem wit_SlotsAndFronthaul_type : typeDev.pending = [] ∧ typeDev.tickPend = [] ∧ typeDev.winOut = [] ∧ typeDev.standIns = [] ∧ typeDev.resume = [] ∧ typeDev.paths = [] ∧
    ingressQ typeDev 0 = [otherType] ∧ (∀ q < 4, q ≠ 0 → ingressQ typeDev q = []) ∧ 4 ≤ otherType.body.length ∧
    bitOf (leAt otherType.body 0 1) 0 = false ∧ leAt otherType.body 1 1 ≠ 0 ∧ typeDev.phase = .running := by decide +kernel

/-- A frame, and a TX_ON rise, that wait. -/
def tx0 : TxFrame := ⟨0, 0, 0, 0, 0, 0, 0, 1, 0, true, 0, 1, [], [], []⟩
def launchDev (time : Nat) (late : Bool) : State := { hostDev with launch := [(0, [⟨time, late, tx0⟩])], txq := [(0, [⟨time, late, .txonRise, 0, 0⟩])] }

theorem wit_SlotsAndFronthaul_launch : launchQ (launchDev 5 false) 0 = ⟨5, false, tx0⟩ :: [] ∧ (launchDev 5 false).devTime < 5 ∧
    0 ≤ (launchDev 0 false).devTime ∧ launchQ (launchDev 0 true) 0 = ⟨0, true, tx0⟩ :: [] ∧ launchQ hostDev 0 = [] ∧
    txEvents (launchDev 5 false) 0 = ⟨5, false, .txonRise, 0, 0⟩ :: [] ∧ txEvents hostDev 0 = [] := by decide +kernel
/-! ### Streams, steps, batches -/

/-- A stream at rest. -/
def rest0 : Stream := ⟨0, [], [], 0, none, [], [], 0, none, false, false, none⟩

/-- Stream 0 of the job is at rest before a descriptor of opcode op, with flags, at virtual 0x1000; its completion ring is in host memory of
port 0. -/
def streamDev (op : Nat) : State :=
  { setFlds (word8 (tabled 2) 0x5000 op) [(Fd.SDE_CTX_PROG_ADDR 0 0, 0x1000), (Fd.SDE_CTX_CR_CFG_SPACE 0 0, 1), (Fd.SDE_CTX_CR_CFG_LOG2N 0 0, 4),
      (Fd.SDE_CTX_STATE_RUN 0 0, 1), (Fd.SDE_TAGS_FREE 0, 256)] with streams := [rest0] }

theorem access_eta (a : Access) (hp : a.poisoned = false) (hf : a.fault = none) : a = ⟨a.bytes, false, none, a.state⟩ := by
  cases a
  simp_all

/-- The descriptor that the stream reads. -/
def descOf (op : Nat) : List Byte := (readDesc (streamDev op) rest0).bytes

theorem begins_fence : streamBegins (streamDev 0x106) 0 rest0 (descOf 0x106) (readDesc (streamDev 0x106) rest0).state ∧
    descBad (descOf 0x106) false = false ∧ dOp (descOf 0x106) = 6 ∧ dRec (descOf 0x106) = true ∧ (streamDev 0x106).slotOf 1000 = none ∧
    dRec (descOf 6) = false ∧ dOp (descOf 6) = 6 := by
  refine ⟨⟨by decide +kernel, by decide +kernel, by decide +kernel, by decide +kernel, by decide +kernel, by decide +kernel, by decide +kernel,
    by decide +kernel, by decide +kernel, access_eta _ (by decide +kernel) (by decide +kernel)⟩, ?_⟩
  decide +kernel

theorem ring_streamDev : ringAt (streamDev 6) 0 0 0 ∧ (rest0.pendingArm = none ∧ rest0.final = false) := by
  unfold ringAt
  decide +kernel

theorem noneWaits_streamDev : noneWaits (streamDev 6) := by
  refine ⟨fun j h => ?_, fun c h => ?_⟩
  · have : (streamDev 6).owner = some job1 := by decide +kernel
    rw [this] at h
    cases h
    rfl
  · have : (streamDev 6).cmds = [] := by decide +kernel
    rw [this] at h
    cases h

theorem wit_StreamsStepsAndBatches : dOp (descOf (4 + 2 ^ 17)) = 4 ∧ leAt (descOf (4 + 2 ^ 17)) 2 2 = 2 ∧ loopCount rest0 0 = 0 ∧ dOp (descOf (3 + 5 * 2 ^ 32)) = 3 ∧
    dObj (descOf (3 + 5 * 2 ^ 32)) = 5 ∧ dOp (descOf (2 + 5 * 2 ^ 32)) = 2 ∧ dOp (descOf 5) = 5 ∧ (streamDev 2).streamOk.contains 0 = false ∧
    waits (streamDev 2) (streamAgent 0) = false ∧ waitSatisfied (streamDev 2) 5 = false ∧ (streamDev 1).fld (Fd.SDE_TAGS_FREE 0) ≠ 0 ∧
    portQuiet (streamDev 1) 0 = false := by decide +kernel

/-- Object 5 is the job's: a semaphore or an event without waiters. -/
def objStream (op type value : Nat) : State :=
  setRegs (streamDev op) [(Reg.SYN_OBJ_W0 5, type * 2 ^ 30 + 1 * 2 ^ 20), (Reg.SYN_OBJ_W1 5, value)]

theorem wit_StreamsStepsAndBatches_object : jobObject (objStream 3 1 0) 5 = true ∧ objType (objStream 3 1 0) 5 = 1 ∧ waitersOf (objStream 3 1 0) 5 = [] ∧
    isRetention (objStream 3 1 0) 5 = false ∧ objValue (objStream 3 1 0) 5 = 0 ∧ (objStream 3 1 0).slotOf 1000 = none ∧
    waitSatisfied (objStream 2 1 0) 5 = false ∧ waitSatisfied (objStream 2 1 1) 5 = true ∧ jobObject (streamDev 3) 5 = false := by decide +kernel

/-- A COPY of 64 bytes of host memory of port 0 to device memory. -/
def copyOp : Nat := 1 + 0x800 + 0x6000

/-- The descriptor, as the stream would read it. -/
def copyDesc : List Byte := leBytes 8 copyOp ++ zeros 8 ++ leBytes 8 0x8000 ++ leBytes 4 64 ++ leBytes 2 1 ++ leBytes 2 1 ++ zeros 32

theorem wit_StreamsStepsAndBatches_copy : dOp copyDesc = 1 ∧ bitsOf (leAt copyDesc 0 4) 12 11 = 1 + 0 ∧ bitsOf (leAt copyDesc 0 4) 14 13 = 3 ∧
    0 < dTotal copyDesc ∧ requestLen copyDesc 0 = dTotal copyDesc ∧ descBad copyDesc false = false ∧
    meetsSeason (streamDev 1) (copyAddr copyDesc 0 true) (dTotal copyDesc) = false ∧ readsFull (streamDev 1) (1 + 0) = false ∧
    meetsSeason (setFlds (streamDev 1) [(Fd.DSC_SWIN_LEN 0, 1)]) (dscBase 0 + 63) 64 = true := by decide +kernel

/-- Its request is in flight. -/
def run0 : StreamRun := ⟨0, 0, copyDesc, none, 64, 0, false, false, none⟩
def req0 : SdeReq := ⟨0, [.host 0 0 64], [.phys 0x8000 64], 0, 0, [], false⟩
def busy0 : Stream := { rest0 with runs := [run0], nextRun := 1, cur := some 0, reqs := [req0] }
def copying : State := { setRegs (streamDev 1) [(Reg.FW_DEFAULT_WMASK, 2 ^ 64 - 1)] with streams := [busy0] }

theorem wit_StreamsStepsAndBatches_request : copyInFlight copying 0 busy0 run0 req0 0 0 0x8000 64 ∧ mayStore copying sdeOrigin 0x8000 := by
  unfold copyInFlight mayStore
  decide +kernel

theorem wit_StreamsStepsAndBatches_arm : hostReady (tabled 2) 0x20 (pk 1 0 0x1000 (2 ^ 50) 4) = true ∧
    (editJob (begun (tabled 2) 0x20 (pk 1 0 0x1000 (2 ^ 50) 4)) (cmdOf 0x20 (pk 1 0 0x1000 (2 ^ 50) 4))).toOption = some job1 ∧
    (begun (tabled 2) 0x20 (pk 1 0 0x1000 (2 ^ 50) 4)).jobState job1 = 2 ∧ (begun (tabled 1) 0x20 (pk 1 0 0x1000 (2 ^ 50) 4)).jobState job1 = 1 ∧
    (begun (tabled 2) 0x20 (pk 1 0 0x1000 (2 ^ 50) 4)).stream 0 = none ∧ addrSpace (2 ^ 50) ≠ 3 ∧ addrBits (2 ^ 50) % 32 = 0 ∧
    unusedFrom (pk 1 0 0x1000 (2 ^ 50) 4) 4 = none ∧ hostReady (streamDev 6) 0x21 (pk 1 0 0 0 0) = true ∧
    (begun (streamDev 6) 0x21 (pk 1 0 0 0 0)).stream 0 = some rest0 ∧ (begun (tabled 2) 0x21 (pk 1 0 0 0 0)).stream 0 = none := by decide +kernel

/-- Stream 0 waits past a deadline of slot 0 of carrier 0, with DL_V, and DL_SKIP or not. -/
def late0 (skip : Nat) : StreamRun := ⟨0, 0, leBytes 4 (2 + 0x200 + skip) ++ zeros 60, some (0, 0), 0, 0, false, false, none⟩
def lateDev (skip : Nat) : State :=
  { streamDev 2 with streams := [{ rest0 with runs := [late0 skip], nextRun := 1, cur := some 0 }], cars := [(0, { carReset 0 with slots := [slot0] })] }

theorem wit_StreamsStepsAndBatches_deadline : (lateDev 0).stream 0 = some { rest0 with runs := [late0 0], nextRun := 1, cur := some 0 } ∧
    dOp (late0 0).desc = 2 ∧ dDlV (late0 0).desc = true ∧ runDue (lateDev 0) (late0 0) = true ∧ dSkip (late0 0).desc = false ∧
    dSkip (late0 0x400).desc = true ∧ (lateDev 0).det = false ∧ (lateDev 0).waiters = [] := by decide +kernel

theorem wit_StreamsStepsAndBatches_ring : writePasses (streamDev 6) 5 (Reg.SDE_CTX_CR_TAIL 0 0) = true ∧
    (streamDev 6).crHeld = [] ∧
    ({ streamDev 6 with streams := [{ rest0 with records := [zeros 32] }] } : State).stream 0 = some { rest0 with records := [zeros 32] } ∧
    (0 + 1) % 2 ^ (streamDev 6).fld (Fd.SDE_CTX_CR_CFG_LOG2N 0 0) ≠ (0 : Word32).toNat % 4096 := by decide +kernel

/-- Attention engine 0 and gather unit 0 run on the job; their rings begin at the start of the SSP, 64 bytes apart. The sequence's descriptor
is valid and has one head. -/
def unitsDev (stage : Nat) : State :=
  { setRegs (setFlds (word8 (tabled 2) 0x5000 1) [(Fd.AE_STATUS_RUN 0, 1), (Fd.EGU_STATUS_RUN 0, 1)])
      [(Reg.EGU_RING_BASE 0, 64), (Reg.FW_DEFAULT_WMASK, 2 ^ 64 - 1)] with aeStage := [(0, stage)], eguStage := [(0, 2)] }

theorem wit_StreamsStepsAndBatches_step : (aeReady (unitsDev 2) 0 ∧ eguReady (unitsDev 2) 0) ∧ aeStageOf (unitsDev 2) 0 = 2 ∧ aeStageOf (unitsDev 3) 0 = 3 ∧
    (unitsDev 2).flag (Fd.AE_STATUS_EDIT_HELD 0) = false ∧ (aeTaken (unitsDev 2) 0).poisoned = false ∧
    (virtRead (unitsDev 2) (aeOrigin 0) (seqDescVa (unitsDev 2) 0) 256).fault = none ∧
    (virtRead (unitsDev 2) (aeOrigin 0) (seqDescVa (unitsDev 2) 0) 256).poisoned = false ∧
    stepRefused (stepDesc (aeTaken (unitsDev 2) 0).bytes)
      (seqHead (virtRead (unitsDev 2) (aeOrigin 0) (seqDescVa (unitsDev 2) 0) 256).bytes 0) = false ∧
    stepRefused (stepDesc (zeros 64)) (seqHead (zeros 256) 0) = true ∧ headBusy (unitsDev 2) 0 (stepDesc (aeTaken (unitsDev 2) 0).bytes) = false ∧
    (unitsDev 2).kvActive.length < 1024 ∧ (mayStore (unitsDev 2) (aeOrigin 0) (aeDescAddr (unitsDev 2) 0 + 0x30) ∧
      mayStore (unitsDev 2) eguOrigin (eguDescAddr (unitsDev 2) 0 + 0x2C)) := by
  unfold aeReady eguReady mayStore
  decide +kernel

theorem wit_StreamsStepsAndBatches_head : (seqHead (virtRead (unitsDev 3) (aeOrigin 0) (seqDescVa (unitsDev 3) 0) 256).bytes 0).next ≤
      (seqHead (virtRead (unitsDev 3) (aeOrigin 0) (seqDescVa (unitsDev 3) 0) 256).bytes 0).first ∧
    (stepDesc (aeTaken (unitsDev 3) 0).bytes).napp = 0 ∧
    (stepDesc (aeTaken (unitsDev 3) 0).bytes).sig = none ∧
    (batchOf (busRead (unitsDev 2) eguOrigin (eguDescAddr (unitsDev 2) 0) 64).bytes).bad = true ∧
    (batchOf (leBytes 8 0x1000 ++ leBytes 4 1 ++ leBytes 4 32 ++ leBytes 8 0x1100 ++ leBytes 4 1 ++ zeros 4 ++ leBytes 8 0x1200 ++ zeros 24)).bad = false := by
  decide +kernel

/-- The same with operands on the mapped page: a step of one row, a batch of one row. -/
def readyUnits : State :=
  word8 (word8 (word8 (word8 (word8 (word8 (word8 (unitsDev 3) (sspBase + 8) 0x1100) (sspBase + 0x10) 0x1100) (sspBase + 0x18) 0x1400)
    (sspBase + 64) 0x1000) (sspBase + 72) (1 + 32 * 2 ^ 32)) (sspBase + 80) 0x1100) (sspBase + 96) 0x1200 |> fun s => word8 s (sspBase + 88) 1

/-- Its descriptors. -/
def step1 : StepDesc := stepDesc (aeTaken readyUnits 0).bytes
def batch1 : Batch := batchOf (busRead readyUnits eguOrigin (eguDescAddr readyUnits 0) 64).bytes

theorem wit_StreamsStepsAndBatches_done : (virtRead readyUnits (aeOrigin 0) step1.q (132 * step1.rows)).fault = none ∧
    (virtRead readyUnits (aeOrigin 0) step1.q (132 * step1.rows)).poisoned = false ∧
    (writeOutputs (virtRead readyUnits (aeOrigin 0) step1.q (132 * step1.rows)).state 0 step1 16 (List.replicate step1.rows (RowAcc.start 16))).fault =
      none ∧ step1.napp = 0 ∧ step1.sig = none ∧ batch1.bad = false ∧ (virtRead readyUnits eguOrigin batch1.idx (4 * batch1.nidx)).fault = none ∧
    (virtRead readyUnits eguOrigin batch1.idx (4 * batch1.nidx)).poisoned = false ∧
    (gatherRow batch1 ⟨readyUnits, 0, none, false⟩ (0, 0)).fault = none ∧ (gatherRow batch1 ⟨readyUnits, 0, none, false⟩ (0, 0)).poisoned = false := by
  decide +kernel
/-! ### Worked examples of the manual -/

/-- Chapter 2, ternary packing: 0xA7 holds +1, 0, -1, -1, +1. -/
theorem test_trits : (List.range 5).map (tritAt [0xA7]) = [1, 0, -1, -1, 1] := by decide

/-- The sum of output index 0 of a pass of one M row. -/
def sum0 (mode : Nat) (act weight : List Byte) : Int :=
  outSum (PMode.ofNat mode) (laneOuts (PMode.ofNat mode) ⟨mode / 4 % 8, false, [weight]⟩ [act, []] []) 0 0

/-- Chapter 2: the INT8 activation -100 times the weight 3. -/
theorem test_int8_split : sum0 3 [0x9C] [3] = -300 := by decide +kernel

/-- Chapter 2: FP4 activations 1.5, -3 and 4 in half units with weights 5, -2 and -7. -/
theorem test_fp4_sum : sum0 1 [0xD3, 0x06] [0xE5, 0x09] = -29 := by decide +kernel

/-- Chapter 2: -261/128 is -2.03125 in BF16, and the quotient -261/64 is -4 in INT4. -/
theorem test_requantise : (bf16.roundSat ⟨-261, 128⟩).1 = 0xC002 ∧ (roundInt4 false ⟨-261, 64⟩).1 = -4 ∧ 
    (Frac.sub (Frac.mul (ue5m3 0x6C) (ue5m3 0x74)) ⟨9, 32⟩).isZero = true := by
  decide +kernel

/-- Chapter 4: the statistics of 3, -5 and 10, rounded once. -/
theorem test_vstats : vStats 3 8 134 = (0x402AAAAB, 0x421638E4) := by decide +kernel

/-- Chapter 1: an array's entry offered at cycle 55 makes beat 1, one offered at cycle 57 makes beat 2. -/
theorem test_release_beats : releaseBeat 0 55 = 1 ∧ releaseBeat 0 57 = 2 := by decide

/-- Chapter 19: ARRAY[7] of an array with one bypass reads 0x95090000 beside its attachment. -/
theorem test_array_word : capArray (setFlds hostDev [(Fd.MA_SKEW_REP0_V 7, 1)]) 7 - attach (0x400 + 4 * 7) = 0x95090000 := by
  unfold capArray
  rw [Nat.add_sub_cancel]
  decide +kernel

/-- CRC-32 of IEEE 802.3 over the digits 1 to 9 is 0xCBF43926; the CRC of R403 over them 0x29B1. -/
theorem test_crcs : crc32 [0x31, 0x32, 0x33, 0x34, 0x35, 0x36, 0x37, 0x38, 0x39] = 0xCBF43926 ∧
    crc16 [0x31, 0x32, 0x33, 0x34, 0x35, 0x36, 0x37, 0x38, 0x39] = 0x29B1 := by decide +kernel

/-- A number of the next state of a command. -/
def ran (c : Instr) (s : State) (f : State → Nat) : Option Nat :=
  match exec c s with
  | .next t => some (f t)
  | _ => none

/-- R83: ADD wraps; its destination may be a source. -/
theorem test_add_wraps : ran (.seqAdd 0 ⟨1, 1, 2, 0, 0⟩) (seqDev (2 ^ 32 - 1) 2 0 0) (fun t => sreg t 0 1) = some 1 := by decide +kernel
/-! ### What WellFormed refuses, and decoding -/

theorem test_wf_programs : (Instr.jobLoad loadPk img).wf = true ∧ (Instr.jobLoad loadPk { img with seqProgs := [List.replicate 1025 0] }).wf = false ∧
    (Instr.jobLoad loadPk { img with veProgs := [List.replicate 1025 0] }).wf = false := by decide +kernel

theorem test_wf_subops : (Instr.seqPageEditReset (pk 0 1 0 0 0)).wf = false ∧ (Instr.seqPageEditConfig (pk 0 0 0 0 0)).wf = false ∧
    (Instr.seqPageEditTrim (pk 0 0 0 0 0)).wf = false ∧ (Instr.seqPageEditMove (pk 0 0 0 0 0)).wf = false ∧ (Instr.poolAdd (pk 0 0 0 0 0)).wf = false ∧
    (Instr.poolRemove (pk 0 0 0 0 0)).wf = false ∧ (Instr.powerStateRun (pk 0 1 0 0 0)).wf = false ∧ (Instr.powerStateIdle (pk 0 0 0 0 0)).wf = false ∧
    (Instr.powerStateRetain (pk 0 0 0 0 0)).wf = false ∧ (Instr.warmReset (pk 0 0 0 0 0)).wf = false ∧ (Instr.poolAdd (pk 0 12 0 0 0)).wf = true := by decide

theorem test_wf_digests : (Instr.digestVerdict [(1, [])]).wf = false ∧ (Instr.digestVerdictReceive (some (some [], true))).wf = false ∧
    (Instr.ctrlJoin hd join1).wf = false ∧ (Instr.ctrlOpen hd [0]).wf = false ∧ (Instr.pfcPauseFrame 0 0 []).wf = false := by decide

theorem test_wf_units : (Instr.katSlice 2 24 .part).wf = false ∧ (Instr.overdueOther 1 0).wf = false ∧ (Instr.overdueOther 5 12).wf = false ∧ (Instr.katSlice 9 4 .part).wf = false := by decide

theorem test_wf_packets : (Instr.ethFrameReceive 0 0 (List.replicate 17 0)).wf = false ∧ (Instr.iferikWrite hd 0 0 0 []).wf = false ∧
    (Instr.iferikReduce hd ⟨0, 1, 0, 0, 0, false, [0], [], []⟩).wf = false ∧ (Instr.precoding 0 { prb0 with prb0 := 275 }).wf = false ∧
    (Instr.precoding 0 { prb0 with nprb := 0 }).wf = false := by decide

theorem test_wf_ports : (Instr.portReset 0 .perst ⟨6, 1⟩).wf = false ∧ (Instr.perstRelease 0 ⟨5, 3⟩).wf = false ∧ (Instr.portReset 0 .perst linkDown).wf = true ∧
    (Instr.bar2Access 0 (.read 4095 2)).wf = false ∧ (Instr.bar2Access 0 (.write 0 [] false)).wf = false ∧
    (Instr.pendingClear (.shared 0) 5 (2 ^ 32)).wf = false ∧ (Instr.interruptEnable (.shared 0) 5 (2 ^ 32)).wf = false ∧ (Instr.bypass 6).wf = false := by decide

/-- No row of the table has bits: a word spells no command, and nothing is put into the queue. -/
theorem test_no_words (nbits w : Nat) (s : State) : decodeTableWord nbits w = none ∧ s.withFetchWord nbits w = s := ⟨rfl, rfl⟩
end Sys2Proof.Tests
end

section
/-! SUPPORT. What an access to the control space leaves: the frame that every refused, ignored or unassigned access keeps, the
record that LOG makes of it, and the refusal of the firewall. -/

namespace Sys2Proof.Machine

variable {s t u : State}

/-! ### Bits and fields of a word -/

theorem bitOf_toNat (v : Word) (i : Nat) : bitOf v.toNat i = v.getLsbD i := by
  rw [bitOf, Nat.shiftRight_eq_div_pow, BitVec.getLsbD, Nat.testBit_eq_decide_div_mod_eq]

theorem lowMask_toNat {w : Nat} (h : w ≤ 64) : (lowMask w).toNat = 2 ^ w - 1 := by
  have : 2 ^ w ≤ 2 ^ 64 := Nat.pow_le_pow_right (by decide) h
  have := Nat.two_pow_pos w
  rw [lowMask, BitVec.toNat_ofNat, Nat.mod_eq_of_lt (by omega)]

/-- A field of a word that holds a number. -/
theorem fieldGet_ofNat {n hi lo : Nat} (hn : n < 2 ^ 64) (hh : hi + 1 - lo ≤ 64) :
    fieldGet (BitVec.ofNat 64 n) hi lo = n / 2 ^ lo % 2 ^ (hi + 1 - lo) := by
  rw [fieldGet, BitVec.toNat_and, lowMask_toNat hh, Nat.and_two_pow_sub_one_eq_mod, BitVec.toNat_ushiftRight, BitVec.toNat_ofNat,
    Nat.mod_eq_of_lt hn, Nat.shiftRight_eq_div_pow]

/-! ### Registers that stay -/

theorem RegsKept.refl (offs : List Nat) (s : State) : RegsKept offs s s := fun _ _ => rfl

theorem RegsKept.trans {offs : List Nat} (h : RegsKept offs s t) (k : RegsKept offs t u) : RegsKept offs s u :=
  fun o ho => (k o ho).trans (h o ho)

theorem RegsKept.mono {a b : List Nat} (h : RegsKept a s t) (hab : a ⊆ b) : RegsKept b s t :=
  fun o ho => h o (fun hm => ho (hab hm))

theorem RegsKept.setReg {offs : List Nat} (h : RegsKept offs s t) {o : Nat} (v : Word) (ho : o ∈ offs) :
    RegsKept offs s (t.setReg o v) := by
  intro j hj
  have hne : j ≠ o := fun e => hj (e ▸ ho)
  rw [reg_setReg_ne t v hne, h j hj]

/-- A register outside the list reads the same number. -/
theorem RegsKept.regN {offs : List Nat} (h : RegsKept offs s t) {o : Nat} (ho : o ∉ offs) : t.regN o = s.regN o := by
  rw [State.regN, h o ho, State.regN]

theorem regN_setRegN_self (s : State) (o n : Nat) : (s.setRegN o n).regN o = n % 2 ^ 64 := by
  rw [setRegN_eq, State.regN, reg_setReg_self, BitVec.toNat_ofNat]

theorem regN_setRegN_ne (s : State) {o j : Nat} (n : Nat) (h : j ≠ o) : (s.setRegN o n).regN j = s.regN j := by
  rw [setRegN_eq, State.regN, reg_setReg_ne _ _ h, State.regN]

/-- A counter that counts once, short of the 64 bits that hold it. -/
theorem regN_bump_self (s : State) (o : Nat) : (s.bump o).regN o = min (s.regN o + 1) 0xFFFFFFFF := by
  rw [bump_eq, regN_setRegN_self]
  omega

/-! ### The frame of an access without an effect of its own -/

/-- Two states differ at most in registers, the main log and what was answered. -/
def AccessOnly (s t : State) : Prop := t = { s with regs := t.regs, mainLog := t.mainLog, resp := t.resp }

theorem AccessOnly.refl (s : State) : AccessOnly s s := rfl

theorem AccessOnly.trans (h : AccessOnly s t) (k : AccessOnly t u) : AccessOnly s u := by
  unfold AccessOnly at *
  rw [k, h]

theorem AccessOnly.setReg (h : AccessOnly s t) (o : Nat) (v : Word) : AccessOnly s (t.setReg o v) := h.trans rfl

theorem AccessOnly.bump (h : AccessOnly s t) (o : Nat) : AccessOnly s (t.bump o) := h.setReg _ _

theorem AccessOnly.withResp (h : AccessOnly s t) (r : Resp) : AccessOnly s { t with resp := r } := h.trans rfl

theorem RegsOnly.accessOnly (h : RegsOnly s t) : AccessOnly s t := by
  unfold RegsOnly at h
  rw [h]
  rfl

theorem RegsOnly.resp (h : RegsOnly s t) : t.resp = s.resp := by
  unfold RegsOnly at h
  rw [h]

/-- What an ordinary command leaves when its effect is such an access. -/
theorem AccessOnly.after (h : AccessOnly s t) : s.after t = t := by
  unfold AccessOnly at h
  rw [h]
  rfl

/-- An access that answers nothing changes registers and the main log alone. -/
theorem AccessOnly.of_resp_eq (h : AccessOnly s t) (hr : t.resp = s.resp) : t = { s with regs := t.regs, mainLog := t.mainLog } := by
  unfold AccessOnly at h
  rw [hr] at h
  exact h

/-- Two states differ at most in the main log, the registers of LOG and what was answered. -/
structure RecordOnly (s t : State) : Prop where
  frame : AccessOnly s t
  kept : RegsKept logRegs s t

theorem RecordOnly.trans (h : RecordOnly s t) (k : RecordOnly t u) : RecordOnly s u :=
  ⟨h.frame.trans k.frame, h.kept.trans k.kept⟩

/-! ### A record of the main log (R344 to R346) -/

/-- The record that `State.log` makes. -/
def logRec (s : State) (kind origin block addr data : Nat) (write : Bool) : LogRec :=
  ⟨s.regN Reg.LOG_NEXT_SEQ, kind, origin, stickyKinds.contains kind && decide (s.stickyLog.length < 512), write, unitOf block,
    addr % 2 ^ 64, data % 2 ^ 64, s.time64.toNat⟩

/-- A record of a kind that is not sticky goes to the main log alone. -/
theorem log_of_not_sticky (s : State) {kind : Nat} (o b a d : Nat) (w : Bool) (hk : kind ∉ stickyKinds) :
    s.log kind o b a d w =
      mainLogAdd (s.setRegN Reg.LOG_NEXT_SEQ ((s.regN Reg.LOG_NEXT_SEQ + 1) % 2 ^ 32)) (logRec s kind o b a d w) := by
  simp [State.log, logRec, hk]

theorem mainLogAdd_getLast? (s : State) (r : LogRec) : (mainLogAdd s r).mainLog.getLast? = some r := by
  unfold mainLogAdd
  dsimp only
  split <;> simp

theorem setReg_recordOnly (s : State) {o : Nat} (v : Word) (ho : o ∈ logRegs) : RecordOnly s (s.setReg o v) :=
  ⟨rfl, (RegsKept.refl logRegs s).setReg v ho⟩

theorem mainLogAdd_recordOnly (s : State) (r : LogRec) : RecordOnly s (mainLogAdd s r) := by
  have hlog : ∀ l, RecordOnly s { s with mainLog := l } := fun _ => ⟨rfl, fun _ _ => rfl⟩
  unfold mainLogAdd
  dsimp only
  split
  · exact ((hlog _).trans (setReg_recordOnly _ _ (by decide))).trans (setReg_recordOnly _ _ (by decide))
  · exact (hlog _).trans (setReg_recordOnly _ _ (by decide))

theorem mainLogAdd_resp (s : State) (r : LogRec) : (mainLogAdd s r).resp = s.resp := by
  unfold mainLogAdd
  dsimp only
  split <;> rfl

section
variable (s : State) {kind : Nat} (o b a d : Nat) (w : Bool) (hk : kind ∉ stickyKinds)
include hk

/-- The newest record is the one that was made. -/
theorem log_getLast? : (s.log kind o b a d w).mainLog.getLast? = some (logRec s kind o b a d w) := by
  rw [log_of_not_sticky s o b a d w hk, mainLogAdd_getLast?]

theorem log_logged : logged (s.log kind o b a d w) kind o a d w :=
  ⟨_, log_getLast? s o b a d w hk, rfl, rfl, rfl, rfl, rfl⟩

theorem log_recordOnly : RecordOnly s (s.log kind o b a d w) := by
  rw [log_of_not_sticky s o b a d w hk]
  exact (setReg_recordOnly s _ (by decide)).trans (mainLogAdd_recordOnly _ _)

theorem log_resp : (s.log kind o b a d w).resp = s.resp := by
  rw [log_of_not_sticky s o b a d w hk, mainLogAdd_resp, setRegN_resp]

end

/-! ### A refused access (R310) -/

/-- The refused access as the FW registers show it, before its record. -/
def fwNote (s : State) (origin addr : Nat) (write : Bool) : State :=
  ((s.bump Reg.FW_REFUSED).setRegN Reg.FW_LAST (origin * 65536 + b2n write)).setRegN Reg.FW_LAST_ADDR (addr % 2 ^ 40)

/-- A refused access is noted in FW and recorded with kind 0x03 (Table 13.6). -/
theorem fwRefuse_eq (s : State) (origin addr : Nat) (write : Bool) :
    ∃ region, fwRefuse s origin addr write = (fwNote s origin addr write).log 0x03 origin 0xB00000 addr region write := ⟨_, rfl⟩

theorem fwNote_accessOnly (s : State) (origin addr : Nat) (write : Bool) : AccessOnly s (fwNote s origin addr write) := rfl

theorem fwNote_regsKept (s : State) (origin addr : Nat) (write : Bool) :
    RegsKept [Reg.FW_REFUSED, Reg.FW_LAST, Reg.FW_LAST_ADDR] s (fwNote s origin addr write) :=
  (((RegsKept.refl _ s).setReg _ (by simp)).setReg _ (by simp)).setReg _ (by simp)

theorem fwNote_refused (s : State) (origin addr : Nat) (write : Bool) :
    (fwNote s origin addr write).regN Reg.FW_REFUSED = min (s.regN Reg.FW_REFUSED + 1) 0xFFFFFFFF := by
  rw [fwNote, regN_setRegN_ne _ _ (by decide), regN_setRegN_ne _ _ (by decide), regN_bump_self]

theorem fwNote_last (s : State) (origin addr : Nat) (write : Bool) :
    (fwNote s origin addr write).reg Reg.FW_LAST = BitVec.ofNat 64 (origin * 65536 + b2n write) := by
  rw [fwNote, setRegN_eq, reg_setReg_ne _ _ (by decide), setRegN_eq, reg_setReg_self]

theorem fwNote_lastAddr (s : State) (origin addr : Nat) (write : Bool) :
    (fwNote s origin addr write).regN Reg.FW_LAST_ADDR = addr % 2 ^ 40 := by
  rw [fwNote, regN_setRegN_self]
  omega

/-- A refused access leaves the refusal and nothing else. -/
theorem fwRefuse_refusedAt (s : State) {origin addr : Nat} (write : Bool) (ho : origin < 64) (ha : addr < 2 ^ 40) :
    refusedAt [] s (fwRefuse s origin addr write) origin addr write := by
  obtain ⟨region, h⟩ := fwRefuse_eq s origin addr write
  have hk : 0x03 ∉ stickyKinds := by decide
  have record := log_recordOnly (fwNote s origin addr write) origin 0xB00000 addr region write hk
  have kept := record.kept
  have hb : b2n write < 2 := by cases write <;> decide
  have hlast := (kept Reg.FW_LAST (by decide)).trans (fwNote_last s origin addr write)
  rw [h]
  refine ⟨?_, ?_, ?_, ?_, ⟨_, log_getLast? _ _ _ _ _ _ hk, rfl, rfl, ?_, rfl⟩, ?_, ?_⟩
  · rw [kept.regN (by decide), fwNote_refused]
  · rw [State.fld, hlast, fieldGet_ofNat (by omega) (by decide)]
    dsimp only
    omega
  · rw [State.fld, hlast, fieldGet_ofNat (by omega) (by decide)]
    dsimp only
    omega
  · rw [kept.regN (by decide), fwNote_lastAddr]
    omega
  · show addr % 2 ^ 64 = addr
    omega
  · exact (fwNote_accessOnly s origin addr write).trans record.frame
  · exact ((fwNote_regsKept s origin addr write).mono (by simp)).trans (kept.mono (List.subset_append_right _ _))

theorem fwRefuse_resp (s : State) (origin addr : Nat) (write : Bool) : (fwRefuse s origin addr write).resp = s.resp := by
  obtain ⟨region, h⟩ := fwRefuse_eq s origin addr write
  rw [h, log_resp _ _ _ _ _ _ (by decide)]
  rfl

/-- What a refused read answers is not part of the refusal. -/
theorem refusedAt.withResp {offs : List Nat} {origin addr : Nat} {write : Bool} (h : refusedAt offs s t origin addr write) (r : Resp) :
    refusedAt offs s { t with resp := r } origin addr write := by
  obtain ⟨hcount, horigin, hwrite, haddr, hrec, hframe, hkept⟩ := h
  exact ⟨hcount, horigin, hwrite, haddr, hrec, AccessOnly.withResp hframe r, hkept⟩

/-- A refusal is no more than an access, so an ordinary command leaves it as it is. -/
theorem refusedAt.after {offs : List Nat} {origin addr : Nat} {write : Bool} (h : refusedAt offs s t origin addr write) :
    s.after t = t := by
  obtain ⟨-, -, -, -, -, hframe, -⟩ := h
  exact AccessOnly.after hframe

/-- A counter outside FW may count beside a refusal. -/
theorem refusedAt.bump {origin addr o : Nat} {write : Bool} (h : refusedAt [] s t origin addr write)
    (ho : o ∉ [Reg.FW_REFUSED, Reg.FW_LAST, Reg.FW_LAST_ADDR]) : refusedAt [o] s (t.bump o) origin addr write := by
  obtain ⟨hcount, horigin, hwrite, haddr, hrec, hframe, hkept⟩ := h
  have stays : ∀ j ∈ [Reg.FW_REFUSED, Reg.FW_LAST, Reg.FW_LAST_ADDR], (t.bump o).reg j = t.reg j :=
    fun j hj => reg_setReg_ne t _ (fun e => ho (e ▸ hj))
  refine ⟨?_, ?_, ?_, ?_, hrec, AccessOnly.bump hframe o, ?_⟩
  · rw [State.regN, stays _ (by simp)]; exact hcount
  · rw [State.fld, stays _ (by simp)]; exact horigin
  · rw [State.fld, stays _ (by simp)]; exact hwrite
  · rw [State.regN, stays _ (by simp)]; exact haddr
  · exact RegsKept.setReg (hkept.mono (by simp)) _ (by simp)

end Sys2Proof.Machine
end

section
/-! SUPPORT. The gate of the control space: which command passes through it with which register, and what the firewall makes of one
that it refuses (R310, R462). -/

namespace Sys2Proof.Machine

variable {s : State} {origin off : Nat}

/-! ### The gate -/

/-- A write that reaches the firewall and is refused there. -/
theorem ctlGate_refused (f : State → State) (hp : hostInReset s origin = false) (hr : retainReach s off = true)
    (hf : fwAllows s origin (ctlBase + off) true = false) : ctlGate s origin off f = fwRefuse s origin (ctlBase + off) true := by
  simp [ctlGate, hp, hr, hf]

theorem writePasses_iff : writePasses s origin off = true ↔
    hostInReset s origin = false ∧ retainReach s off = true ∧ fwAllows s origin (ctlBase + off) true = true := by
  simp [writePasses, and_assoc]

theorem ctlGate_passes (f : State → State) (h : writePasses s origin off = true) : ctlGate s origin off f = f s := by
  obtain ⟨hp, hr, hf⟩ := writePasses_iff.1 h
  simp [ctlGate, hp, hr, hf]

/-- A read that reaches the firewall and is refused there: a host port is answered Unsupported Request, which is counted. -/
theorem ctlReadGate_refused (f : State → State) (hp : hostInReset s origin = false) (hr : retainReach s off = true)
    (hf : fwAllows s origin (ctlBase + off) false = false) :
    ctlReadGate s origin off f =
      if origin = 5 ∨ origin = 6 then
        { (fwRefuse s origin (ctlBase + off) false).bump (Reg.PORT_UR_SENT (origin - 5)) with resp := .unsupported }
      else { fwRefuse s origin (ctlBase + off) false with resp := .value 0 } := by
  simp [ctlReadGate, hp, hr, hf]

theorem readPasses_iff : readPasses s origin off = true ↔
    hostInReset s origin = false ∧ retainReach s off = true ∧ fwAllows s origin (ctlBase + off) false = true := by
  simp [readPasses, and_assoc]

theorem ctlReadGate_passes (f : State → State) (h : readPasses s origin off = true) : ctlReadGate s origin off f = f s := by
  obtain ⟨hp, hr, hf⟩ := readPasses_iff.1 h
  simp [ctlReadGate, hp, hr, hf]

/-! ### Reads and writes of a length that BAR0 takes -/

theorem ctlWrite_eq_gate {len : Nat} (v : Word) (hp : hostInReset s origin = false) (hz : sizeOk off len = true) :
    ctlWrite s origin off len v = ctlGate s origin off (fun s =>
      if len = 8 then writeDouble s origin off v else writeWord s origin off (v.toNat % 2 ^ 32)) := by
  simp [ctlWrite, hp, hz]

theorem ctlRead_eq_gate {len : Nat} (hp : hostInReset s origin = false) (hz : sizeOk off len = true) :
    ctlRead s origin off len = ctlReadGate s origin off (fun s =>
      { (if len = 8 then readDouble s origin off else readWord s origin off).2 with
        resp := .value (if len = 8 then readDouble s origin off else readWord s origin off).1 }) := by
  simp [ctlRead, hp, hz]

/-! ### Commands of the control space on a device that runs -/

theorem exec_registerWrite (o : Fin 64) (a : BitVec 26) (len : BitVec 13) (v : Word) (h : s.phase = .running) :
    exec (.registerWrite o a len v) s = .next (s.after (ctlWrite s o.val a.toNat len.toNat v)) :=
  up_running (fun s => ctlWrite s o.val a.toNat len.toNat v) h

theorem exec_rcRead (o : Fin 64) (a : BitVec 26) (len : BitVec 13) (h : s.phase = .running) :
    exec (.rcRead o a len) s = .next (s.after (ctlRead s o.val a.toNat len.toNat)) :=
  up_running (fun s => ctlRead s o.val a.toNat len.toNat) h

theorem exec_latchingRead (o : Fin 64) (a : BitVec 26) (len : BitVec 13) (h : s.phase = .running) :
    exec (.latchingRead o a len) s = .next (s.after (ctlRead s o.val a.toNat len.toNat)) :=
  up_running (fun s => ctlRead s o.val a.toNat len.toNat) h

/-- A command with a rule behind the gate, on a device that runs. -/
theorem up_ctlGate (rule : State → State) (h : s.phase = .running) :
    ∃ f, up s (fun s => ctlGate s origin off rule) = .next (s.after (ctlGate s origin off f)) := ⟨rule, up_running _ h⟩

/-- Every command that writes one register passes the gate with that register, and takes the register's own rule behind it. -/
theorem exec_of_writeOf {c : Instr} (hw : writeOf c = some (origin, off)) (h : s.phase = .running) (hp : hostInReset s origin = false) :
    ∃ f, exec c s = .next (s.after (ctlGate s origin off f)) := by
  unfold writeOf at hw
  split at hw
  case h_1 p q o v => cases hw; exact up_ctlGate (fun s => sqTailWrite s o.val p.val q.val v.toNat) h
  case h_2 p q o v => cases hw; exact up_ctlGate (fun s => queueCfgWrite s o.val p.val q.val v.toNat) h
  case h_3 p q o v => cases hw; exact up_ctlGate (fun s => rqHeadWrite s o.val p.val q.val v.toNat) h
  case h_4 c o v => cases hw; exact up_ctlGate (fun s => slotTailPublish s o.val c.val v.toNat) h
  case h_5 o i v => cases hw; exact up_ctlGate (fun s => claimWrite s o.val i.val v.toNat) h
  case h_6 t o v => cases hw; exact up_ctlGate (fun s => eoiWrite s t.val o.val v.toNat) h
  case h_7 t o v => cases hw; exact up_ctlGate (fun s => tgtCtrlWrite s t.val o.val v.toNat) h
  case h_8 o v => cases hw; exact up_ctlGate (fun s => swsetWrite s o.val v.toNat) h
  case h_9 w o v =>
    cases hw
    cases w with
    | priv t => exact up_ctlGate (fun s => privClear s t.val o.val v) h
    | shared w => exact up_ctlGate (fun s => sharedClear s w.val o.val (v.toNat % 2 ^ 32)) h
  case h_10 w o v =>
    cases hw
    cases w with
    | priv t => exact up_ctlGate (fun s => privEnable s t.val o.val v) h
    | shared w => exact up_ctlGate (fun s => sharedEnable s w.val (v.toNat % 2 ^ 32)) h
  case h_11 x o v => cases hw; exact up_ctlGate (fun s => routeWrite s x.val o.val v.toNat) h
  case h_12 o v => cases hw; exact up_ctlGate (fun s => stickyClear s o.val v.toNat) h
  case h_13 o v us => cases hw; exact up_ctlGate (fun s => wakeWrite s o.val v.toNat us.toNat) h
  case h_14 o v => cases hw; exact up_ctlGate (fun s => offsetWrite s o.val v) h
  case h_15 n o v => cases hw; exact up_ctlGate (fun s => crTailWrite s n.val v.toNat) h
  case h_16 o v => cases hw; exact up_ctlGate (fun s => fbOffArm s o.val v.toNat) h
  case h_17 o v => cases hw; exact up_ctlGate (fun s => if bitOf v.toNat 0 then s.setFld Fd.FW_LOCK_LOCKED 1 else s) h
  case h_18 o a len v =>
    obtain ⟨hz, ha⟩ := Option.ite_none_right_eq_some.1 hw
    cases ha
    exact ⟨_, by rw [exec_registerWrite o a len v h, ctlWrite_eq_gate v hp hz]⟩
  case h_19 => cases hw

theorem pendOff_lt (w : IcnWord) : pendOff w < 2 ^ 26 := by
  cases w <;> simp only [pendOff, Reg.TGT_PRIV_PEND, Reg.ICN_SH_PEND] <;> omega

theorem enableOff_lt (w : IcnWord) : enableOff w < 2 ^ 26 := by
  cases w <;> simp only [enableOff, Reg.TGT_PRIV_EN, Reg.ICN_SH_EN] <;> omega

/-- The register that a command writes lies in the control space, and its initiator has one of the 64 origins. -/
theorem writeOf_bounds {c : Instr} (hw : writeOf c = some (origin, off)) : origin < 64 ∧ off < 2 ^ 26 := by
  unfold writeOf at hw
  split at hw
  case h_9 w o _ => cases hw; exact ⟨o.isLt, pendOff_lt w⟩
  case h_10 w o _ => cases hw; exact ⟨o.isLt, enableOff_lt w⟩
  case h_18 o a len v =>
    cases (Option.ite_none_right_eq_some.1 hw).2
    exact ⟨o.isLt, a.isLt⟩
  case h_19 => cases hw
  all_goals
    cases hw
    refine ⟨Fin.isLt _, ?_⟩
    simp only [Reg.Q_SQ_TAIL, Reg.Q_CFG, Reg.Q_RQ_HEAD, Reg.SLOT_TAIL, Reg.SEM_CLAIM, Reg.TGT_EOI, Reg.TGT_CTRL, Reg.ICN_ROUTE,
      Reg.SDE_CTX_CR_TAIL, Reg.ICN_SWSET, Reg.LOG_CTRL, Reg.PMU_CTRL, Reg.TSU_OFFSET, Reg.SAF_FB_OFF_ARM, Reg.FW_LOCK]
    omega

/-- Every command that reads one register passes the gate with that register. -/
theorem exec_of_readOf {c : Instr} (hr : readOf c = some (origin, off)) (h : s.phase = .running) (hp : hostInReset s origin = false) :
    ∃ f, exec c s = .next (s.after (ctlReadGate s origin off f)) := by
  unfold readOf at hr
  split at hr
  case h_1 o i tie =>
    cases hr
    exact ⟨fun s => claimRead s o.val i.val tie, up_running (fun s => ctlReadGate s o.val _ _) h⟩
  case h_2 o a len =>
    obtain ⟨hz, ha⟩ := Option.ite_none_right_eq_some.1 hr
    cases ha
    exact ⟨_, by rw [exec_rcRead o a len h, ctlRead_eq_gate hp hz]⟩
  case h_3 o a len =>
    obtain ⟨hz, ha⟩ := Option.ite_none_right_eq_some.1 hr
    cases ha
    exact ⟨_, by rw [exec_latchingRead o a len h, ctlRead_eq_gate hp hz]⟩
  case h_4 => cases hr

theorem readOf_bounds {c : Instr} (hr : readOf c = some (origin, off)) : origin < 64 ∧ off < 2 ^ 26 := by
  unfold readOf at hr
  split at hr
  case h_1 o i _ =>
    cases hr
    exact ⟨o.isLt, by simp only [Reg.SEM_CLAIM]; omega⟩
  case h_4 => cases hr
  all_goals
    cases (Option.ite_none_right_eq_some.1 hr).2
    exact ⟨Fin.isLt _, BitVec.isLt _⟩

/-- A refused read of a register: the answer, and the refusal beside which a host port's UR_SENT may count. -/
theorem ctlReadGate_refusedAt (f : State → State) (ho : origin < 64) (ha : off < 2 ^ 26) (hp : hostInReset s origin = false)
    (hr : retainReach s off = true) (hf : fwAllows s origin (ctlBase + off) false = false) :
    (ctlReadGate s origin off f).resp = (if origin = 5 ∨ origin = 6 then .unsupported else .value 0) ∧
      refusedAt (if origin = 5 ∨ origin = 6 then [Reg.PORT_UR_SENT (origin - 5)] else []) s (ctlReadGate s origin off f) origin
        (ctlBase + off) false := by
  have refused := fwRefuse_refusedAt s (addr := ctlBase + off) false ho (by simp only [ctlBase]; omega)
  rw [ctlReadGate_refused f hp hr hf]
  split
  · refine ⟨rfl, (refused.bump ?_).withResp _⟩
    simp only [List.mem_cons, List.not_mem_nil, or_false, Reg.PORT_UR_SENT, Reg.FW_REFUSED, Reg.FW_LAST, Reg.FW_LAST_ADDR]
    omega
  · exact ⟨rfl, refused.withResp _⟩

end Sys2Proof.Machine
end

section
/-! SUPPORT. What one access of the control space does behind the gate: where no register lies (R11), a read with what it clears and
latches (R9, R276), a write by access types (R9, R10), and one of a bad length (R407). -/

namespace Sys2Proof.Machine

variable {s : State} {origin off : Nat}

/-! ### Where no register lies (R11) -/

theorem regAt_of_regLookup {f : RegFam} (h : regLookup off = some f) : regAt off = some (f, off, 0) := by
  simp [regAt, h]

theorem regLookup_of_regAt_none (h : regAt off = none) : regLookup off = none := by
  cases hl : regLookup off with
  | none => rfl
  | some f => rw [regAt_of_regLookup hl] at h; cases h

/-- The upper word of two at which no register lies. -/
theorem regAt_upper_none (h8 : off % 8 = 0) (h : regLookup off = none) (h4 : regLookup (off + 4) = none) : regAt (off + 4) = none := by
  have : (off + 4) % 8 = 4 := by omega
  simp [regAt, h4, this, h]

theorem unassigned_recordOnly (s : State) (origin off : Nat) (write : Bool) : RecordOnly s (unassigned s origin off write) :=
  have record := log_recordOnly s origin (unitBlock off) (ctlBase + off) 0 write (kind := 0x01) (by decide)
  ⟨record.frame.withResp _, record.kept⟩

theorem unassigned_logged (s : State) (origin off : Nat) (write : Bool) :
    logged (unassigned s origin off write) 0x01 origin (ctlBase + off) 0 write :=
  log_logged s _ _ _ _ _ (by decide)

/-- A word at which no register lies and no rule of its own. -/
def NoRegister (off : Nat) : Prop :=
  inCap off = false ∧ ¬(Reg.SEM_CLAIM 0 ≤ off ∧ off < Reg.SEM_CLAIM 64) ∧ regAt off = none

theorem readWord_unassigned (s : State) (origin : Nat) (h : NoRegister off) :
    readWord s origin off = (0, unassigned s origin off false) := by
  obtain ⟨hc, hsem, hreg⟩ := h
  simp only [readWord, hc, hreg, if_neg hsem]
  rfl

theorem writeWord_unassigned (s : State) (origin n : Nat) (h : NoRegister off) :
    writeWord s origin off n = unassigned s origin off true := by
  obtain ⟨hc, -, hreg⟩ := h
  simp only [writeWord, hc, hreg]
  rfl

/-- An 8-byte access to two such words reads them one after the other. -/
theorem readDouble_unassigned (s : State) (origin : Nat) (h : NoRegister off) (h4 : NoRegister (off + 4)) :
    readDouble s origin off = (0, unassigned (unassigned s origin off false) origin (off + 4) false) := by
  have hl := regLookup_of_regAt_none h.2.2
  simp [readDouble, hl, readWord_unassigned s origin h, readWord_unassigned _ origin h4]

theorem writeDouble_unassigned (s : State) (origin : Nat) (v : Word) (h : NoRegister off) (h4 : NoRegister (off + 4)) :
    writeDouble s origin off v = unassigned (unassigned s origin off true) origin (off + 4) true := by
  have hl := regLookup_of_regAt_none h.2.2
  simp [writeDouble, hl, writeWord_unassigned _ origin _ h, writeWord_unassigned _ origin _ h4]

/-! ### Access of one length -/

theorem ctlRead_word (hr : readPasses s origin off = true) (h4 : off % 4 = 0) :
    ctlRead s origin off 4 = { (readWord s origin off).2 with resp := .value (readWord s origin off).1 } := by
  rw [ctlRead_eq_gate (readPasses_iff.1 hr).1 (by simp [sizeOk, h4]), ctlReadGate_passes _ hr]
  rfl

theorem ctlRead_double (hr : readPasses s origin off = true) (h8 : off % 8 = 0) :
    ctlRead s origin off 8 = { (readDouble s origin off).2 with resp := .value (readDouble s origin off).1 } := by
  rw [ctlRead_eq_gate (readPasses_iff.1 hr).1 (by simp [sizeOk, h8]), ctlReadGate_passes _ hr]
  rfl

theorem ctlWrite_word (v : Word) (hw : writePasses s origin off = true) (h4 : off % 4 = 0) :
    ctlWrite s origin off 4 v = writeWord s origin off (v.toNat % 2 ^ 32) := by
  rw [ctlWrite_eq_gate v (writePasses_iff.1 hw).1 (by simp [sizeOk, h4]), ctlGate_passes _ hw]
  rfl

theorem ctlWrite_double (v : Word) (hw : writePasses s origin off = true) (h8 : off % 8 = 0) :
    ctlWrite s origin off 8 v = writeDouble s origin off v := by
  rw [ctlWrite_eq_gate v (writePasses_iff.1 hw).1 (by simp [sizeOk, h8]), ctlGate_passes _ hw]
  rfl

/-- What a read of unassigned words leaves once it has been answered 0. -/
theorem after_unassigned_read {u : State} {a : Nat} (h : RecordOnly s u) (hl : logged u 0x01 origin a 0 false) :
    (s.after { u with resp := .value 0 }).resp = .value 0 ∧ logged (s.after { u with resp := .value 0 }) 0x01 origin a 0 false ∧
      AccessOnly s (s.after { u with resp := .value 0 }) ∧ RegsKept logRegs s (s.after { u with resp := .value 0 }) := by
  have frame := h.frame.withResp (.value 0)
  rw [frame.after]
  exact ⟨rfl, hl, frame, h.kept⟩

/-- What a write of unassigned words leaves: it answers nothing. -/
theorem after_unassigned_write {u : State} {a : Nat} (h : RecordOnly s u) (hr : u.resp = s.resp) (hl : logged u 0x01 origin a 0 true) :
    logged (s.after u) 0x01 origin a 0 true ∧ s.after u = { s with regs := (s.after u).regs, mainLog := (s.after u).mainLog } ∧
      RegsKept logRegs s (s.after u) := by
  rw [h.frame.after]
  exact ⟨hl, h.frame.of_resp_eq hr, h.kept⟩

/-! ### Reading and clearing (R9, R276) -/

theorem clearRead_reg (s : State) (off : Nat) (mask : Word) :
    (clearRead s off mask).reg off = s.reg off &&& ~~~(accMask off .rc &&& mask) := by
  unfold clearRead
  dsimp only
  split
  · next h => rw [h, show ~~~(0 : Word) = BitVec.allOnes 64 from rfl, BitVec.and_allOnes]
  · rw [reg_setReg_self]

theorem clearRead_onlyRegs (s : State) (off : Nat) (mask : Word) : OnlyRegs [off] s (clearRead s off mask) := by
  unfold clearRead
  dsimp only
  split
  · exact OnlyRegs.refl _ s
  · exact (OnlyRegs.refl _ s).setReg _ _ (by simp)

/-- The upper half of DET.BEAT is latched with a register of 64 bits. -/
theorem ne_detBeat_of_narrow {f : RegFam} (h : regLookup off = some f) (hf : f.wide = false) : off ≠ Reg.DET_BEAT := by
  rintro rfl
  have hw : (regLookup Reg.DET_BEAT).map RegFam.wide = some true := by decide
  rw [h] at hw
  simp [hf] at hw

/-- A register that begins no ledger latches nothing. -/
theorem latchOthers_none (s : State) (hl : latches off = []) (hd : off ≠ Reg.DET_BEAT) : latchOthers s off = s := by
  simp [latchOthers, hl, hd]

theorem readWord_narrow (s : State) (origin : Nat) {f : RegFam} (hc : inCap off = false)
    (hsem : ¬(Reg.SEM_CLAIM 0 ≤ off ∧ off < Reg.SEM_CLAIM 64)) (h : regLookup off = some f) (hf : f.wide = false)
    (hl : latches off = []) : readWord s origin off = (seenReg s off &&& 0xFFFFFFFF, clearRead s off 0xFFFFFFFF) := by
  simp only [readWord, hc, if_neg hsem, regAt_of_regLookup h, latchOthers_none s hl (ne_detBeat_of_narrow h hf)]
  rfl

/-- What a ledger's latch holds is no part of what a register shows. -/
theorem shownReg_latchReg (s : State) (o j : Nat) (v : Word) : shownReg (latchReg s o v) j = shownReg s j := rfl

/-- The newest latch of a register is found, and hides none of another one. -/
theorem find?_latchReg (s : State) (o r : Nat) (v : Word) :
    (latchReg s o v).latched.find? (fun p => p.1 == r) = if o = r then some (o, v) else s.latched.find? (fun p => p.1 == r) := by
  by_cases h : o = r
  · simp [latchReg, h]
  · have other : (fun p : Nat × Word => decide ((p.1 != o) = true ∧ (p.1 == r) = true)) = fun p => p.1 == r := by
      funext p
      by_cases hp : p.1 = r <;> simp [hp, Ne.symm h]
    simp only [latchReg, List.find?_cons, beq_eq_false_iff_ne.2 h, List.find?_filter, other, if_neg h]

/-- Latch a list of registers as they are shown. -/
def latchEach (s : State) (l : List Nat) : State := l.foldl (fun t o => latchReg t o (shownReg t o)) s

theorem latchOthers_eq_latchEach (s : State) (hd : off ≠ Reg.DET_BEAT) : latchOthers s off = latchEach s (latches off) := by
  simp [latchOthers, latchEach, hd]

/-- Latching a list of registers holds each as it is shown. -/
theorem find?_latchEach (l : List Nat) (s : State) (r : Nat) :
    (latchEach s l).latched.find? (fun p => p.1 == r) =
      if r ∈ l then some (r, shownReg s r) else s.latched.find? (fun p => p.1 == r) := by
  induction l generalizing s with
  | nil => rfl
  | cons o l ih =>
    show (latchEach (latchReg s o (shownReg s o)) l).latched.find? _ = _
    rw [ih, shownReg_latchReg, find?_latchReg]
    by_cases hl : r ∈ l
    · simp [hl]
    · by_cases ho : o = r
      · simp [ho]
      · simp [hl, ho, Ne.symm ho]

/-- Latching changes what is latched and nothing else. -/
theorem latchEach_frame (l : List Nat) (s : State) : latchEach s l = { s with latched := (latchEach s l).latched } := by
  induction l generalizing s with
  | nil => rfl
  | cons o l ih =>
    show latchEach (latchReg s o (shownReg s o)) l = { s with latched := (latchEach (latchReg s o (shownReg s o)) l).latched }
    rw [ih]
    rfl

/-- A register that a ledger has latched whole is read as it was latched. -/
theorem seenReg_of_latched {r : Nat} {v : Word} (h : s.latched.find? (fun p => p.1 == r) = some (r, v))
    (hm : latchMask r = BitVec.allOnes 64) : seenReg s r = v := by
  simp only [seenReg, h, hm, BitVec.not_allOnes, BitVec.and_allOnes, BitVec.and_zero, BitVec.zero_or]

/-- An 8-byte read of a 64-bit register. -/
theorem readDouble_wide (s : State) (origin : Nat) {f : RegFam} (hl : regLookup off = some f) (hf : f.wide = true)
    (hc : inCap off = false) :
    readDouble s origin off = (seenReg s off, clearRead (latchOthers s off) off (BitVec.allOnes 64)) := by
  simp only [readDouble, hl, hf, hc]
  rfl

theorem clearRead_of_no_rc (s : State) (mask : Word) (h : accMask off .rc = 0) : clearRead s off mask = s := by
  simp [clearRead, h]

/-- The rest of the object ledger. -/
def initLedger : List Nat := [Reg.SYN_SIG_TOTAL, Reg.SYN_TAKE_TOTAL, Reg.SYN_RETIRED_TOTAL, Reg.SYN_COUNT_SUM]

/-- A read of the object ledger's first register shows it and latches the ledger's others (R276). -/
theorem readDouble_initTotal (s : State) (origin : Nat) :
    readDouble s origin Reg.SYN_INIT_TOTAL = (seenReg s Reg.SYN_INIT_TOTAL, latchEach s initLedger) := by
  obtain ⟨f, hl, hf⟩ : ∃ f, regLookup Reg.SYN_INIT_TOTAL = some f ∧ f.wide = true := ⟨_, rfl, rfl⟩
  rw [readDouble_wide s origin hl hf (by decide), clearRead_of_no_rc _ _ (by decide), latchOthers_eq_latchEach s (by decide),
    show latches Reg.SYN_INIT_TOTAL = initLedger by decide]

/-- Each register of the ledger is read as it was when it was latched. -/
theorem seenReg_latchEach {l : List Nat} {r : Nat} (resp : Resp) (hr : r ∈ l) (hm : latchMask r = BitVec.allOnes 64) :
    seenReg { latchEach s l with resp := resp } r = shownReg s r := by
  refine seenReg_of_latched ?_ hm
  show (latchEach s l).latched.find? _ = _
  rw [find?_latchEach, if_pos hr]

/-! ### Plain writes (R8 to R10) -/

/-- The value that a write by access type leaves in a register without a locked field (R9). -/
def plainValue (old v : Word) (off : Nat) : Word :=
  (((old &&& ~~~(v &&& accMask off .w1c)) ||| (v &&& accMask off .w1s)) &&& ~~~(accMask off .rw)) ||| (v &&& accMask off .rw)

theorem plainWrite_unlocked (s : State) (origin : Nat) (v : Word) (h : accMask off .rwl = 0) :
    plainWrite s origin off v = s.setReg off (plainValue (s.reg off) v off) := by
  simp [plainWrite, plainValue, h]

/-- Bit by bit, an RW bit takes the value, and another one is cleared or set where the value has a 1. -/
theorem getLsbD_plainValue (old v : Word) (off : Nat) {i : Nat} (hi : i < 64) :
    (plainValue old v off).getLsbD i =
      if (accMask off .rw).getLsbD i then v.getLsbD i
      else (old.getLsbD i && !(v.getLsbD i && (accMask off .w1c).getLsbD i)) || (v.getLsbD i && (accMask off .w1s).getLsbD i) := by
  simp only [plainValue, BitVec.getLsbD_or, BitVec.getLsbD_and, BitVec.getLsbD_not, hi, decide_true, Bool.true_and]
  cases (accMask off .rw).getLsbD i <;> simp

/-- The offsets that `plainOff` names, as ranges. -/
theorem plainOff_cases (h : plainOff off = true) :
    (0x110000 ≤ off ∧ off < 0x140000 ∧ off ≠ Reg.SAF_FB_OFF_ARM) ∨ (0x150000 ≤ off ∧ off < 0x1A0000 ∧ off ≠ Reg.PMU_CTRL) ∨
      (0x700000 ≤ off ∧ off < 0x800000) := by
  simpa [plainOff, and_assoc, or_assoc] using h

/-- Below 0x20_0000 none of the rules of the other registers meets an offset that `plainOff` names. -/
theorem systemWrite_of_plainOff (s : State) (origin : Nat) (v : Word) (h : plainOff off = true) (hlow : off < 0x200000) :
    systemWrite s origin off v = plainWrite s origin off v := by
  have hranges : (¬off < 0x20000 ∧ ¬off < 0x30000) ∧ ¬(0x40000 ≤ off ∧ off < 0x50000) ∧ ¬(0x100000 ≤ off ∧ off < 0x110000) ∧
      ¬(0x140000 ≤ off ∧ off < 0x150000) := by
    rcases plainOff_cases h with h | h | h <;> omega
  have hregs : off ≠ Reg.SAF_FB_OFF_ARM ∧ off ≠ Reg.PMU_CTRL := by
    rcases plainOff_cases h with h | h | h <;> simp only [Reg.SAF_FB_OFF_ARM, Reg.PMU_CTRL] at h ⊢ <;> omega
  simp only [systemWrite, hranges, hregs, if_false]

/-- Nor does one above it. -/
theorem regWrite_of_plainOff (s : State) (origin : Nat) (v : Word) (h : plainOff off = true) :
    regWrite s origin off v = plainWrite s origin off v := by
  by_cases hlow : off < 0x200000
  · rw [← systemWrite_of_plainOff s origin v h hlow]
    simp only [regWrite, hlow, if_true]
  · have hin : 0x700000 ≤ off ∧ off < 0x800000 := by rcases plainOff_cases h with h | h | h <;> omega
    have hranges : ¬off < 0x220000 ∧ ¬(0x400000 ≤ off ∧ off < 0x580000) ∧ ¬(0x600000 ≤ off ∧ off < 0x660000) ∧
        ¬(0x800000 ≤ off ∧ off < 0x810000) ∧ ¬(0x900000 ≤ off ∧ off < 0xA00000) ∧ ¬(0xA00000 ≤ off ∧ off < 0xB00000) := by omega
    have hregs : off ≠ Reg.AE0_KV_TICK_SRC ∧ off ≠ Reg.LOG_CTRL ∧ off ≠ Reg.SCRUB_CFG := by
      simp only [Reg.AE0_KV_TICK_SRC, Reg.LOG_CTRL, Reg.SCRUB_CFG]
      omega
    simp only [regWrite, hlow, hranges, hregs, if_false]

theorem inCap_of_plainOff (h : plainOff off = true) : inCap off = false := by
  have h1 : ¬off < 0x1000 := by rcases plainOff_cases h with h | h | h <;> omega
  have h2 : off ≠ Reg.CAP_STATUS := by rcases plainOff_cases h with h | h | h <;> simp only [Reg.CAP_STATUS] <;> omega
  simp [inCap, h1, h2]

theorem writeDouble_wide (s : State) (origin : Nat) (v : Word) {f : RegFam} (hl : regLookup off = some f) (hf : f.wide = true)
    (hc : inCap off = false) : writeDouble s origin off v = regWrite s origin off v := by
  simp only [writeDouble, hl, hf, hc]
  rfl

theorem writeWord_narrow (s : State) (origin n : Nat) {f : RegFam} (hl : regLookup off = some f) (hf : f.wide = false)
    (hc : inCap off = false) : writeWord s origin off n = regWrite s origin off (BitVec.ofNat 64 n) := by
  simp only [writeWord, hc, regAt_of_regLookup hl, hf]
  rfl

/-- A write of a whole register without a rule of its own: 4 bytes of a 32-bit one, 8 of a 64-bit one; `x` is the value as the
register's width takes it. -/
theorem ctlWrite_plainOff {len : Nat} {v x : Word} {f : RegFam}
    (hx : (f.wide = false ∧ len = 4 ∧ off % 4 = 0 ∧ x.toNat = v.toNat % 2 ^ 32) ∨
      (f.wide = true ∧ len = 8 ∧ off % 8 = 0 ∧ x.toNat = v.toNat))
    (hl : regLookup off = some f) (hrwl : accMask off .rwl = 0) (hp : plainOff off = true) (hw : writePasses s origin off = true) :
    ctlWrite s origin off len v = s.setReg off (plainValue (s.reg off) x off) := by
  have hc := inCap_of_plainOff hp
  rw [← plainWrite_unlocked s origin x hrwl, ← regWrite_of_plainOff s origin x hp]
  rcases hx with ⟨hf, rfl, h4, hx⟩ | ⟨hf, rfl, h8, hx⟩
  · rw [ctlWrite_word v hw h4, writeWord_narrow s origin _ hl hf hc, ← hx, BitVec.ofNat_toNat, BitVec.setWidth_eq]
  · rw [ctlWrite_double v hw h8, writeDouble_wide s origin v hl hf hc, BitVec.eq_of_toNat_eq hx]

/-! ### A bad length or alignment (R407) -/

/-- What a host port counts of a discarded write. -/
def noteDiscard (s : State) (origin : Nat) : State :=
  if origin = 5 ∨ origin = 6 then s.bump (Reg.PORT_UR_SENT (origin - 5)) else s

/-- A write of a length or an alignment that BAR0 does not take is counted for a host port, and recorded. -/
theorem badSize_write (s : State) (origin off v : Nat) :
    badSize s origin off v true = (noteDiscard s origin).log 0x02 origin (unitBlock off) (ctlBase + off) v true := by
  simp [badSize, noteDiscard]

theorem noteDiscard_of_host (s : State) (h : origin = 5 ∨ origin = 6) :
    noteDiscard s origin = s.bump (Reg.PORT_UR_SENT (origin - 5)) := if_pos h

theorem noteDiscard_of_other (s : State) (h5 : origin ≠ 5) (h6 : origin ≠ 6) : noteDiscard s origin = s := by
  simp [noteDiscard, h5, h6]

theorem noteDiscard_regsOnly (s : State) (origin : Nat) : RegsOnly s (noteDiscard s origin) := by
  unfold noteDiscard
  split <;> rfl

theorem ctlWrite_badSize {len : Nat} (v : Word) (hp : hostInReset s origin = false) (hz : sizeOk off len = false) :
    ctlWrite s origin off len v = (noteDiscard s origin).log 0x02 origin (unitBlock off) (ctlBase + off) v.toNat true := by
  rw [← badSize_write]
  simp [ctlWrite, hp, hz]

/-- UR_SENT of a port is none of the registers of LOG. -/
theorem urSent_not_logReg {p : Nat} (hp : p < 2) : Reg.PORT_UR_SENT p ∉ logRegs := by
  simp only [logRegs, List.mem_cons, List.not_mem_nil, or_false, Reg.PORT_UR_SENT, Reg.LOG_NEXT_SEQ, Reg.LOG_OLDEST_SEQ,
    Reg.LOG_OVERWRITTEN]
  omega

end Sys2Proof.Machine
end

section
/-! CERTIFICATE. The statements about plain accesses of the control space: O13 to O16. -/

namespace Sys2Proof.Machine

/-- Settles O13: each command that accesses one register passes the gate with it, and the gate of a refused access leaves the refusal
alone. -/
theorem firewallRefusalHasNoOtherEffect : Obligations.FirewallRefusalHasNoOtherEffect := by
  unfold Obligations.FirewallRefusalHasNoOtherEffect
  intro s c origin off hs hp hr
  constructor
  · intro hw hf
    obtain ⟨f, hexec⟩ := exec_of_writeOf hw hs hp
    obtain ⟨ho, ha⟩ := writeOf_bounds hw
    have refused := fwRefuse_refusedAt s (addr := ctlBase + off) true ho (by simp only [ctlBase]; omega)
    rw [ctlGate_refused f hp hr hf, refused.after] at hexec
    exact ⟨_, hexec, fwRefuse_resp _ _ _ _, refused⟩
  · intro hc hf
    obtain ⟨f, hexec⟩ := exec_of_readOf hc hs hp
    obtain ⟨ho, ha⟩ := readOf_bounds hc
    obtain ⟨hresp, refused⟩ := ctlReadGate_refusedAt f ho ha hp hr hf
    rw [refused.after] at hexec
    exact ⟨_, hexec, hresp, refused⟩

/-- Settles O14: a write of a whole register is `plainValue` at its offset, bit by bit; one of a bad size is a record, beside the count
of a host port. -/
theorem plainRegisterWrite : Obligations.PlainRegisterWrite := by
  unfold Obligations.PlainRegisterWrite
  intro s o off v hs
  constructor
  · intro f len x hx hl hrwl hplain hw
    obtain ⟨y, rfl⟩ : ∃ y : Word, x = y.toNat := ⟨BitVec.ofNat 64 x, by rw [BitVec.toNat_ofNat, Nat.mod_eq_of_lt (by omega)]⟩
    have hlen : (f.wide = false ∧ len.toNat = 4 ∧ off.toNat % 4 = 0 ∧ y.toNat = v.toNat % 2 ^ 32) ∨
        (f.wide = true ∧ len.toNat = 8 ∧ off.toNat % 8 = 0 ∧ y.toNat = v.toNat) :=
      hx.imp (fun ⟨hf, hlen, h⟩ => ⟨hf, hlen ▸ rfl, h⟩) (fun ⟨hf, hlen, h⟩ => ⟨hf, hlen ▸ rfl, h⟩)
    have only := (OnlyRegs.refl [off.toNat] s).setReg off.toNat (plainValue (s.reg off.toNat) y off.toNat) (by simp)
    refine ⟨_, exec_registerWrite o off len v hs, ?_⟩
    rw [ctlWrite_plainOff hlen hl hrwl hplain hw, only.1.after]
    refine ⟨only, fun i hi => ?_⟩
    simp only [State.regBit, State.regN, reg_setReg_self, bitOf_toNat, getLsbD_plainValue _ _ _ hi]
  · intro len hp hz
    have discard := noteDiscard_regsOnly s o.val
    have record := log_recordOnly (noteDiscard s o.val) o.val (unitBlock off.toNat) (ctlBase + off.toNat) v.toNat true (kind := 0x02)
      (by decide)
    have frame := discard.accessOnly.trans record.frame
    refine ⟨_, exec_registerWrite o off len v hs, ?_⟩
    rw [ctlWrite_badSize v hp hz, frame.after]
    refine ⟨log_logged _ _ _ _ _ _ (by decide), frame.of_resp_eq ?_, fun hhost => ?_, fun h5 h6 => ?_⟩
    · rw [log_resp _ _ _ _ _ _ (by decide), discard.resp]
    · rw [record.kept.regN (urSent_not_logReg (by omega)), noteDiscard_of_host s hhost]
      refine ⟨regN_bump_self .., ?_⟩
      rw [noteDiscard_of_host s hhost] at record
      exact ((RegsKept.refl _ s).setReg _ (by simp)).trans (record.kept.mono (List.subset_cons_self _ _))
    · rw [noteDiscard_of_other s h5 h6] at record ⊢
      exact record.kept

/-- Settles O15: where no register lies a word is answered 0 and recorded, and an 8-byte access is two such words. -/
theorem unassignedOffset : Obligations.UnassignedOffset := by
  unfold Obligations.UnassignedOffset
  intro s o off v hs h4 hc hsem hreg
  have lower : NoRegister off.toNat := ⟨hc, hsem, hreg⟩
  refine ⟨fun hr => ?_, fun hw => ?_, fun h8 hc4 hl4 => ?_⟩
  · refine ⟨_, exec_rcRead o off 4 hs, exec_latchingRead o off 4 hs, ?_⟩
    rw [show (4 : BitVec 13).toNat = 4 from rfl, ctlRead_word hr h4, readWord_unassigned s o.val lower]
    exact after_unassigned_read (unassigned_recordOnly ..) (unassigned_logged ..)
  · refine ⟨_, exec_registerWrite o off 4 v hs, ?_⟩
    rw [show (4 : BitVec 13).toNat = 4 from rfl, ctlWrite_word v hw h4, writeWord_unassigned s o.val _ lower]
    exact after_unassigned_write (unassigned_recordOnly ..) rfl (unassigned_logged ..)
  · have upper : NoRegister (off.toNat + 4) :=
      ⟨hc4, by simp only [Reg.SEM_CLAIM] at hsem ⊢; omega, regAt_upper_none h8 (regLookup_of_regAt_none hreg) hl4⟩
    refine ⟨fun hr => ?_, fun hw => ?_⟩
    · refine ⟨_, exec_rcRead o off 8 hs, exec_latchingRead o off 8 hs, ?_⟩
      rw [show (8 : BitVec 13).toNat = 8 from rfl, ctlRead_double hr h8, readDouble_unassigned s o.val lower upper]
      exact after_unassigned_read ((unassigned_recordOnly ..).trans (unassigned_recordOnly ..)) (unassigned_logged ..)
    · refine ⟨_, exec_registerWrite o off 8 v hs, ?_⟩
      rw [show (8 : BitVec 13).toNat = 8 from rfl, ctlWrite_double v hw h8, writeDouble_unassigned s o.val v lower upper]
      exact after_unassigned_write ((unassigned_recordOnly ..).trans (unassigned_recordOnly ..)) rfl (unassigned_logged ..)

/-- Settles O16: a 4-byte read is the register's word with its RC bits cleared, and a read of the ledger's first register latches the
others, each as it is shown. -/
theorem readingAndClearing : Obligations.ReadingAndClearing := by
  unfold Obligations.ReadingAndClearing
  intro s o off f hs
  constructor
  · intro h4 hc hsem hl hf hlat hr
    refine ⟨_, exec_rcRead o off 4 hs, exec_latchingRead o off 4 hs, ?_⟩
    obtain ⟨regs, kept⟩ := clearRead_onlyRegs s off.toNat 0xFFFFFFFF
    rw [show (4 : BitVec 13).toNat = 4 from rfl, ctlRead_word hr h4, readWord_narrow s o.val hc hsem hl hf hlat]
    refine ⟨rfl, ?_, kept, clearRead_reg s off.toNat 0xFFFFFFFF⟩
    unfold RegsOnly at regs
    rw [regs]
    rfl
  · intro hr
    refine ⟨_, exec_latchingRead o _ 8 hs, ?_⟩
    rw [show (BitVec.ofNat 26 Reg.SYN_INIT_TOTAL).toNat = Reg.SYN_INIT_TOTAL from rfl, show (8 : BitVec 13).toNat = 8 from rfl,
      ctlRead_double hr (by decide), readDouble_initTotal]
    have masks : ∀ r ∈ initLedger, latchMask r = BitVec.allOnes 64 := by decide
    refine ⟨rfl, ?_, fun r hmem => seenReg_latchEach (.value (seenReg s Reg.SYN_INIT_TOTAL)) hmem (masks r hmem)⟩
    rw [latchEach_frame]
    rfl

end Sys2Proof.Machine
end
